-- ==== Sys2Proof/Word.lean ====
section
/-! DEFINITION. The word types and their plainest arithmetic: bytes and 64-bit words, bit fields of a number, byte
strings, and the sorted sparse tables in which State holds everything that has an address or an index. -/
namespace Sys2Proof

/-- A byte. -/
abbrev Byte := BitVec 8

/-- A byte string, first byte first. -/
abbrev Bytes := List Byte

/-- A BAR0 register's width (R8). -/
abbrev Word64 := BitVec 64

/-- A sparse table: pairs of index and value, indices strictly rising. -/
abbrev SMap (α : Type) := List (Nat × α)

/-- An instant of device time or a duration, in units of 2^-16 ns (R6, R39). -/
abbrev Stamp := Nat

end Sys2Proof
end

