-- ==== Sys2Proof/Syntax.lean ====
section
/-! DEFINITION. The commands of the block: one constructor per row of the command table, with the row's operands. -/
namespace Sys2Proof

/-- Who issues a register access or a table command: a PCI Express function (0 PF0, 1 PF1, 2–63 VF 1–62: Table
HOST-12), a keeper core's firmware, or the image loader (R356). -/
inductive Agent where
  | host (fn : Nat)
  | keeper (core : Nat)
  | loader
  deriving DecidableEq, Repr

/-- What a descriptor read at a queue's head or at transmission shows: nothing wrong, a pointer that the check of R204 is
made on, or an uncorrectable error (R205). -/
inductive DescFault where
  | none
  | pointer (ptr : Nat)
  | uncorrectable
  deriving DecidableEq, Repr

/-- The instructions of the test access port that R494 names, and any other. -/
inductive TapInstr where
  | bypass
  | extest
  | extestPulse
  | extestTrain
  | clamp
  | highz
  | other (code : Nat)
  deriving DecidableEq, Repr

/-- The commands. Each docstring gives the row and the rule it is from. Operands that a register write carries: who writes
(`by_`), which register of an array, and the 64-bit value `v`. -/
inductive Instr where
  /-- REGISTER_WRITE (R505) -/
  | registerWrite (by_ : Agent) (off : Nat) (wide : Bool) (v : Word64)
  /-- TIM_NOW_LO_READ (R500) -/
  | timNowLoRead (fn : Nat)
  /-- ATOMICOP_UNSUPPORTED (R388) -/
  | atomicopUnsupported (fn : Nat)
  /-- POWER_ON_RESET (R382) -/
  | powerOnReset (pwrOk : Bool) (resetN : Bool) (gpio : Nat)
  /-- PIN_RESET (R382) -/
  | pinReset
  /-- LEAVE_RESET (R486) -/
  | leaveReset (vFuse : Nat) (factory : List Nat)
  /-- CHIP_RESET (R382) -/
  | chipReset (by_ : Agent) (v : Word64)
  /-- BLOCK_RESET (R383) -/
  | blockReset (by_ : Agent) (v : Word64)
  /-- BLOCK_RESET_DONE (R383) -/
  | blockResetDone (b : Nat)
  /-- IMAGE_HEADER_READ (R370) -/
  | imageHeaderRead (ok : Bool) (bytes : Bytes)
  /-- IMAGE_VERIFIED (R371) -/
  | imageVerified (ok : Bool)
  /-- VENDOR_SECTION_DECRYPT (R373) -/
  | vendorSectionDecrypt (i : Nat) (bytes : Bytes) (sigOk : Bool) (plain : Option Bytes) (exports : List Word64)
  /-- REGS_SECTION_LOAD (R374) -/
  | regsSectionLoad (i : Nat) (bytes : Bytes) (sigOk : Bool)
  /-- HBM_TRAINING_DONE (R376) -/
  | hbmTrainingDone (ok : Bool)
  /-- KEEPER_START (R376) -/
  | keeperStart
  /-- KEEPER_START_TIMEOUT (R376) -/
  | keeperStartTimeout
  /-- SEC_READY_TIMEOUT (R376) -/
  | secReadyTimeout
  /-- CMDS_SECTIONS_DONE (R375) -/
  | cmdsSectionsDone
  /-- NVM_READ (R384) -/
  | nvmRead (by_ : Agent) (v : Word64)
  /-- NVM_ERASE (R384) -/
  | nvmErase (by_ : Agent) (v : Word64)
  /-- NVM_PROGRAM (R384) -/
  | nvmProgram (by_ : Agent) (v : Word64)
  /-- NVM_CMD_INVALID (R384) -/
  | nvmCmdInvalid (by_ : Agent) (v : Word64)
  /-- NVM_OP_DONE (R384) -/
  | nvmOpDone (status : Nat) (data : Bytes)
  /-- BOOT_SELECTOR_WRITE (R369) -/
  | bootSelectorWrite (by_ : Agent) (v : Word64)
  /-- TIM_STEP (R43) -/
  | timStep (by_ : Agent) (v : Word64)
  /-- TIM_SLEW (R44) -/
  | timSlew (by_ : Agent) (v : Word64)
  /-- TIM_INCR (R45) -/
  | timIncr (by_ : Agent) (v : Word64)
  /-- PTP_SERVO_UPDATE (R46) -/
  | ptpServoUpdate (by_ : Agent) (v : Word64)
  /-- PPS_EDGE (R48) -/
  | ppsEdge (i : Nat) (d : Nat)
  /-- PPS_MISSING (R48) -/
  | ppsMissing (i : Nat)
  /-- FREQ_COMPARE (R46) -/
  | freqCompare (ok : Bool) (phase : Int)
  /-- SERVO_UPDATE_TIMEOUT (R64) -/
  | servoUpdateTimeout
  /-- HOLDOVER_SECOND (R64) -/
  | holdoverSecond
  /-- REF_REVERT (R49) -/
  | refRevert
  /-- FREE_RUN (R64) -/
  | freeRun (by_ : Agent) (v : Word64)
  /-- WICK_PULSE_LAUNCH (R51) -/
  | wickPulseLaunch
  /-- WICK_PULSE_ARRIVAL (R52) -/
  | wickPulseArrival (q : Nat) (d : Nat) (phase : List Nat)
  /-- WICK_ECHO (R53) -/
  | wickEcho (q : Nat) (roundTrip : Int)
  /-- CAL_REMEASURE (R67) -/
  | calRemeasure (l : Nat) (temp : Int) (rxSet : Nat) (txSet : Nat)
  /-- CAL_SLEW_STEP (R68) -/
  | calSlewStep
  /-- CAL_AGE_STALE (R70) -/
  | calAgeStale (l : Nat)
  /-- TIM_APPLY (R75) -/
  | timApply (by_ : Agent) (v : Word64)
  /-- PRT_APPLY (R94) -/
  | prtApply (by_ : Agent) (v : Word64)
  /-- PRS_APPLY (R128) -/
  | prsApply (by_ : Agent) (v : Word64)
  /-- XMT_APPLY (R143) -/
  | xmtApply (by_ : Agent) (v : Word64)
  /-- TCM_APPLY (R153) -/
  | tcmApply (by_ : Agent) (v : Word64)
  /-- FWD_APPLY (R165) -/
  | fwdApply (by_ : Agent) (v : Word64)
  /-- MTR_APPLY (R244) -/
  | mtrApply (by_ : Agent) (v : Word64)
  /-- QUE_APPLY (R216) -/
  | queApply (by_ : Agent) (v : Word64)
  /-- SCH_APPLY (R240) -/
  | schApply (by_ : Agent) (v : Word64)
  /-- LCK_APPLY (R257) -/
  | lckApply (by_ : Agent) (v : Word64)
  /-- WIT_APPLY (R305) -/
  | witApply (by_ : Agent) (v : Word64)
  /-- TOW_APPLY (R338) -/
  | towApply (by_ : Agent) (v : Word64)
  /-- HBM_APPLY (R437) -/
  | hbmApply (by_ : Agent) (v : Word64)
  /-- PRT_CFG_WRITE (R78) -/
  | prtCfgWrite (by_ : Agent) (p : Nat) (v : Word64)
  /-- PRT_OCTET_WRITE (R78) -/
  | prtOctetWrite (by_ : Agent) (o : Nat) (v : Word64)
  /-- PORT_DISABLE (R92) -/
  | portDisable (by_ : Agent) (p : Nat)
  /-- PORT_HALTED (R92) -/
  | portHalted (p : Nat)
  /-- AN_ATTEMPT (R80) -/
  | anAttempt (p : Nat) (resolved : Bool) (trained : Bool)
  /-- LINK_UP (R80) -/
  | linkUp (p : Nat) (skews : List Nat) (far : Option Nat)
  /-- LINK_DOWN (R93) -/
  | linkDown (p : Nat)
  /-- CDR_LOSS (R95) -/
  | cdrLoss (l : Nat) (signal : Bool)
  /-- ALIGN_LOST (R89) -/
  | alignLost (p : Nat) (trim : Nat)
  /-- FRAME_RECEIVE (R56) -/
  | frameReceive (port : Nat) (lane : Nat) (d : Nat) (phi : Int) (n : Nat) (d0 : Nat)
  /-- RX_FRAME_END (R82) -/
  | rxFrameEnd (port : Nat) (bytes : Bytes) (err : Bool)
  /-- FRAME_READY (R97) -/
  | frameReady (port : Nat) (head : Bytes)
  /-- BARGE_DISPATCH (R97) -/
  | bargeDispatch (sl : Nat)
  /-- NOP (R109) -/
  | nop (n : Nat) (errs : Nat)
  /-- MOV (R109) -/
  | mov (n : Nat) (errs : Nat)
  /-- ADD (R109) -/
  | add (n : Nat) (errs : Nat)
  /-- SUB (R109) -/
  | sub (n : Nat) (errs : Nat)
  /-- AND (R109) -/
  | and (n : Nat) (errs : Nat)
  /-- OR (R109) -/
  | or (n : Nat) (errs : Nat)
  /-- XOR (R109) -/
  | xor (n : Nat) (errs : Nat)
  /-- SHL (R109) -/
  | shl (n : Nat) (errs : Nat)
  /-- SHR (R109) -/
  | shr (n : Nat) (errs : Nat)
  /-- CMP (R109) -/
  | cmp (n : Nat) (errs : Nat)
  /-- CMPM (R109) -/
  | cmpm (n : Nat) (errs : Nat)
  /-- MWR (R110) -/
  | mwr (n : Nat) (errs : Nat)
  /-- MSG (R111) -/
  | msg (n : Nat) (errs : Nat) (lane : Nat)
  /-- SETLEN (R109) -/
  | setlen (n : Nat) (errs : Nat)
  /-- LKUP (R113) -/
  | lkup (n : Nat) (errs : Nat)
  /-- SCPRD (R114) -/
  | scprd (n : Nat) (errs : Nat) (held : Nat) (waits : Nat) (ecc : Nat)
  /-- SCPADD (R114) -/
  | scpadd (n : Nat) (errs : Nat) (held : Nat) (waits : Nat) (ecc : Nat)
  /-- SCPSWP (R114) -/
  | scpswp (n : Nat) (errs : Nat) (held : Nat) (waits : Nat) (ecc : Nat)
  /-- CSUM (R109) -/
  | csum (n : Nat) (errs : Nat)
  /-- CALL (R109) -/
  | call (n : Nat) (errs : Nat)
  /-- RET (R109) -/
  | ret (n : Nat) (errs : Nat)
  /-- LOOP (R109) -/
  | loop (n : Nat) (errs : Nat)
  /-- DJNZ (R109) -/
  | djnz (n : Nat) (errs : Nat)
  /-- SWITCH (R109) -/
  | switch (n : Nat) (errs : Nat)
  /-- DONE (R112) -/
  | mwDone (n : Nat) (errs : Nat)
  /-- ABORT (R115) -/
  | abort (n : Nat) (errs : Nat)
  /-- RTT (R119) -/
  | rtt (n : Nat) (errs : Nat) (wait : Nat) (arrives : Option (Nat × Nat))
  /-- RESERVED_OPCODE (R109) -/
  | reservedOpcode (n : Nat) (errs : Nat)
  /-- LKUP_RESULT (R113) -/
  | lkupResult (n : Nat) (reg : Nat) (bad : Option (Nat × Nat))
  /-- SCP_STALL_TIMEOUT (R114) -/
  | scpStallTimeout (n : Nat)
  /-- POISON_ARRIVAL (R116) -/
  | poisonArrival (n : Nat) (origin : Nat) (reg : Nat)
  /-- SAMPLING_REQUEST (R122) -/
  | samplingRequest (n : Nat) (counter : Nat)
  /-- TRAP_ENTRY (R117) -/
  | trapEntry (n : Nat) (wait : Nat) (arrives : Option (Nat × Nat))
  /-- RUN_LIMIT (R101) -/
  | runLimit (n : Nat)
  /-- MANIFEST_RELEASE (R100) -/
  | manifestRelease (port : Nat)
  /-- PRS_PROFILE_WRITE (R103) -/
  | prsProfileWrite (by_ : Agent) (sl : Nat) (i : Nat) (v : Word64)
  /-- PRS_CS_BANK_WRITE (R128) -/
  | prsCsBankWrite (by_ : Agent) (v : Word64)
  /-- OLD_BANK_DRAINED (R128) -/
  | oldBankDrained
  /-- UCODE_LOAD_GO (R130) -/
  | ucodeLoadGo (by_ : Agent) (v : Word64)
  /-- UCODE_PACKAGE_FETCHED (R130) -/
  | ucodePackageFetched (ok : Bool) (package : Bytes)
  /-- UCODE_LOAD_COMPLETE (R130) -/
  | ucodeLoadComplete (sigOk : Bool)
  /-- CS_BACKGROUND_CHECK (R126) -/
  | csBackgroundCheck (sl : Nat) (bank : Nat) (w : Nat) (errors : Nat)
  /-- CS_RESTORE_DONE (R126) -/
  | csRestoreDone (sl : Nat) (bank : Nat) (w : Nat)
  /-- PACKET_LOOKUP (R138) -/
  | packetLookup (id : Nat) (bad : Option (Nat × Nat))
  /-- METER_CHARGE (R222) -/
  | meterCharge (id : Nat) (ecc : List Nat)
  /-- METER_SWEEP (R223) -/
  | meterSweep
  /-- BUFFER_ADMIT (R210) -/
  | bufferAdmit (sl : Nat) (p0 : Option Nat) (p1 : Option Nat) (p2 : Option Nat)
  /-- CACHE_REFILL (R198) -/
  | cacheRefill (sl : Nat) (k : Nat) (bad : Option Nat)
  /-- CACHE_SPILL (R198) -/
  | cacheSpill (sl : Nat) (k : Nat)
  /-- BUFFER_FREE (R203) -/
  | bufferFree (sl : Nat) (ptr : Nat) (pool : Nat) (tag : Nat)
  /-- AUDIT_PASS (R206) -/
  | auditPass
  /-- QUE_HALT_WRITE (R195) -/
  | queHaltWrite (by_ : Agent) (v : Word64)
  /-- PFC_FRAME_TRANSMIT (R214) -/
  | pfcFrameTransmit (p : Nat) (lane : Nat) (d : Nat) (n : Nat)
  /-- PFC_REPEAT (R214) -/
  | pfcRepeat (p : Nat) (c : Nat)
  /-- PFC_HOLD_EXPIRY (R213) -/
  | pfcHoldExpiry (p : Nat) (c : Nat)
  /-- PFC_FRAME_RECEIVE (R234) -/
  | pfcFrameReceive (p : Nat) (opcode : Nat) (enable : Nat) (times : List Nat)
  /-- PAUSE_EXPIRY (R234) -/
  | pauseExpiry (p : Nat) (c : Nat)
  /-- SCH_PFC_LONG (R234) -/
  | schPfcLong (p : Nat) (c : Nat)
  /-- OFFER_ARRIVAL (R228) -/
  | offerArrival (q : Nat)
  /-- SCHEDULER_GRANT (R230) -/
  | schedulerGrant (p : Nat) (locked : Bool) (slot : Stamp) (fault : DescFault)
  /-- MCAST_ARBITER_GRANT (R231) -/
  | mcastArbiterGrant (e : Nat) (fault : DescFault)
  /-- REPLICATE (R269) -/
  | replicate (e : Nat)
  /-- CROSSBAR_ARRIVAL (R249) -/
  | crossbarArrival (p : Nat)
  /-- LOCK_RELEASE (R249) -/
  | lockRelease (p : Nat) (slot : Stamp) (parity : Bool)
  /-- FRAME_TRANSMIT_START (R250) -/
  | frameTransmitStart (p : Nat) (lane : Nat) (d : Nat) (n : Nat) (first : Stamp) (fault : DescFault)
  /-- FRAME_TRANSMIT_END (R201) -/
  | frameTransmitEnd (p : Nat) (t : Stamp)
  /-- SHAPER_RECOVERY_END (R236) -/
  | shaperRecoveryEnd (p : Nat)
  /-- GATE_ENTRY_CHANGE (R238) -/
  | gateEntryChange (p : Nat)
  /-- GATE_SCHEDULE_START (R240) -/
  | gateScheduleStart (p : Nat)
  /-- SCH_GL_WRITE (R240) -/
  | schGlWrite (by_ : Agent) (i : Nat) (v : Word64)
  /-- EM_INSERT (R146) -/
  | emInsert (keeper : Bool) (cmd : Bytes)
  /-- EM_DELETE (R147) -/
  | emDelete (keeper : Bool) (cmd : Bytes)
  /-- EM_UPDATE (R173) -/
  | emUpdate (keeper : Bool) (cmd : Bytes)
  /-- EM_LOOKUP (R159) -/
  | emLookup (keeper : Bool) (cmd : Bytes)
  /-- TC_WRITE (R151) -/
  | tcWrite (keeper : Bool) (cmd : Bytes)
  /-- TC_INVALIDATE (R156) -/
  | tcInvalidate (keeper : Bool) (cmd : Bytes)
  /-- TC_INSERT_SHIFT (R155) -/
  | tcInsertShift (keeper : Bool) (cmd : Bytes)
  /-- TC_MOVE_STEP (R155) -/
  | tcMoveStep
  /-- NH_WRITE (R140) -/
  | nhWrite (keeper : Bool) (cmd : Bytes)
  /-- SEL_WRITE (R153) -/
  | selWrite (keeper : Bool) (cmd : Bytes)
  /-- VLAN_WRITE (R139) -/
  | vlanWrite (keeper : Bool) (cmd : Bytes)
  /-- SMAC_WRITE (R140) -/
  | smacWrite (keeper : Bool) (cmd : Bytes)
  /-- TUN_WRITE (R140) -/
  | tunWrite (keeper : Bool) (cmd : Bytes)
  /-- REPL_LIST_WRITE (R268) -/
  | replListWrite (keeper : Bool) (cmd : Bytes)
  /-- REPL_GROUP_WRITE (R268) -/
  | replGroupWrite (keeper : Bool) (cmd : Bytes)
  /-- REPL_GROUP_READ (R268) -/
  | replGroupRead (keeper : Bool) (cmd : Bytes)
  /-- MTR_PROF_WRITE (R221) -/
  | mtrProfWrite (keeper : Bool) (cmd : Bytes)
  /-- MTR_SET (R226) -/
  | mtrSet (keeper : Bool) (cmd : Bytes)
  /-- MTR_READ (R226) -/
  | mtrRead (keeper : Bool) (cmd : Bytes)
  /-- TABLE_CMD_BAD_OP (R159) -/
  | tableCmdBadOp (keeper : Bool) (cmd : Bytes)
  /-- FWD_RING_TAIL_WRITE (R159) -/
  | fwdRingTailWrite (by_ : Agent) (v : Word64)
  /-- TABLE_RESTORE_DONE (R149) -/
  | tableRestoreDone (mem : Nat) (index : Nat)
  /-- TCM_SCRUB (R157) -/
  | tcmScrub (e : Nat) (result : Nat)
  /-- CLAIM_SWAP (R161) -/
  | claimSwap (by_ : Agent) (r : Nat) (v : Word64)
  /-- CLAIM_WRITE (R161) -/
  | claimWrite (by_ : Agent) (r : Nat) (v : Word64)
  /-- CLAIM_TRY_READ (R161) -/
  | claimTryRead (fn : Nat) (r : Nat)
  /-- CLAIM_FORCE (R162) -/
  | claimForce (by_ : Agent) (v : Word64)
  /-- VER_OPEN (R174) -/
  | verOpen (by_ : Agent)
  /-- VER_ARM (R177) -/
  | verArm (by_ : Agent)
  /-- VER_ABORT_ALL (R174) -/
  | verAbortAll (by_ : Agent)
  /-- VER_ABORT_OPEN (R174) -/
  | verAbortOpen (by_ : Agent)
  /-- VER_CTL_INVALID (R175) -/
  | verCtlInvalid (by_ : Agent)
  /-- VER_AGREEMENT_CHECK (R182) -/
  | verAgreementCheck
  /-- VER_COMMIT_INSTANT (R180) -/
  | verCommitInstant
  /-- VER_SWEEP_START (R190) -/
  | verSweepStart (reported : Bool)
  /-- VER_RETIRE (R189) -/
  | verRetire
  /-- EPOCH_END (R294) -/
  | epochEnd
  /-- SEAL_SIGNED (R296) -/
  | sealSigned (ok : Bool)
  /-- WIT_STOP (R305) -/
  | witStop (by_ : Agent)
  /-- WIT_START (R289) -/
  | witStart (by_ : Agent)
  /-- RING_UNIT_WRITE (R298) -/
  | ringUnitWrite (reads : List Nat)
  /-- PUSH_EXPORT_UNIT (R301) -/
  | pushExportUnit (errs : List (Nat×Nat))
  /-- PUSH_HEAD_WRITE (R301) -/
  | pushHeadWrite (by_ : Agent) (i : Nat) (v : Word64)
  /-- PULL_HEAD_WRITE (R302) -/
  | pullHeadWrite (by_ : Agent) (v : Word64)
  /-- EXPORT_FRAME_TRANSMIT (R303) -/
  | exportFrameTransmit (j : Nat) (errs : List (Nat×Nat))
  /-- TOW_PORT_CFG_WRITE (R310) -/
  | towPortCfgWrite (by_ : Agent) (p : Nat) (v : Word64)
  /-- TOWPATH_DATA_RECEIVE (R316) -/
  | towpathDataReceive (p : Nat) (bytes : Bytes)
  /-- MEMBERSHIP_FRAME_SEND (R327) -/
  | membershipFrameSend
  /-- MEMBERSHIP_FRAME_RECEIVE (R327) -/
  | membershipFrameReceive (p : Nat) (bytes : Bytes)
  /-- TIME_FRAME_SEND (R320) -/
  | timeFrameSend (p : Nat) (lane : Nat) (d : Nat) (n : Nat)
  /-- TIME_FRAME_RECEIVE (R321) -/
  | timeFrameReceive (p : Nat) (bytes : Bytes) (lane : Nat) (d : Nat) (phi : Int) (n : Nat)
  /-- ANCHOR_FRAME_RECEIVE (R336) -/
  | anchorFrameReceive (p : Nat) (bytes : Bytes)
  /-- MEMBER_TIMEOUT (R328) -/
  | memberTimeout (i : Nat)
  /-- TOW_FREQ_CHECK (R311) -/
  | towFreqCheck (p : Nat) (diff : Int)
  /-- TOW_HEAL (R332) -/
  | towHeal (by_ : Agent) (v : Word64)
  /-- REJOIN_INSTANT (R335) -/
  | rejoinInstant
  /-- SEC_READY (R345) -/
  | secReady (calOk : Bool)
  /-- ENV_FAILURE (R343) -/
  | envFailure
  /-- PERIODIC_SELFTEST (R346) -/
  | periodicSelftest
  /-- SELFTEST_DONE (R346) -/
  | selftestDone (failed : Option Nat)
  /-- SELFTEST_RETRY (R346) -/
  | selftestRetry
  /-- NONCE (R352) -/
  | nonce (by_ : Agent) (arg : Nat)
  /-- SEC_OPEN (R357) -/
  | secOpen (by_ : Agent) (arg : Nat)
  /-- SEC_CLOSE (R358) -/
  | secClose (by_ : Agent) (arg : Nat)
  /-- OWNER_INSTALL (R353) -/
  | ownerInstall (by_ : Agent) (arg : Nat)
  /-- OWNER_RELEASE (R354) -/
  | ownerRelease (by_ : Agent) (arg : Nat)
  /-- LDEV_GEN (R355) -/
  | ldevGen (by_ : Agent) (arg : Nat)
  /-- LDEV_INSTALL (R355) -/
  | ldevInstall (by_ : Agent) (arg : Nat) (certOk : Bool)
  /-- SELFTEST (R346) -/
  | selftest (by_ : Agent) (arg : Nat)
  /-- ZEROISE (R352) -/
  | zeroise (by_ : Agent) (arg : Nat)
  /-- PROT_COMMIT (R362) -/
  | protCommit (by_ : Agent) (arg : Nat)
  /-- SEC_OP_BAD_OP (R352) -/
  | secOpBadOp (by_ : Agent) (op : Nat) (arg : Nat)
  /-- NONCE_EXPIRY (R357) -/
  | nonceExpiry
  /-- LOCKOUT_EXPIRY (R357) -/
  | lockoutExpiry
  /-- SESSION_IDLE_TIMEOUT (R358) -/
  | sessionIdleTimeout
  /-- ATTEST_GO (R364) -/
  | attestGo (by_ : Agent)
  /-- PCIE_LINK_CHANGE (R394) -/
  | pcieLinkChange (up : Bool) (hotReset : Bool) (speed : Nat) (width : Nat) (flit : Bool)
  /-- PERST_N_ASSERT (R488) -/
  | perstNAssert
  /-- FUNCTION_LEVEL_RESET (R394) -/
  | functionLevelReset (fn : Nat)
  /-- D3HOT_ENTRY (R393) -/
  | d3hotEntry (fn : Nat)
  /-- D0_RETURN (R409) -/
  | d0Return (fn : Nat)
  /-- DMA_ENABLE (R395) -/
  | dmaEnable (by_ : Agent) (c : Nat) (v : Word64)
  /-- DMA_DESC_TAIL_WRITE (R396) -/
  | dmaDescTailWrite (by_ : Agent) (c : Nat) (v : Word64)
  /-- PROC_COPY_DMA (R397) -/
  | procCopyDma (id : Nat) (reason : Nat) (desc : Bytes)
  /-- FRAME_INJECT (R398) -/
  | frameInject (c : Nat) (desc : Bytes) (frame : Bytes)
  /-- DMA_COMPLETION (R396) -/
  | dmaCompletion (c : Nat)
  /-- DMA_ERROR (R399) -/
  | dmaError (c : Nat) (code : Nat)
  /-- SOURCE_ASSERT (R444) -/
  | sourceAssert (n : Nat) (payload : Nat)
  /-- EVQ_CLAIM (R405) -/
  | evqClaim (q : Nat) (parity : Bool)
  /-- EVQ_RECORD_WRITE (R406) -/
  | evqRecordWrite (q : Nat)
  /-- EVQ_ARM (R408) -/
  | evqArm (by_ : Agent) (q : Nat) (v : Word64)
  /-- EVQ_ENABLE (R411) -/
  | evqEnable (by_ : Agent) (q : Nat) (v : Word64)
  /-- MSIX_SEND (R408) -/
  | msixSend (q : Nat)
  /-- KEEPER_INTERRUPT (R410) -/
  | keeperInterrupt (k : Nat) (served : Bool)
  /-- HBM_REFRESH (R419) -/
  | hbmRefresh (pc : Nat) (n : Nat) (temp : Nat)
  /-- SELF_REFRESH_ENTRY (R421) -/
  | selfRefreshEntry (k : Nat)
  /-- SELF_REFRESH_EXIT (R421) -/
  | selfRefreshExit (k : Nat)
  /-- HBM_PATROL (R422) -/
  | hbmPatrol (line : Nat) (err : Nat)
  /-- CAPTURE_WRITE (R424) -/
  | captureWrite (reads : List Nat)
  /-- SCP_HOST_WRITE (R428) -/
  | scpHostWrite (fn : Nat) (a : Nat) (v : Word64) (waits : Nat)
  /-- SCP_HANDOVER_START (R429) -/
  | scpHandoverStart (by_ : Agent) (b : Nat) (v : Word64)
  /-- SCP_HANDOVER_DONE (R429) -/
  | scpHandoverDone (b : Nat)
  /-- MARCH_TEST (R432) -/
  | marchTest (fails : List Nat) (taken : List Nat) (retest : List Nat)
  /-- KEEPER_CMD_WRITE (R464) -/
  | keeperCmdWrite (by_ : Agent) (k : Nat) (v : Word64) (poison : Bool)
  /-- KPR_WATCHDOG (R464) -/
  | kprWatchdog (k : Nat)
  /-- CHIP_REACTION (R445) -/
  | chipReaction
  /-- FAULT_QUIET_EXPIRY (R446) -/
  | faultQuietExpiry (n : Nat)
  /-- STICKY_CLEAR (R446) -/
  | stickyClear (by_ : Agent) (j : Nat) (v : Word64)
  /-- PAIR_BREAK (R448) -/
  | pairBreak (n : Nat)
  /-- LANTERN_MISMATCH (R449) -/
  | lanternMismatch (pos : Bool) (neg : Bool)
  /-- LANTERN_TEST (R450) -/
  | lanternTest (by_ : Agent) (v : Word64)
  /-- LANTERN_TEST_END (R450) -/
  | lanternTestEnd
  /-- FLT_INJECT (R451) -/
  | fltInject (by_ : Agent) (v : Word64)
  /-- FACTORY_TEST_ENTRY (R451) -/
  | factoryTestEntry (enter : Bool) (unlock : Bool)
  /-- JTAG_INSTRUCTION (R494) -/
  | jtagInstruction (i : TapInstr)
  /-- FERRY_ENTER_REQUEST (R452) -/
  | ferryEnterRequest (by_ : Agent) (v : Word64)
  /-- FERRY_PATH (R455) -/
  | ferryPath (port : Nat) (lane : Nat) (d : Nat) (phi : Int) (n : Nat) (bytes : Bytes) (err : Bool)
  /-- FERRY_QUIET_EXPIRY (R457) -/
  | ferryQuietExpiry
  /-- FERRY_RELEASE (R457) -/
  | ferryRelease (by_ : Agent) (v : Word64)
  /-- CANDLE_MEASURE (R460) -/
  | candleMeasure (readings : List (Nat × Nat × Nat × Nat)) (replicas : List Nat)
  /-- EYE_SCAN (R460) -/
  | eyeScan (l : Nat) (mui : Nat)
  /-- REPLAN (R461) -/
  | replan (remain : Nat) (remain95 : Nat)
  /-- REPLAN_REQUEST (R461) -/
  | replanRequest (by_ : Agent) (v : Word64)
  /-- AVS_STEP (R484) -/
  | avsStep (ack : Bool)
  /-- TJ_HIGH (R463) -/
  | tjHigh (i : Nat) (temp : Nat)
  /-- SNAP_ARM (R471) -/
  | snapArm (by_ : Agent) (v : Word64)
  /-- SNAP_CANCEL (R471) -/
  | snapCancel (by_ : Agent) (v : Word64)
  /-- SNAP_INSTANT (R472) -/
  | snapInstant
  /-- SNAP_WRITE (R473) -/
  | snapWrite (addr : Nat) (len : Nat) (dmaError : Nat)
  /-- SAMPLER_OVERFLOW (R477) -/
  | samplerOverflow (i : Nat)
  /-- SAMPLE_TAKE (R477) -/
  | sampleTake (i : Nat) (id : Option Nat)
  /-- SAMPLER_CFG_WRITE (R477) -/
  | samplerCfgWrite (by_ : Agent) (i : Nat) (v : Word64)
  /-- SMBUS_READ (R493) -/
  | smbusRead (code : Nat)
  /-- HOST_READ (R392) -/
  | hostRead (fn : Nat) (bar : Nat) (off : Nat) (len : Nat) (ecc : List Nat)
  /-- PCIE_CONFIG_WRITE (R390) -/
  | pcieConfigWrite (fn : Nat) (vfs : Option Nat) (busMaster : Bool) (pmeEn : Bool)
  /-- PPS_OUT_EDGE (R47) -/
  | ppsOutEdge (i : Nat) (rising : Bool)
  /-- SEC_OP_COMPLETE (R348) -/
  | secOpComplete (ok : Bool) (cert : Option Bytes)
  /-- ATTEST_REPORT_DONE (R364) -/
  | attestReportDone
  /-- L1_2_ENTRY (R393) -/
  | l12Entry
  deriving DecidableEq, Repr

end Sys2Proof
end

