-- ==== Sys2Proof/Config.lean ====
section
/-! DEFINITION. What the spec leaves open: free values, and the outcomes of the asymmetric cryptography that only the
keys decide. Nothing here has a body that a proof could use. -/
namespace Sys2Proof.Config

/-- A fresh value the spec does not state, for the `n`-th time one is taken (log entry 4). -/
opaque freeNat : Nat → Nat

/-- The ECDSA P-384 signature the module makes over a digest with key `k` (0 the unit key, 1 the LDevID key), for the
`n`-th value taken: the per-signature value comes from the DRBG (Table SEC-1). -/
opaque ecdsaSign : Nat → Nat → BitVec 384 → BitVec 768

/-- The public key of the LDevID key pair derived for an owner identifier and OWNER_SEQ (R349). -/
opaque ldevKey : BitVec 128 → Nat → BitVec 768

/-- The DER certificates the factory gives the unit: 0 unit, 1 Dalol production CA, 2 Cihorn root, 3 Cihorn code-signing CA
(R349 to R351). -/
opaque certDer : Nat → Bytes

/-- The module firmware version (Table SEC-9). -/
opaque moduleVersion : BitVec 32

/-- The bank within its pseudo-channel, from A[35:14] and A[7:0] of a DRAM byte address: the fixed map no interface exposes (R414). -/
opaque dramBank : Nat → Nat → Nat

/-- The row within its bank, from A[35:14] and A[7:0] of a DRAM byte address (R414). -/
opaque dramRow : Nat → Nat → Nat

end Sys2Proof.Config
end

