-- ==== Sys2Proof/Machine/Bits.lean ====
section
/-! DEFINITION. Bit fields of numbers, byte strings, signed values, instants of device time, and the operations on the
sorted sparse tables of State. -/
namespace Sys2Proof.Machine

/-! ## Bit fields (R5: `[hi:lo]`, bit 0 least significant) -/

/-- Bits `[hi:lo]` of `v`. -/
def bits (v hi lo : Nat) : Nat := (v >>> lo) % 2 ^ (hi + 1 - lo)

/-- Bit `i` of `v`. -/
def bitOf (v i : Nat) : Bool := (v >>> i) % 2 == 1

/-- `v` with bits `[hi:lo]` replaced by the low bits of `x`. -/
def putBits (v hi lo x : Nat) : Nat :=
  v - (bits v hi lo <<< lo) + ((x % 2 ^ (hi + 1 - lo)) <<< lo)

/-- 1 for true. -/
def b2n (b : Bool) : Nat := if b then 1 else 0

/-- The two's complement reading of the low `w` bits of `v` (R6). -/
def asInt (w v : Nat) : Int :=
  let u := v % 2 ^ w
  if u < 2 ^ (w - 1) then (u : Int) else (u : Int) - (2 ^ w : Nat)

/-- The `w`-bit two's complement code of `i`, wrapping (R6, R7). -/
def ofIntW (w : Nat) (i : Int) : Nat := (i % ((2 ^ w : Nat) : Int)).toNat

/-- `i` limited to what a signed `w`-bit field holds. -/
def satInt (w : Nat) (i : Int) : Int :=
  if i < -((2 ^ (w - 1) : Nat) : Int) then -((2 ^ (w - 1) : Nat) : Int)
  else if i > ((2 ^ (w - 1) : Nat) : Int) - 1 then ((2 ^ (w - 1) : Nat) : Int) - 1 else i

/-- `v` limited to `[lo, hi]`: a value outside is taken as the nearer limit. -/
def clamp (lo hi v : Nat) : Nat := if v < lo then lo else if hi < v then hi else v

/-- Division rounded up. -/
def ceilDiv (a b : Nat) : Nat := (a + b - 1) / b

/-- Division rounded to nearest, halves upward. -/
def roundDiv (a b : Nat) : Nat := (2 * a + b) / (2 * b)

/-- The same for a signed numerator: floor of `a / b + 1/2`. -/
def roundDivInt (a : Int) (b : Nat) : Int := (2 * a + (b : Int)) / (2 * (b : Int))

/-- The number of bits of `v` that are 1, among its low `n`. -/
def popCount : Nat → Nat → Nat
  | 0, _ => 0
  | n + 1, v => v % 2 + popCount n (v / 2)

/-! ## Byte strings -/

/-- `v` as `n` little-endian bytes (R6). -/
def le : Nat → Nat → Bytes
  | 0, _ => []
  | n + 1, v => BitVec.ofNat 8 v :: le n (v / 256)

/-- `v` as `n` big-endian bytes. -/
def be (n v : Nat) : Bytes := (le n v).reverse

/-- The little-endian value of a byte string. -/
def leNat : Bytes → Nat
  | [] => 0
  | b :: bs => b.toNat + 256 * leNat bs

/-- The big-endian value of a byte string. -/
def beNat (bs : Bytes) : Nat := bs.foldl (fun a b => 256 * a + b.toNat) 0

/-- `n` zero bytes. -/
def zeros (n : Nat) : Bytes := List.replicate n 0

/-- Byte `i`, zero beyond the end. -/
def byteAt (bs : Bytes) (i : Nat) : Nat := (bs.getD i 0).toNat

/-- `n` bytes from byte `i`, zero beyond the end. -/
def sub (bs : Bytes) (i n : Nat) : Bytes :=
  let t := (bs.drop i).take n
  t ++ zeros (n - t.length)

/-- The little-endian value of `n` bytes from byte `i`. -/
def leAt (bs : Bytes) (i n : Nat) : Nat := leNat (sub bs i n)

/-- `bs` with `new` written from byte `i`. -/
def patch (bs : Bytes) (i : Nat) (new : Bytes) : Bytes :=
  bs.take i ++ zeros (i - bs.length) ++ new ++ bs.drop (i + new.length)

/-- The bytes of an ASCII text. -/
def ascii (t : String) : Bytes := t.toList.map (fun c => BitVec.ofNat 8 c.toNat)

/-- Whether every byte is zero. -/
def allZero (bs : Bytes) : Bool := bs.all (· == 0)

/-! ## Sparse tables -/

/-- The value at index `k`, if listed. -/
def mfind {α : Type} : SMap α → Nat → Option α
  | [], _ => none
  | (i, v) :: t, k => if i = k then some v else mfind t k

/-- The table with index `k` listed as `v`. -/
def mput {α : Type} : SMap α → Nat → α → SMap α
  | [], k, v => [(k, v)]
  | (i, w) :: t, k, v =>
    if k < i then (k, v) :: (i, w) :: t else if k = i then (k, v) :: t else (i, w) :: mput t k v

/-- The table with index `k` not listed. -/
def mdel {α : Type} : SMap α → Nat → SMap α
  | [], _ => []
  | (i, w) :: t, k => if i = k then mdel t k else (i, w) :: mdel t k

/-- The value at `k`, where an unlisted index reads `d`. -/
def mget {α : Type} (d : α) (m : SMap α) (k : Nat) : α := (mfind m k).getD d

/-- The table with `v` at `k`, where an unlisted index reads `d`: writing `d` takes the entry out. -/
def mset {α : Type} [DecidableEq α] (d : α) (m : SMap α) (k : Nat) (v : α) : SMap α :=
  if v = d then mdel m k else mput m k v

/-- The canonical form: indices strictly rising. -/
def mwf {α : Type} : SMap α → Bool
  | [] => true
  | [_] => true
  | (i, _) :: (j, w) :: t => decide (i < j) && mwf ((j, w) :: t)

/-- The canonical form of a table whose unlisted indices read `d`: rising, and nothing listed that reads `d` anyway. -/
def mwfD {α : Type} [DecidableEq α] (d : α) (m : SMap α) : Bool := mwf m && m.all (fun e => decide (e.2 ≠ d))

/-! ## Device time (R39 to R41) -/

/-- One second in units of 2^-16 ns. -/
def second : Nat := 1000000000 * 65536

/-- One microsecond in units of 2^-16 ns. -/
def microsecond : Nat := 1000 * 65536

/-- One millisecond in units of 2^-16 ns. -/
def millisecond : Nat := 1000000 * 65536

/-- What happens once a `span` is due at `now`: it has not happened yet, or it did last at `last`, a span or more before. -/
def isDue (last : Option Stamp) (span now : Nat) : Bool :=
  match last with
  | some t => decide (t + span ≤ now)
  | none => true

/-- The D96 code of an instant (Table TIME-1). -/
def d96 (t : Stamp) : Nat :=
  ((t / second) % 2 ^ 48) <<< 48 ||| ((t % second) / 65536) <<< 16 ||| (t % 65536)

/-- The instant a D96 code names; `none` where its nanoseconds field is above 999,999,999. -/
def ofD96 (v : Nat) : Option Stamp :=
  if bits v 47 16 < 1000000000 then some (bits v 95 48 * second + bits v 47 16 * 65536 + bits v 15 0) else none

/-- The D64 code of an instant from base second `b` (R41). -/
def d64 (b : Nat) (t : Stamp) : Nat :=
  let ns := (t / 65536 : Nat)
  (((ns + 2 ^ 48 - (b * 1000000000) % 2 ^ 48) % 2 ^ 48) <<< 16) ||| (t % 65536)

/-- The base second of an event record (R402). -/
def eventBase (t : Stamp) : Nat := (t / second) - (t / second) % 65536

/-- Rounding of a stamp to 2^-6 ns, halves upward (R40, R56). -/
def roundStamp (t : Int) : Stamp := ((roundDivInt t 1024) * 1024).toNat

/-- The UB code of a half-width whose square, in ps², is `w2`: the least code whose 25 ps multiple reaches it, or 0xFF
(R60). -/
def ubOfSquare (w2 : Nat) : Nat :=
  ((List.range 255).find? (fun c => decide (w2 ≤ (25 * c) * (25 * c)))).getD 255

/-- The UB code of the root of the sum of two squares, in ps (R60). -/
def ubCode (a b : Nat) : Nat := ubOfSquare (a * a + b * b)

end Sys2Proof.Machine
end

