-- ==== Sys2Proof/Machine/Hash.lean ====
section
/-! DEFINITION. The published functions the spec names: SHA-256 and SHA-384 (FIPS 180-4, Table SEC-1), SipHash-2-4
(R283) and the CRC-32C of the bucket hash (R144). The spec cites them and does not restate them: see log entry 6. -/
namespace Sys2Proof.Machine

/-! ## SHA-256 and SHA-384

Both are one function of a word length. Their constants are taken from the standard's own account of them: the leading
fraction bits of square and cube roots of the first primes. -/

/-- The first 80 primes. -/
def smallPrimes : List Nat :=
  (List.range 410).filter (fun n => decide (1 < n) && (List.range 19).all (fun k => n == k + 2 || n % (k + 2) != 0))

/-- The largest `r` with `r ^ k ≤ n` that has the bits of `r` and any of the `b` bits below, found from the highest down. -/
def rootFrom (k n : Nat) : Nat → Nat → Nat
  | 0, r => r
  | b + 1, r => rootFrom k n b (if (r + 2 ^ b) ^ k ≤ n then r + 2 ^ b else r)

/-- The first 64 bits of the fraction of the `k`-th root of `p`. -/
def rootFrac (k p : Nat) : Nat := rootFrom k (p * 2 ^ (64 * k)) 69 0 % 2 ^ 64

/-- What distinguishes one function of the family: its word length in bits, its number of rounds, and the rotation counts of
its four sigma functions, a σ's last count being a shift. -/
structure ShaKind where
  width : Nat
  rounds : Nat
  counts : Fin 4 → List Nat

/-- The top `width` bits of a 64-bit fraction. -/
def ShaKind.cut (f : ShaKind) (x : Nat) : Nat := x / 2 ^ (64 - f.width)

/-- The round constants: cube roots. -/
def ShaKind.constants (f : ShaKind) : List Nat := (smallPrimes.take f.rounds).map (fun p => f.cut (rootFrac 3 p))

/-- Sigma function number `i` of a word: Σ0, Σ1, σ0, σ1. -/
def ShaKind.sigma (f : ShaKind) (i : Fin 4) (x : Nat) : Nat :=
  let turned (n : Nat) : Nat := (x * (2 ^ f.width + 1) / 2 ^ n) % 2 ^ f.width
  match f.counts i with
  | [m, n, k] => turned m ^^^ turned n ^^^ (if 2 ≤ i.val then x / 2 ^ k else turned k)
  | _ => 0

/-- The message filled up to whole blocks of sixteen words: a one bit, zeros, and its length in bits. -/
def ShaKind.padded (f : ShaKind) (m : Bytes) : Bytes :=
  let blk := 2 * f.width
  let tail := f.width / 4
  m ++ [0x80] ++ zeros ((blk - (m.length + 1 + tail) % blk) % blk) ++ be tail (8 * m.length)

/-- A byte string cut into pieces of `n` bytes, `k` of them. -/
def pieces (n : Nat) : Nat → Bytes → List Bytes
  | 0, _ => []
  | k + 1, bs => bs.take n :: pieces n k (bs.drop n)

/-- One round with the constant `c`. The pair holds the working words a to h and the sixteen schedule words still ahead; the
round consumes the first of these and appends the one sixteen places on. -/
def ShaKind.round (f : ShaKind) (s : List Nat × List Nat) (c : Nat) : List Nat × List Nat :=
  let v (i : Nat) : Nat := s.1.getD i 0
  let w (i : Nat) : Nat := s.2.getD i 0
  let choose := (v 4 &&& v 5) ||| ((2 ^ f.width - 1 - v 4) &&& v 6)
  let most := (v 0 &&& (v 1 ||| v 2)) ||| (v 1 &&& v 2)
  let x := v 7 + f.sigma 1 (v 4) + choose + c + w 0
  (((x + f.sigma 0 (v 0) + most) % 2 ^ f.width :: s.1.take 3) ++ ((v 3 + x) % 2 ^ f.width :: (s.1.drop 4).take 3),
    s.2.drop 1 ++ [(w 0 + f.sigma 2 (w 1) + w 9 + f.sigma 3 (w 14)) % 2 ^ f.width])

/-- The hash words after one more block. -/
def ShaKind.absorb (f : ShaKind) (ks h : List Nat) (blk : Bytes) : List Nat :=
  let s := ks.foldl f.round (h, (pieces (f.width / 8) 16 blk).map beNat)
  List.zipWith (fun x y => (x + y) % 2 ^ f.width) h s.1

/-- The eight hash words of a message, from the fractions of the square roots of the primes `from_` to `from_ + 7`. -/
def ShaKind.hash (f : ShaKind) (from_ : Nat) (m : Bytes) : Bytes :=
  let p := f.padded m
  let first := ((smallPrimes.drop from_).take 8).map (fun q => f.cut (rootFrac 2 q))
  ((pieces (2 * f.width) (p.length / (2 * f.width)) p).foldl (f.absorb f.constants) first).flatMap (be (f.width / 8))

/-- SHA-256 of a byte string: 32 bytes. -/
def sha256 (m : Bytes) : Bytes :=
  ShaKind.hash ⟨32, 64, fun i => [[2, 13, 22], [6, 11, 25], [7, 18, 3], [17, 19, 10]].getD i.val []⟩ 0 m

/-- SHA-384 of a byte string: the first 48 bytes of the eight words. -/
def sha384 (m : Bytes) : Bytes :=
  (ShaKind.hash ⟨64, 80, fun i => [[28, 34, 39], [14, 18, 41], [1, 8, 7], [19, 61, 6]].getD i.val []⟩ 8 m).take 48

/-! ## SipHash-2-4 -/

/-- Rotation left of a 64-bit number. -/
def rotl64 (n x : Nat) : Nat := ((x <<< n) % 2 ^ 64) ||| (x >>> (64 - n))

/-- One SipRound on (v0, v1, v2, v3). -/
def sipRound (v : Nat × Nat × Nat × Nat) : Nat × Nat × Nat × Nat :=
  let v0 := (v.1 + v.2.1) % 2 ^ 64
  let v1 := rotl64 13 v.2.1 ^^^ v0
  let v0 := rotl64 32 v0
  let v2 := (v.2.2.1 + v.2.2.2) % 2 ^ 64
  let v3 := rotl64 16 v.2.2.2 ^^^ v2
  let v0 := (v0 + v3) % 2 ^ 64
  let v3 := rotl64 21 v3 ^^^ v0
  let v2 := (v2 + v1) % 2 ^ 64
  let v1 := rotl64 17 v1 ^^^ v2
  let v2 := rotl64 32 v2
  (v0, v1, v2, v3)

/-- Absorbing one 64-bit word. -/
def sipWord (v : Nat × Nat × Nat × Nat) (m : Nat) : Nat × Nat × Nat × Nat :=
  let v := sipRound (sipRound (v.1, v.2.1, v.2.2.1, v.2.2.2 ^^^ m))
  (v.1 ^^^ m, v.2.1, v.2.2.1, v.2.2.2)

/-- SipHash-2-4 with 64-bit output under the key `k0`, `k1` (R283). -/
def sipHash (k0 k1 : Nat) (m : Bytes) : Nat :=
  let v := (0x736f6d6570736575 ^^^ k0, 0x646f72616e646f6d ^^^ k1, 0x6c7967656e657261 ^^^ k0, 0x7465646279746573 ^^^ k1)
  let full := (pieces 8 (m.length / 8) m).map leNat
  let tail := leNat (m.drop (8 * (m.length / 8))) + ((m.length % 256) <<< 56)
  let v := (full ++ [tail]).foldl sipWord v
  let v := (v.1, v.2.1, v.2.2.1 ^^^ 0xff, v.2.2.2)
  let v := sipRound (sipRound (sipRound (sipRound v)))
  v.1 ^^^ v.2.1 ^^^ v.2.2.1 ^^^ v.2.2.2

/-! ## CRC-32C and the frame check sequence -/

/-- Eight steps of a reflected CRC with polynomial `poly`. -/
def crcStep (poly : Nat) : Nat → Nat → Nat
  | 0, c => c
  | n + 1, c => crcStep poly n (if c % 2 = 1 then (c >>> 1) ^^^ poly else c >>> 1)

/-- A reflected 32-bit CRC over bytes from the state `init`, without the final inversion. -/
def crcRun (poly init : Nat) (m : Bytes) : Nat := m.foldl (fun c b => crcStep poly 8 (c ^^^ b.toNat)) init

/-- CRC-32C with initial value `seed` (R144): with seed 0xFFFF_FFFF it is that of RFC 3720. -/
def crc32c (seed : Nat) (m : Bytes) : Nat := crcRun 0x82F63B78 seed m ^^^ 0xFFFFFFFF

/-- The IEEE 802.3 frame check sequence of a frame's bytes, as its four bytes in the order sent. -/
def fcs (m : Bytes) : Bytes := le 4 (crcRun 0xEDB88320 0xFFFFFFFF m ^^^ 0xFFFFFFFF)

end Sys2Proof.Machine
end

