-- ==== Sys2Proof/Machine/Names.lean ====
section
/-! DEFINITION. The numbers of the fault and event sources (R11 and the sources table of each chapter) and of the
counters (R468 and the counters table of each chapter), one name each. -/
namespace Sys2Proof.Machine

/-! ## Sources (R11: block index × 64 + local number) -/
namespace Src
/-- The source of CFG_READY bit `n` (R378). -/
def CFG_READY_BIT (n : Nat) : Nat := n
/-- R74. -/
def TIM_TQ_CHANGE : Nat := 0x080
/-- R74. -/
def TIM_REF_LOST : Nat := 0x081
/-- R74. -/
def TIM_PPS_MISSING : Nat := 0x082
/-- R74. -/
def TIM_WICK_RANGE : Nat := 0x083
/-- R74. -/
def TIM_COPY_ERR : Nat := 0x084
/-- R74. -/
def TIM_CAL_STALE : Nat := 0x085
/-- R74. -/
def TIM_PTP_TX : Nat := 0x086
/-- R74. -/
def TIM_SERVO_LIMIT : Nat := 0x087
/-- R74. -/
def TIM_STEP_REFUSED : Nat := 0x088
/-- R95. -/
def PRT_LINK_CHANGE : Nat := 0x0C0
/-- R95. -/
def PRT_MODE_REJECT : Nat := 0x0C1
/-- R95. -/
def PRT_STOMP : Nat := 0x0C2
/-- R95. -/
def PRT_ALIGN_LOST : Nat := 0x0C3
/-- R95. -/
def SER_CDR_LOSS : Nat := 0x100
/-- R95. -/
def SER_SKEW_RANGE : Nat := 0x101
/-- R95. -/
def SER_EYE_LOW : Nat := 0x102
/-- R133. -/
def PRS_DISPATCH_OVF : Nat := 0x140
/-- R133. -/
def PRS_EXCEPTION : Nat := 0x141
/-- R133. -/
def PRS_LOAD_DONE : Nat := 0x142
/-- R133. -/
def PRS_UCODE_REJECT : Nat := 0x143
/-- R133. -/
def PRS_CS_ECC : Nat := 0x144
/-- R133. -/
def PRS_OVER_BUDGET : Nat := 0x145
/-- R167. -/
def XMT_FULL : Nat := 0x180
/-- R167. -/
def XMT_LEARN : Nat := 0x181
/-- R167. -/
def XMT_LEARN_LOST : Nat := 0x182
/-- R167. -/
def XMT_ECC : Nat := 0x183
/-- R167. -/
def XMT_LOAD_HIGH : Nat := 0x184
/-- R167. -/
def XMT_CFG_REJECT : Nat := 0x185
/-- R167. -/
def TCM_SCRUB_FIX : Nat := 0x1C0
/-- R167. -/
def TCM_SCRUB_UNCORR : Nat := 0x1C1
/-- R167. -/
def TCM_CFG_REJECT : Nat := 0x1C2
/-- R167. -/
def FWD_CMD_DONE : Nat := 0x200
/-- R167. -/
def FWD_CMD_ERR : Nat := 0x201
/-- R167. -/
def FWD_CLAIM_VIOL : Nat := 0x202
/-- R167. -/
def FWD_ECC : Nat := 0x203
/-- R167. -/
def FWD_CLAIM_FORCED : Nat := 0x204
/-- R192. -/
def VER_COMMIT : Nat := 0x240
/-- R192. -/
def VER_REFUSED : Nat := 0x241
/-- R192. -/
def VER_RETIRED : Nat := 0x242
/-- R192. -/
def VER_SHADOW_HELD : Nat := 0x243
/-- R218. -/
def BPM_FREE_ERR : Nat := 0x2C0
/-- R218. -/
def BPM_PTR : Nat := 0x2C1
/-- R218. -/
def BPM_LEAK : Nat := 0x2C2
/-- R218. -/
def BPM_RING_ECC : Nat := 0x2C3
/-- R218. -/
def BPM_POOL_LOW : Nat := 0x2C4
/-- R218. -/
def QUE_CFG_REJECT : Nat := 0x2C5
/-- R247. -/
def MTR_CFG_REJECT : Nat := 0x280
/-- R247. -/
def MTR_ECC : Nat := 0x281
/-- R247. -/
def SCH_CFG_REJECT : Nat := 0x300
/-- R247. -/
def SCH_GATE_REJECT : Nat := 0x301
/-- R247. -/
def SCH_NEVER_FITS : Nat := 0x302
/-- R247. -/
def SCH_PFC_LONG : Nat := 0x303
/-- R276. -/
def LCK_CFG_REJECT : Nat := 0x340
/-- R276. -/
def LCK_LATE : Nat := 0x341
/-- R276. -/
def LCK_OUT_OF_ORDER : Nat := 0x342
/-- R276. -/
def LCK_PARITY : Nat := 0x343
/-- R307. -/
def WIT_GAP : Nat := 0x380
/-- R307. -/
def WIT_RING_FULL : Nat := 0x381
/-- R307. -/
def WIT_PANIC : Nat := 0x382
/-- R307. -/
def WIT_SEAL : Nat := 0x383
/-- R307. -/
def WIT_SEAL_FAIL : Nat := 0x384
/-- R307. -/
def WIT_STAGING_PAR : Nat := 0x385
/-- R307. -/
def WIT_RING_ECC : Nat := 0x386
/-- R307. -/
def WIT_EXPORT : Nat := 0x387
/-- R307. -/
def WIT_MERGED : Nat := 0x388
/-- R339. -/
def TOW_STATE_CHANGE : Nat := 0x3C0
/-- R339. -/
def TOW_PEER_CHANGE : Nat := 0x3C1
/-- R339. -/
def TOW_CFG_REJECT : Nat := 0x3C2
/-- R339. -/
def TOW_CFG_MISMATCH : Nat := 0x3C3
/-- R339. -/
def TOW_SYSID_CONFLICT : Nat := 0x3C4
/-- R339. -/
def TOW_DELAY_JUMP : Nat := 0x3C5
/-- R339. -/
def TOW_FREQ_MISMATCH : Nat := 0x3C6
/-- R339. -/
def TOW_MASTER_CHANGE : Nat := 0x3C7
/-- R339. -/
def TOW_SYSD_SHORT : Nat := 0x3C8
/-- R366. -/
def SEC_READY_CHANGE : Nat := 0x040
/-- R366. -/
def SEC_SELFTEST_FAIL : Nat := 0x041
/-- R366. -/
def SEC_DENIED : Nat := 0x042
/-- R366. -/
def SEC_SESSION : Nat := 0x043
/-- R366. -/
def SEC_AUTH_FAIL : Nat := 0x044
/-- R366. -/
def SEC_OWNER_CHANGE : Nat := 0x045
/-- R366. -/
def SEC_PROT_CHANGE : Nat := 0x046
/-- R366. -/
def SEC_ATTEST_DONE : Nat := 0x047
/-- R386. -/
def CFG_LIVE_WRITE : Nat := 0x020
/-- R386. -/
def CFG_LOAD_FAIL : Nat := 0x021
/-- R386. -/
def CFG_EARLY_WRITE : Nat := 0x022
/-- R386. -/
def CFG_NVM_DONE : Nat := 0x023
/-- R386. -/
def CFG_BOOT_FALLBACK : Nat := 0x024
/-- R412. -/
def EVQ_OVERFLOW : Nat := 0x480
/-- R412. -/
def EVQ_OVERFLOW_SEEN : Nat := 0x481
/-- R412. -/
def EVQ_CFG_REJECT : Nat := 0x482
/-- R412. -/
def HIF_LINK_CHANGE : Nat := 0x5C0
/-- R412. -/
def HIF_DMA_CPL : Nat := 0x5C1
/-- R412. -/
def HIF_DMA_ERR : Nat := 0x5C2
/-- R412. -/
def HIF_PM_CHANGE : Nat := 0x5C3
/-- R412. -/
def HIF_FLR : Nat := 0x5C4
/-- R440. -/
def HBM_ECC_UNCORR : Nat := 0x400
/-- R440. -/
def HBM_TEMP_HIGH : Nat := 0x401
/-- R440. -/
def HBM_CFG_REJECT : Nat := 0x402
/-- R440. -/
def HBM_REFRESH_LATE : Nat := 0x403
/-- R440. -/
def SCP_OWN_VIOL : Nat := 0x440
/-- R440. -/
def SCP_HANDOVER : Nat := 0x441
/-- R440. -/
def SCP_ECC : Nat := 0x442
/-- R440. -/
def SCP_MARCH_FAIL : Nat := 0x443
/-- R440. -/
def SCP_FIFO_PAR : Nat := 0x444
/-- R466. -/
def FLT_PAIR_BREAK : Nat := 0x500
/-- R466. -/
def FLT_PLL_LOSS : Nat := 0x501
/-- R466. -/
def FLT_FERRY : Nat := 0x502
/-- R466. -/
def FLT_LANTERN_MISMATCH : Nat := 0x503
/-- R466. -/
def FLT_FERRY_REQ : Nat := 0x504
/-- R466. -/
def CND_REPLAN : Nat := 0x540
/-- R466. -/
def CND_LIFE_LOW : Nat := 0x541
/-- R466. -/
def CND_VMAX : Nat := 0x542
/-- R466. -/
def CND_TJ_HIGH : Nat := 0x543
/-- R466. -/
def CND_MEAS_FAIL : Nat := 0x544
/-- R466. -/
def KPR_WATCHDOG : Nat := 0x580
/-- R466. -/
def KPR_CMD_OVERRUN : Nat := 0x581
/-- R466. -/
def KPR_ECC : Nat := 0x582
/-- R480. -/
def PMC_SNAP_DONE : Nat := 0x4C0
/-- R480. -/
def PMC_SNAP_FAIL : Nat := 0x4C1
/-- R480. -/
def PMC_SAMPLE : Nat := 0x4C2
/-- R480. -/
def PMC_SAMPLE_OVF : Nat := 0x4C3
/-- The spurious number (R11). -/
def SPURIOUS : Nat := 0xFFF
end Src

/-! ## Counters (R468: block index × 2^19 + local index) -/
namespace Ctr
/-- R507, kept per port. -/
def PRT_RX_RUNT (i : Nat) : Nat := 0x180000 + i
/-- R507, kept per port. -/
def PRT_RX_OVERSIZE (i : Nat) : Nat := 0x180202 + i
/-- R507, kept per port. -/
def PRT_RX_ERR (i : Nat) : Nat := 0x180404 + i
/-- R507, kept per port. -/
def PRT_RX_DISCARD (i : Nat) : Nat := 0x180606 + i
/-- R507, kept per port. -/
def PRT_STOMP_TX (i : Nat) : Nat := 0x180808 + i
/-- R507, kept per port. -/
def PRT_EGR_DOWN_DROP (i : Nat) : Nat := 0x180A0A + i
/-- R134, kept per slice. -/
def PRS_DISPATCHED (i : Nat) : Nat := 0x280000 + i
/-- R134, kept per slice. -/
def PRS_DISPATCH_DROP (i : Nat) : Nat := 0x280010 + i
/-- R134, kept per slice. -/
def PRS_CYCLES (i : Nat) : Nat := 0x280020 + i
/-- R134, kept per slice. -/
def PRS_EXC (k : Nat) (i : Nat) : Nat := 0x280030 + 16 * (k - 2) + i
/-- R134, kept per slice. -/
def PRS_TRAP (k : Nat) (i : Nat) : Nat := 0x280110 + 16 * k + i
/-- R134, kept per slice. -/
def PRS_SPURIOUS (i : Nat) : Nat := 0x280150 + i
/-- R134, kept per slice. -/
def PRS_SAMPLE_LOST (i : Nat) : Nat := 0x280160 + i
/-- R134, kept per slice. -/
def PRS_MSG_ORDER (i : Nat) : Nat := 0x280170 + i
/-- R134, kept per slice. -/
def PRS_CS_CORRECTED (i : Nat) : Nat := 0x280180 + i
/-- R168, kept per partition. -/
def XMT_LOOKUP (i : Nat) : Nat := 0x300000 + i
/-- R168, kept per partition. -/
def XMT_HIT (i : Nat) : Nat := 0x300010 + i
/-- R168, kept per partition. -/
def XMT_STASH_HIT (i : Nat) : Nat := 0x300020 + i
/-- R168, kept per partition. -/
def XMT_INSERT_OK (i : Nat) : Nat := 0x300030 + i
/-- R168, kept per partition. -/
def XMT_INSERT_FAIL (i : Nat) : Nat := 0x300040 + i
/-- R168, kept per partition. -/
def XMT_EXISTS (i : Nat) : Nat := 0x300050 + i
/-- R168, kept per partition. -/
def XMT_MOVES (i : Nat) : Nat := 0x300060 + i
/-- R168, kept per device. -/
def XMT_LEARN_NOTICE : Nat := 0x300070
/-- R168, kept per device. -/
def XMT_LEARN_FILTERED : Nat := 0x300071
/-- R168, kept per device. -/
def XMT_LEARN_LOST : Nat := 0x300072
/-- R168, kept per group. -/
def TCM_SEARCH (i : Nat) : Nat := 0x380000 + i
/-- R168, kept per group. -/
def TCM_HIT (i : Nat) : Nat := 0x380010 + i
/-- R168, kept per group. -/
def TCM_BANKS (i : Nat) : Nat := 0x380020 + i
/-- R168, kept per group. -/
def TCM_SEL_RANGE (i : Nat) : Nat := 0x380030 + i
/-- R168, kept per group. -/
def TCM_SCRUB_FIX (i : Nat) : Nat := 0x380040 + i
/-- R168, kept per key set. -/
def FWD_MISS (i : Nat) : Nat := 0x400000 + i
/-- R168, kept per key set. -/
def FWD_MISS_FLOOD (i : Nat) : Nat := 0x400010 + i
/-- R168, kept per key set. -/
def FWD_DROP (i : Nat) : Nat := 0x400020 + i
/-- R168, kept per key set. -/
def FWD_CPU (i : Nat) : Nat := 0x400030 + i
/-- R168, kept per key set. -/
def FWD_MIRROR (i : Nat) : Nat := 0x400040 + i
/-- R168, kept per device. -/
def FWD_NH_INVALID : Nat := 0x400050
/-- R168, kept per reason. -/
def FWD_CPU_RED (i : Nat) : Nat := 0x400051 + i
/-- R193, kept per device. -/
def VER_COMMITS : Nat := 0x480000
/-- R193, kept per device. -/
def VER_REFUSALS : Nat := 0x480001
/-- R193, kept per device. -/
def VER_SWEEP_INVALIDATED : Nat := 0x480002
/-- R193, kept per device. -/
def VER_STALE_USE : Nat := 0x480003
/-- R193, kept per device. -/
def VER_FOREIGN_RX : Nat := 0x480004
/-- R219, kept per queue. -/
def QUE_ENQ (i : Nat) : Nat := 0x580000 + i
/-- R219, kept per queue. -/
def QUE_DEQ (i : Nat) : Nat := 0x590900 + i
/-- R219, kept per queue. -/
def QUE_DROP_QUEUE (i : Nat) : Nat := 0x5A1200 + i
/-- R219, kept per queue. -/
def QUE_DROP_POOL_LOW (i : Nat) : Nat := 0x5B1B00 + i
/-- R219, kept per slice and pool. -/
def QUE_POOL_EMPTY (i : Nat) : Nat := 0x5C2400 + i
/-- R219, kept per slice. -/
def QUE_HEADROOM_USE (i : Nat) : Nat := 0x5C2440 + i
/-- R219, kept per ingress port. -/
def QUE_LEN_OVER (i : Nat) : Nat := 0x5C2450 + i
/-- R219, kept per slice. -/
def QUE_FREE_REJECT (k : Nat) (i : Nat) : Nat := 0x5C2652 + 16 * k + i
/-- R219, kept per slice. -/
def QUE_PTR_DROP (i : Nat) : Nat := 0x5C2672 + i
/-- R219, kept per slice. -/
def QUE_LEAKS (i : Nat) : Nat := 0x5C2682 + i
/-- R219, kept per slice. -/
def QUE_ORPHANS (i : Nat) : Nat := 0x5C2692 + i
/-- R219, kept per slice. -/
def QUE_RECLAIMED (i : Nat) : Nat := 0x5C26A2 + i
/-- R219, kept per port and class. -/
def QUE_PFC_TX (i : Nat) : Nat := 0x5C26B2 + i
/-- R219, kept per port and class. -/
def QUE_PFC_RX (i : Nat) : Nat := 0x5C36C2 + i
/-- R248, kept per profile. -/
def MTR_GREEN (i : Nat) : Nat := 0x500000 + i
/-- R248, kept per profile. -/
def MTR_YELLOW (i : Nat) : Nat := 0x501000 + i
/-- R248, kept per profile. -/
def MTR_RED (i : Nat) : Nat := 0x502000 + i
/-- R248, kept per profile. -/
def MTR_UNITS (i : Nat) : Nat := 0x503000 + i
/-- R248, kept per device. -/
def MTR_RED_DROP : Nat := 0x504000
/-- R248, kept per port and class. -/
def SCH_GRANTS (i : Nat) : Nat := 0x600000 + i
/-- R248, kept per port and class. -/
def SCH_SHAPER_HOLD (i : Nat) : Nat := 0x601010 + i
/-- R248, kept per port and class. -/
def SCH_GATE_WAIT (i : Nat) : Nat := 0x602020 + i
/-- R248, kept per port and class. -/
def GAT_NEVER_FITS (i : Nat) : Nat := 0x603030 + i
/-- R248, kept per port. -/
def SCH_GATE_OVERRUN (i : Nat) : Nat := 0x604040 + i
/-- R248, kept per port and class. -/
def SCH_PAUSED_NS (i : Nat) : Nat := 0x604242 + i
/-- R277, kept per port and class. -/
def LCK_RELEASED (i : Nat) : Nat := 0x680000 + i
/-- R277, kept per port and class. -/
def LCK_DISPLACED (i : Nat) : Nat := 0x681010 + i
/-- R277, kept per port and class. -/
def LCK_LATE (i : Nat) : Nat := 0x682020 + i
/-- R277, kept per port and class. -/
def LCK_OOO (i : Nat) : Nat := 0x683030 + i
/-- R277, kept per port. -/
def LCK_POISON (i : Nat) : Nat := 0x684040 + i
/-- R277, kept per port. -/
def LCK_STAMP_SKIP (i : Nat) : Nat := 0x684242 + i
/-- R277, kept per egress slice. -/
def FWD_REPL_COPIES (i : Nat) : Nat := 0x400151 + i
/-- R277, kept per device. -/
def FWD_REPL_NONE : Nat := 0x400161
/-- R277, kept per egress slice. -/
def FWD_REPL_NOPORT (i : Nat) : Nat := 0x400162 + i
/-- R277, kept per port. -/
def FWD_REPL_RAISED (i : Nat) : Nat := 0x400172 + i
/-- R308, kept per stream. -/
def WIT_RECORDS (i : Nat) : Nat := 0x700000 + i
/-- R308, kept per stream. -/
def WIT_LOST (k : Nat) (i : Nat) : Nat := 0x700011 + 17 * k + i
/-- R308, kept per stream. -/
def WIT_BLOCKS (i : Nat) : Nat := 0x700066 + i
/-- R308, kept per device. -/
def WIT_SEALS : Nat := 0x700077
/-- R308, kept per device. -/
def WIT_PANIC_NS : Nat := 0x700078
/-- R308, kept per path (push ring, pull, front port). -/
def WIT_EXP_UNITS (i : Nat) : Nat := 0x700079 + i
/-- R340, kept per towpath port. -/
def TOW_TX_DATA (i : Nat) : Nat := 0x780000 + i
/-- R340, kept per towpath port. -/
def TOW_RX_DATA (i : Nat) : Nat := 0x780202 + i
/-- R340, kept per towpath port. -/
def TOW_TRANSIT (i : Nat) : Nat := 0x780404 + i
/-- R340, kept per device. -/
def TOW_HOPS_DROP : Nat := 0x780606
/-- R340, kept per device. -/
def TOW_UNREACH_DROP : Nat := 0x780607
/-- R340, kept per towpath port. -/
def TOW_HB_MISS (i : Nat) : Nat := 0x780608 + i
/-- R340, kept per towpath port. -/
def TOW_TIME_DISCARD (i : Nat) : Nat := 0x78080A + i
/-- R367, kept per role and KIND. -/
def SEC_DENIED_CNT (i : Nat) : Nat := 0x80000 + i
/-- R367, kept per device. -/
def SEC_AUTH_FAILS : Nat := 0x8001C
/-- R367, kept per device. -/
def SEC_SIGNATURES : Nat := 0x8001D
/-- R367, kept per device. -/
def SEC_VERIFICATIONS : Nat := 0x8001E
/-- R367, kept per device. -/
def SEC_SELFTESTS : Nat := 0x8001F
/-- R413, kept per queue. -/
def EVQ_RECORDS (i : Nat) : Nat := 0x900000 + i
/-- R413, kept per queue. -/
def EVQ_LOST (i : Nat) : Nat := 0x900080 + i
/-- R413, kept per queue. -/
def EVQ_MERGED (i : Nat) : Nat := 0x900100 + i
/-- R413, kept per queue. -/
def EVQ_SPURIOUS (i : Nat) : Nat := 0x900180 + i
/-- R413, kept per queue. -/
def EVQ_MSIX (i : Nat) : Nat := 0x900200 + i
/-- R413, kept per queue. -/
def EVQ_PME (i : Nat) : Nat := 0x900280 + i
/-- R413, kept per channel. -/
def HIF_DMA_BYTES (i : Nat) : Nat := 0xB80000 + i
/-- R413, kept per channel. -/
def HIF_CPY_NODESC (i : Nat) : Nat := 0xB80010 + i
/-- R413, kept per channel. -/
def HIF_INJECT_DROP (i : Nat) : Nat := 0xB80020 + i
/-- R441, kept per class of Table MEM-2. -/
def HBM_BYTES (i : Nat) : Nat := 0x800000 + i
/-- R441, kept per stack. -/
def HBM_ROW_HIT (i : Nat) : Nat := 0x800006 + i
/-- R441, kept per stack. -/
def HBM_ROW_MISS (i : Nat) : Nat := 0x800008 + i
/-- R441, kept per stack. -/
def HBM_SR_NS (i : Nat) : Nat := 0x80000A + i
/-- R441, kept per stack. -/
def HBM_ECC_CORR (i : Nat) : Nat := 0x80000C + i
/-- R441, kept per device. -/
def HBM_CAP_ENTRIES : Nat := 0x80000E
/-- R441, kept per device. -/
def HBM_CAP_DROP : Nat := 0x80000F
/-- R441, kept per bank. -/
def SCP_ACCESSES (i : Nat) : Nat := 0x880000 + i
/-- R441, kept per bank. -/
def SCP_ATOMICS (i : Nat) : Nat := 0x880100 + i
/-- R441, kept per master. -/
def SCP_CONFLICT (i : Nat) : Nat := 0x880200 + i
/-- R441, kept per master. -/
def SCP_VIOL (i : Nat) : Nat := 0x880215 + i
/-- R441, kept per device. -/
def SCP_CORRECTED : Nat := 0x88022A
/-- R467, kept per source. -/
def FLT_ASSERTIONS (i : Nat) : Nat := 0xA00000 + i
/-- R467, kept per source. -/
def FLT_RECOVERIES (i : Nat) : Nat := 0xA00600 + i
/-- R467, kept per slice. -/
def FLT_FERRY_FLUSH (i : Nat) : Nat := 0xA00C00 + i
/-- R467, kept per egress port. -/
def FLT_FERRY_FWD (i : Nat) : Nat := 0xA00C10 + i
/-- R467, kept per ingress port. -/
def FLT_FERRY_DROP (i : Nat) : Nat := 0xA00E12 + i
/-- R467, kept per candle. -/
def CND_READINGS (i : Nat) : Nat := 0xA80000 + i
/-- R467, kept per core. -/
def KPR_WDOG_FIRES (i : Nat) : Nat := 0xB00000 + i
/-- R387, kept per ingress port. -/
def CFG_EARLY_DROP (i : Nat) : Nat := 0x0 + i
/-- R387, kept per device. -/
def CFG_EARLY_WRITES : Nat := 0x202
/-- R481, kept per device. -/
def PMC_SNAPSHOTS : Nat := 0x980000
/-- R481, kept per device. -/
def PMC_SKIPPED : Nat := 0x980001
/-- R481, kept per sampler. -/
def PMC_SAMPLES (i : Nat) : Nat := 0x980002 + i
/-- R481, kept per sampler. -/
def PMC_SAMPLE_LOST (i : Nat) : Nat := 0x98000A + i
/-- The number of local indices of block `b` (R468, PMC_BLOCK_SIZE). -/
def blockSize : Nat → Nat
  | 0 => 515
  | 1 => 32
  | 2 => 0
  | 3 => 3084
  | 4 => 0
  | 5 => 400
  | 6 => 115
  | 7 => 80
  | 8 => 884
  | 9 => 5
  | 10 => 16385
  | 11 => 280274
  | 12 => 21074
  | 13 => 17476
  | 14 => 138
  | 15 => 2572
  | 16 => 16
  | 17 => 555
  | 18 => 768
  | 19 => 18
  | 20 => 4116
  | 21 => 96
  | 22 => 4
  | 23 => 48
  | _ => 0
end Ctr

end Sys2Proof.Machine
end

