-- ==== Sys2Proof/Machine/Regs.lean ====
section
/-! DEFINITION. The registers of BAR0 (R499): the offset of each register, the bits of each field, and the table of
which fields a write may change, each from the field table of the register's own chapter. -/
namespace Sys2Proof.Machine

/-- A field: its highest and lowest bit. -/
structure Fld where
  hi : Nat
  lo : Nat
  deriving DecidableEq, Repr

/-- The access codes of Table SCOPE-4 under which a field may be written (a field that is in no table here is RO or
reserved). `act`: an RW field that reads 0 whatever is written to it. -/
inductive Acc where
  | rw | act | w1c | stg | hlt
  deriving DecidableEq, Repr

/-- A writable field: its bits, its code, and whether it is WDN. -/
structure FieldD where
  hi : Nat
  lo : Nat
  acc : Acc
  wdn : Bool
  deriving DecidableEq, Repr

/-- A register or an array of registers: the offset of the first, a (stride, count) pair per index, outermost first,
the reset value, the writable fields, and the bits that belong to a named field, writable or RO. -/
structure RegD where
  base : Nat
  dims : List (Nat × Nat)
  reset : Nat
  fields : List FieldD
  named : Nat
  deriving DecidableEq, Repr

/-- The page of a port or a lane in PRT and SER (R94). -/
def page (x : Nat) : Nat := if x < 512 then 0x1000 * x else 0x800 + 0x1000 * (x - 512)

/-! ## Offsets -/
namespace Reg
/-- R75. -/
def TIM_NOW_LO : Nat := 0x00200000
/-- R75. -/
def TIM_NOW_HI : Nat := 0x00200008
/-- R75. -/
def TIM_STATE : Nat := 0x00200010
/-- R75. -/
def TIM_CTRL : Nat := 0x00200018
/-- R75. -/
def TIM_INCR : Nat := 0x00200020
/-- R75. -/
def TIM_SLEW : Nat := 0x00200028
/-- R75. -/
def TIM_STEP : Nat := 0x00200030
/-- R75. -/
def TIM_TRACK_CFG : Nat := 0x00200038
/-- R75. -/
def TIM_REF_CFG : Nat := 0x00200040
/-- R75. -/
def TIM_TOD_NEXT : Nat := 0x00200048
/-- R75. -/
def TIM_PPS_IN0 : Nat := 0x00200050
/-- R75. -/
def TIM_PPS_IN1 : Nat := 0x00200058
/-- R75. -/
def TIM_PPS_OUT0 : Nat := 0x00200060
/-- R75. -/
def TIM_PPS_OUT1 : Nat := 0x00200068
/-- R75. -/
def TIM_HOLD_COEF : Nat := 0x00200070
/-- R75. -/
def TIM_CAL_CFG : Nat := 0x00200078
/-- R75. -/
def TIM_UTC : Nat := 0x00200080
/-- R75. -/
def TIM_APPLY : Nat := 0x00200088
/-- R75. -/
def TIM_TS_UNC : Nat := 0x00200090
/-- R75. -/
def TIM_PTP_OFS : Nat := 0x00200098
/-- R75. -/
def TIM_LAMP_DLY (q : Nat) : Nat := 0x00210000 + 0x10 * q
/-- R75. -/
def TIM_LAMP_RES (q : Nat) : Nat := 0x00210008 + 0x10 * q
/-- R75. -/
def TIM_CAL_RX (l : Nat) : Nat := 0x00220000 + 0x20 * l
/-- R75. -/
def TIM_CAL_TX (l : Nat) : Nat := 0x00220008 + 0x20 * l
/-- R75. -/
def TIM_CAL_STAT (l : Nat) : Nat := 0x00220010 + 0x20 * l
/-- R75. -/
def TIM_PTP_PORT (p : Nat) : Nat := 0x00230000 + 0x8 * p
/-- R94. -/
def PRT_CFG (p : Nat) : Nat := 0x00400000 + page p
/-- R94. -/
def PRT_STATUS (p : Nat) : Nat := 0x00400008 + page p
/-- R94. -/
def PRT_SLOT (p : Nat) : Nat := 0x00400010 + page p
/-- R94. -/
def PRT_OCTET (o : Nat) : Nat := 0x00400C00 + 0x8000 * o
/-- R94. -/
def PRT_APPLY : Nat := 0x00400FF8
/-- R94. -/
def SER_CFG (l : Nat) : Nat := 0x00600000 + page l
/-- R94. -/
def SER_STATUS (l : Nat) : Nat := 0x00600008 + page l
/-- R94. -/
def SER_SKEW (l : Nat) : Nat := 0x00600010 + page l
/-- R94. -/
def SER_FRAMING (l : Nat) : Nat := 0x00600018 + page l
/-- R132. -/
def PRS_CFG (s : Nat) : Nat := 0x00800000 + 0x10000 * s
/-- R132. -/
def PRS_PORT_PROF_LO (s : Nat) : Nat := 0x00800008 + 0x10000 * s
/-- R132. -/
def PRS_PORT_PROF_HI (s : Nat) : Nat := 0x00800010 + 0x10000 * s
/-- R132. -/
def PRS_MGMT_PROF : Nat := 0x00800018
/-- R132. -/
def PRS_STATUS (s : Nat) : Nat := 0x00800020 + 0x10000 * s
/-- R132. -/
def PRS_PROFILE (s i : Nat) : Nat := 0x00800100 + 0x10000 * s + 0x10 * i
/-- R132. -/
def PRS_PROFILE_STAT (s i : Nat) : Nat := 0x00800108 + 0x10000 * s + 0x10 * i
/-- R132. -/
def PRS_UCODE_VENDOR_VER : Nat := 0x00900000
/-- R132. -/
def PRS_UCODE_CUSTOMER_VER : Nat := 0x00900008
/-- R132. -/
def PRS_CS_BANK : Nat := 0x00900010
/-- R132. -/
def PRS_CS_LOAD_ADDR : Nat := 0x00900018
/-- R132. -/
def PRS_CS_LOAD_CTL : Nat := 0x00900020
/-- R132. -/
def PRS_CS_SEL : Nat := 0x00900028
/-- R132. -/
def PRS_APPLY : Nat := 0x00900030
/-- R132. -/
def PRS_VEXPORT (i : Nat) : Nat := 0x00900100 + 0x8 * i
/-- R132. -/
def PRS_CS_W0 (w : Nat) : Nat := 0x00980000 + 0x20 * w
/-- R132. -/
def PRS_CS_W1 (w : Nat) : Nat := 0x00980008 + 0x20 * w
/-- R132. -/
def PRS_CS_W2 (w : Nat) : Nat := 0x00980010 + 0x20 * w
/-- R132. -/
def PRS_CS_ECC (w : Nat) : Nat := 0x00980018 + 0x20 * w
/-- R165. -/
def XMT_PART (i : Nat) : Nat := 0x00A00000 + 0x10 * i
/-- R165. -/
def XMT_PART_STAT (i : Nat) : Nat := 0x00A00008 + 0x10 * i
/-- R165. -/
def XMT_SEED : Nat := 0x00A00100
/-- R165. -/
def XMT_LEARN_CFG : Nat := 0x00A00108
/-- R165. -/
def XMT_LEARN_STAT : Nat := 0x00A00110
/-- R165. -/
def XMT_APPLY : Nat := 0x00A00FF8
/-- R165. -/
def TCM_GROUP (g : Nat) : Nat := 0x00B00000 + 0x10 * g
/-- R165. -/
def TCM_GROUP_STAT (g : Nat) : Nat := 0x00B00008 + 0x10 * g
/-- R165. -/
def TCM_SCRUB_CFG : Nat := 0x00B00100
/-- R165. -/
def TCM_SCRUB_STAT : Nat := 0x00B00108
/-- R165. -/
def TCM_MOVE_STAT : Nat := 0x00B00110
/-- R165. -/
def TCM_APPLY : Nat := 0x00B00FF8
/-- R165. -/
def FWD_KEYSET_A (k : Nat) : Nat := 0x00C00000 + 0x10 * k
/-- R165. -/
def FWD_KEYSET_B (k : Nat) : Nat := 0x00C00008 + 0x10 * k
/-- R165. -/
def FWD_RING_BASE : Nat := 0x00C00100
/-- R165. -/
def FWD_RING_CTL : Nat := 0x00C00108
/-- R165. -/
def FWD_MIRROR (i : Nat) : Nat := 0x00C00200 + 0x8 * i
/-- R165. -/
def FWD_CLAIM (r : Nat) : Nat := 0x00C00400 + 0x8 * r
/-- R165. -/
def FWD_CLAIM_TRY (r : Nat) : Nat := 0x00C00600 + 0x8 * r
/-- R165. -/
def FWD_CLAIM_FORCE : Nat := 0x00C00800
/-- R165. -/
def FWD_REASON (c : Nat) : Nat := 0x00C01000 + 0x8 * c
/-- R165. -/
def FWD_APPLY : Nat := 0x00C00FF8
/-- R191. -/
def VER_STATE : Nat := 0x00D00000
/-- R191. -/
def VER_CURRENT_TIME : Nat := 0x00D00008
/-- R191. -/
def VER_CURRENT_TIME_HI : Nat := 0x00D00010
/-- R191. -/
def VER_COMMIT_TIME : Nat := 0x00D00018
/-- R191. -/
def VER_COMMIT_TIME_HI : Nat := 0x00D00020
/-- R191. -/
def VER_GROUP_BLOCKS : Nat := 0x00D00028
/-- R191. -/
def VER_CTL : Nat := 0x00D00030
/-- R191. -/
def VER_STATUS : Nat := 0x00D00038
/-- R191. -/
def VER_CFG : Nat := 0x00D00040
/-- R191. -/
def VER_DIGEST (i : Nat) : Nat := 0x00D00100 + 0x8 * i
/-- R217. -/
def QUE_CTL : Nat := 0x00F00000
/-- R217. -/
def QUE_POOL (k : Nat) : Nat := 0x00F00010 + 0x8 * k
/-- R217. -/
def QUE_THR : Nat := 0x00F00030
/-- R217. -/
def QUE_AUDIT_CFG : Nat := 0x00F00038
/-- R217. -/
def QUE_AUDIT_STAT : Nat := 0x00F00040
/-- R217. -/
def QUE_MCQ_PROF : Nat := 0x00F00048
/-- R217. -/
def QUE_ADM_PROF (i : Nat) : Nat := 0x00F00100 + 0x8 * i
/-- R217. -/
def QUE_APPLY : Nat := 0x00F00FF8
/-- R217. -/
def QUE_POOL_STAT (s k : Nat) : Nat := 0x00F01000 + 0x40 * s + 0x8 * k
/-- R217. -/
def QUE_SLICE_STAT (s : Nat) : Nat := 0x00F01020 + 0x40 * s
/-- R217. -/
def QUE_EGR_PROF (p : Nat) : Nat := 0x00F02000 + 0x8 * p
/-- R217. -/
def QUE_PFC (p : Nat) : Nat := 0x00F04000 + 0x8 * p
/-- R245. -/
def MTR_CFG : Nat := 0x00E00000
/-- R245. -/
def MTR_SWEEP_STAT : Nat := 0x00E00008
/-- R245. -/
def MTR_APPLY : Nat := 0x00E00FF8
/-- R245. -/
def SCH_PORT_CFG (p : Nat) : Nat := 0x01000000 + 0x400 * p
/-- R245. -/
def SCH_PORT_SHAPE (p : Nat) : Nat := 0x01000008 + 0x400 * p
/-- R245. -/
def SCH_CLASS_SHAPE (p c : Nat) : Nat := 0x01000048 + 0x400 * p + 0x10 * c
/-- R245. -/
def SCH_GATE_CTL (p : Nat) : Nat := 0x01000010 + 0x400 * p
/-- R245. -/
def SCH_GATE_CYCLE (p : Nat) : Nat := 0x01000018 + 0x400 * p
/-- R245. -/
def SCH_GATE_BASE (p : Nat) : Nat := 0x01000020 + 0x400 * p
/-- R245. -/
def SCH_GATE_BASE_HI (p : Nat) : Nat := 0x01000028 + 0x400 * p
/-- R245. -/
def SCH_STATE (p : Nat) : Nat := 0x01000030 + 0x400 * p
/-- R245. -/
def SCH_CLASS_CFG (p c : Nat) : Nat := 0x01000040 + 0x400 * p + 0x10 * c
/-- R245. -/
def SCH_CFG : Nat := 0x010F0000
/-- R245. -/
def SCH_GL_SEL : Nat := 0x010F0008
/-- R245. -/
def SCH_APPLY : Nat := 0x010F0FF8
/-- R245. -/
def SCH_GL (i : Nat) : Nat := 0x010F1000 + 0x8 * i
/-- R274. -/
def LCK_PORT_CFG (p : Nat) : Nat := 0x01100000 + 0x400 * p
/-- R274. -/
def LCK_PORT_STAT (p : Nat) : Nat := 0x01100008 + 0x400 * p
/-- R274. -/
def LCK_CLASS (p c : Nat) : Nat := 0x01100040 + 0x400 * p + 0x10 * c
/-- R274. -/
def LCK_DMIN (p c : Nat) : Nat := 0x01100048 + 0x400 * p + 0x10 * c
/-- R274. -/
def LCK_SYS_D (c : Nat) : Nat := 0x011F0000 + 0x8 * c
/-- R274. -/
def LCK_APPLY : Nat := 0x011F0FF8
/-- R275. -/
def FWD_REPL_STAT : Nat := 0x00C80000
/-- R305. -/
def WIT_CTL : Nat := 0x01200000
/-- R305. -/
def WIT_EPOCH_LEN : Nat := 0x01200008
/-- R305. -/
def WIT_EPOCH_STAT : Nat := 0x01200010
/-- R305. -/
def WIT_RING_CFG : Nat := 0x01200020
/-- R305. -/
def WIT_RING_WR : Nat := 0x01200028
/-- R305. -/
def WIT_RING_REL : Nat := 0x01200030
/-- R305. -/
def WIT_FLOW_KEY_LO : Nat := 0x01200040
/-- R305. -/
def WIT_FLOW_KEY_HI : Nat := 0x01200048
/-- R305. -/
def WIT_FLOW_KEY_ID : Nat := 0x01200050
/-- R305. -/
def WIT_EXP_CTL : Nat := 0x01200060
/-- R305. -/
def WIT_EXP_RING_BASE (i : Nat) : Nat := 0x01200100 + 0x20 * i
/-- R305. -/
def WIT_EXP_RING_TAIL (i : Nat) : Nat := 0x01200108 + 0x20 * i
/-- R305. -/
def WIT_EXP_RING_HEAD (i : Nat) : Nat := 0x01200110 + 0x20 * i
/-- R305. -/
def WIT_PULL_HEAD : Nat := 0x01200200
/-- R305. -/
def WIT_EXP_PORT (j : Nat) : Nat := 0x01200280 + 0x8 * j
/-- R305. -/
def WIT_EXP_MAC : Nat := 0x012002C0
/-- R305. -/
def WIT_EXP_SMAC : Nat := 0x012002C8
/-- R305. -/
def WIT_STREAM_STAT (s : Nat) : Nat := 0x01200400 + 0x40 * s
/-- R305. -/
def WIT_HEAD (s i : Nat) : Nat := 0x01200408 + 0x40 * s + 0x8 * i
/-- R305. -/
def WIT_APPLY : Nat := 0x01200FF8
/-- R305. -/
def WIT_SEL (p : Nat) : Nat := 0x01201000 + 0x8 * p
/-- R338. -/
def TOW_CFG : Nat := 0x01300000
/-- R338. -/
def TOW_STATE : Nat := 0x01300008
/-- R338. -/
def TOW_VOTE_STAT : Nat := 0x01300010
/-- R338. -/
def TOW_CTL : Nat := 0x01300018
/-- R338. -/
def TOW_SYS_STAT : Nat := 0x01300020
/-- R338. -/
def TOW_SLACK (c : Nat) : Nat := 0x01300100 + 0x8 * c
/-- R338. -/
def TOW_APPLY : Nat := 0x01300FF8
/-- R338. -/
def TOW_WEIGHT (j : Nat) : Nat := 0x01301000 + 0x8 * j
/-- R338. -/
def TOW_ROUTE (d : Nat) : Nat := 0x01302000 + 0x8 * d
/-- R338. -/
def TOW_PORT_CFG (p : Nat) : Nat := 0x01304000 + 0x20 * p
/-- R338. -/
def TOW_PORT_STAT (p : Nat) : Nat := 0x01304008 + 0x20 * p
/-- R338. -/
def TOW_PORT_OFFSET (p : Nat) : Nat := 0x01304010 + 0x20 * p
/-- R338. -/
def TOW_PORT_ASYM (p : Nat) : Nat := 0x01304018 + 0x20 * p
/-- R365. -/
def SEC_STATUS : Nat := 0x00100000
/-- R365. -/
def SEC_CFG : Nat := 0x00100008
/-- R365. -/
def SEC_OP : Nat := 0x00100010
/-- R365. -/
def SEC_ATTEST_CTL : Nat := 0x00100018
/-- R365. -/
def SEC_DENY : Nat := 0x00100020
/-- R365. -/
def SEC_NONCE (i : Nat) : Nat := 0x00100040 + 0x8 * i
/-- R365. -/
def SEC_ATTEST_NONCE (i : Nat) : Nat := 0x00100060 + 0x8 * i
/-- R365. -/
def SEC_SIG (i : Nat) : Nat := 0x00100080 + 0x8 * i
/-- R365. -/
def SEC_ID (i : Nat) : Nat := 0x00100100 + 0x8 * i
/-- R365. -/
def SEC_PROT_HASH (i : Nat) : Nat := 0x00100120 + 0x8 * i
/-- R365. -/
def SEC_CERT_LEN (k : Nat) : Nat := 0x00100200 + 0x8 * k
/-- R365. -/
def SEC_LDEV (i : Nat) : Nat := 0x00100900 + 0x8 * i
/-- R365. -/
def SEC_ATTEST_REPORT (i : Nat) : Nat := 0x00100C00 + 0x8 * i
/-- R365. -/
def SEC_CERT (k i : Nat) : Nat := 0x00101000 + 0x1000 * k + 0x8 * i
/-- R365. -/
def SEC_OWNER_BUF (i : Nat) : Nat := 0x00106000 + 0x8 * i
/-- R365. -/
def SEC_PROT_STAGE (e w : Nat) : Nat := 0x00108000 + 0x10 * e + 0x8 * w
/-- R365. -/
def SEC_PROT_ACTIVE (e w : Nat) : Nat := 0x00109000 + 0x10 * e + 0x8 * w
/-- R385. -/
def CFG_READY : Nat := 0x00000000
/-- R385. -/
def CFG_BOOT_STAT : Nat := 0x00000008
/-- R385. -/
def CFG_LOAD_STAT : Nat := 0x00000010
/-- R385. -/
def CFG_RESET_CAUSE : Nat := 0x00000018
/-- R385. -/
def CFG_RESET : Nat := 0x00000020
/-- R385. -/
def CFG_NVM_CTL : Nat := 0x00000028
/-- R385. -/
def CFG_NVM_ADDR : Nat := 0x00000030
/-- R385. -/
def CFG_NVM_HOST : Nat := 0x00000038
/-- R385. -/
def CFG_NVM_CMD : Nat := 0x00000040
/-- R385. -/
def CFG_IMAGE_DIGEST (i : Nat) : Nat := 0x00000100 + 0x8 * i
/-- R411. -/
def HIF_LINK_STAT : Nat := 0x01B00000
/-- R411. -/
def HIF_READ_TIME : Nat := 0x01B00008
/-- R411. -/
def HIF_READ_TIME_HI : Nat := 0x01B00010
/-- R411. -/
def HIF_DMA_CFG (c : Nat) : Nat := 0x01B01000 + 0x40 * c
/-- R411. -/
def HIF_DMA_DESC_BASE (c : Nat) : Nat := 0x01B01008 + 0x40 * c
/-- R411. -/
def HIF_DMA_CPL_BASE (c : Nat) : Nat := 0x01B01010 + 0x40 * c
/-- R411. -/
def HIF_DMA_IDX (c : Nat) : Nat := 0x01B01018 + 0x40 * c
/-- R411. -/
def HIF_DMA_TAIL (c : Nat) : Nat := 0x01B01020 + 0x40 * c
/-- R411. -/
def HIF_DMA_STAT (c : Nat) : Nat := 0x01B01028 + 0x40 * c
/-- R411. -/
def EVQ_CFG (q : Nat) : Nat := 0x01600000 + 0x20 * q
/-- R411. -/
def EVQ_BASE (q : Nat) : Nat := 0x01600008 + 0x20 * q
/-- R411. -/
def EVQ_IDX (q : Nat) : Nat := 0x01600010 + 0x20 * q
/-- R411. -/
def EVQ_STAT (q : Nat) : Nat := 0x01600018 + 0x20 * q
/-- R411. -/
def EVQ_ROUTE (n : Nat) : Nat := 0x01602000 + 0x8 * n
/-- R437. -/
def HBM_CTL : Nat := 0x01400000
/-- R437. -/
def HBM_WM : Nat := 0x01400008
/-- R437. -/
def HBM_STAT (k : Nat) : Nat := 0x01400010 + 0x8 * k
/-- R437. -/
def HBM_ECC_STAT : Nat := 0x01400020
/-- R437. -/
def HBM_CAP_CFG : Nat := 0x01400028
/-- R437. -/
def HBM_CAP_RING : Nat := 0x01400030
/-- R437. -/
def HBM_CAP_STAT : Nat := 0x01400038
/-- R437. -/
def HBM_CAP_WIN : Nat := 0x01400040
/-- R437. -/
def HBM_APPLY : Nat := 0x01400FF8
/-- R438. -/
def SCP_OWNER (b : Nat) : Nat := 0x01500000 + 0x8 * b
/-- R438. -/
def SCP_MARCH_CFG : Nat := 0x01500800
/-- R438. -/
def SCP_MARCH_STAT : Nat := 0x01500808
/-- R465. -/
def FLT_STATUS : Nat := 0x01800000
/-- R465. -/
def FLT_CTL : Nat := 0x01800008
/-- R465. -/
def FLT_LAST_CHIP : Nat := 0x01800010
/-- R465. -/
def FLT_FERRY_CFG : Nat := 0x01800018
/-- R465. -/
def FLT_FERRY_CTL : Nat := 0x01800020
/-- R465. -/
def FLT_FERRY_STAT : Nat := 0x01800028
/-- R465. -/
def FLT_INJECT : Nat := 0x01800030
/-- R465. -/
def FLT_STICKY (j : Nat) : Nat := 0x01800800 + 0x8 * j
/-- R465. -/
def FLT_INFAULT (j : Nat) : Nat := 0x01800900 + 0x8 * j
/-- R465. -/
def FLT_FERRY_MAP (p : Nat) : Nat := 0x01802000 + 0x8 * p
/-- R465. -/
def FLT_SRC_CFG (n : Nat) : Nat := 0x01810000 + 0x8 * n
/-- R465. -/
def CND_CFG : Nat := 0x01900000
/-- R465. -/
def CND_EYE_CFG : Nat := 0x01900008
/-- R465. -/
def CND_PLAN : Nat := 0x01900010
/-- R465. -/
def CND_LIFE : Nat := 0x01900018
/-- R465. -/
def CND_CTL : Nat := 0x01900020
/-- R465. -/
def CND_CANDLE (i : Nat) : Nat := 0x01901000 + 0x8 * i
/-- R465. -/
def CND_REPLICA (o : Nat) : Nat := 0x01901400 + 0x8 * o
/-- R465. -/
def CND_MARGIN (o : Nat) : Nat := 0x01901600 + 0x8 * o
/-- R465. -/
def KPR_STATUS (k : Nat) : Nat := 0x01A00000 + 0x40 * k
/-- R465. -/
def KPR_CMD_DATA (k : Nat) : Nat := 0x01A00008 + 0x40 * k
/-- R465. -/
def KPR_CMD_STAT (k : Nat) : Nat := 0x01A00010 + 0x40 * k
/-- R465. -/
def KPR_WDOG_CFG : Nat := 0x01A00100
/-- R479. -/
def PMC_SNAP_TIME : Nat := 0x01700000
/-- R479. -/
def PMC_SNAP_TIME_HI : Nat := 0x01700008
/-- R479. -/
def PMC_SNAP_CTL : Nat := 0x01700010
/-- R479. -/
def PMC_SNAP_STAT : Nat := 0x01700018
/-- R479. -/
def PMC_BLOCK_SIZE (b : Nat) : Nat := 0x01700100 + 0x8 * b
/-- R479. -/
def PMC_SAMPLE_CFG (i : Nat) : Nat := 0x01700200 + 0x8 * i
/-- R479. -/
def PMC_SAMPLE_IDX : Nat := 0x01700300
/-- R479. -/
def PMC_SAMPLE_RING (j w : Nat) : Nat := 0x01710000 + 0x20 * j + 0x8 * w
end Reg

/-! ## Fields -/
namespace F
def TIM_NOW_LO.SEC_LO : Fld := ⟨63, 48⟩
def TIM_NOW_LO.NS : Fld := ⟨47, 16⟩
def TIM_NOW_LO.SUBNS : Fld := ⟨15, 0⟩
def TIM_NOW_HI.SEC_HI : Fld := ⟨31, 0⟩
def TIM_STATE.HOLD_MS : Fld := ⟨63, 40⟩
def TIM_STATE.STEP_COUNT : Fld := ⟨39, 24⟩
def TIM_STATE.UB_BASE : Fld := ⟨23, 16⟩
def TIM_STATE.FREQ_REF_OK : Fld := ⟨9, 9⟩
def TIM_STATE.LOCK_ACTIVE : Fld := ⟨8, 8⟩
def TIM_STATE.REF_IN_USE : Fld := ⟨7, 4⟩
def TIM_STATE.TQ : Fld := ⟨3, 0⟩
def TIM_CTRL.FREE_RUN : Fld := ⟨39, 39⟩
def TIM_CTRL.OUT10M_EN : Fld := ⟨38, 38⟩
def TIM_CTRL.RCLK1_EN : Fld := ⟨37, 37⟩
def TIM_CTRL.RCLK0_EN : Fld := ⟨36, 36⟩
def TIM_CTRL.RCLK1_PORT : Fld := ⟨35, 26⟩
def TIM_CTRL.RCLK0_PORT : Fld := ⟨25, 16⟩
def TIM_CTRL.SYNCE_PORT : Fld := ⟨15, 6⟩
def TIM_CTRL.FREQ_SRC : Fld := ⟨5, 4⟩
def TIM_CTRL.SERVO_HOST : Fld := ⟨0, 0⟩
def TIM_INCR.INCR : Fld := ⟨63, 0⟩
def TIM_SLEW.RATE : Fld := ⟨63, 48⟩
def TIM_SLEW.OFFSET : Fld := ⟨47, 0⟩
def TIM_STEP.STEP_NS : Fld := ⟨63, 0⟩
def TIM_TRACK_CFG.PTP_LOG_INT : Fld := ⟨63, 56⟩
def TIM_TRACK_CFG.LOSS_COUNT : Fld := ⟨55, 48⟩
def TIM_TRACK_CFG.STEP_THRESH_NS : Fld := ⟨47, 24⟩
def TIM_TRACK_CFG.TRACK_COUNT : Fld := ⟨23, 16⟩
def TIM_TRACK_CFG.TRACK_PS : Fld := ⟨15, 0⟩
def TIM_REF_CFG.REVERTIVE : Fld := ⟨16, 16⟩
def TIM_REF_CFG.PRIO3 : Fld := ⟨15, 12⟩
def TIM_REF_CFG.PRIO2 : Fld := ⟨11, 8⟩
def TIM_REF_CFG.PRIO1 : Fld := ⟨7, 4⟩
def TIM_REF_CFG.PRIO0 : Fld := ⟨3, 0⟩
def TIM_TOD_NEXT.VALID : Fld := ⟨63, 63⟩
def TIM_TOD_NEXT.SEC : Fld := ⟨47, 0⟩
def TIM_PPS_IN0.STAMP : Fld := ⟨63, 0⟩
def TIM_PPS_IN1.STAMP : Fld := ⟨63, 0⟩
def TIM_PPS_OUT0.WIDTH_MS : Fld := ⟨47, 40⟩
def TIM_PPS_OUT0.OFFSET_NS : Fld := ⟨39, 8⟩
def TIM_PPS_OUT0.EN : Fld := ⟨0, 0⟩
def TIM_PPS_OUT1.WIDTH_MS : Fld := ⟨47, 40⟩
def TIM_PPS_OUT1.OFFSET_NS : Fld := ⟨39, 8⟩
def TIM_PPS_OUT1.EN : Fld := ⟨0, 0⟩
def TIM_HOLD_COEF.DRIFT : Fld := ⟨63, 40⟩
def TIM_HOLD_COEF.FREQ : Fld := ⟨39, 16⟩
def TIM_HOLD_COEF.PHASE : Fld := ⟨15, 0⟩
def TIM_CAL_CFG.STALE_LAG_PS : Fld := ⟨47, 32⟩
def TIM_CAL_CFG.MAX_AGE_S : Fld := ⟨31, 16⟩
def TIM_CAL_CFG.PERIOD_S : Fld := ⟨15, 0⟩
def TIM_UTC.VALID : Fld := ⟨18, 18⟩
def TIM_UTC.LEAP59 : Fld := ⟨17, 17⟩
def TIM_UTC.LEAP61 : Fld := ⟨16, 16⟩
def TIM_UTC.UTC_OFFSET : Fld := ⟨15, 0⟩
def TIM_APPLY.APPLY : Fld := ⟨0, 0⟩
def TIM_TS_UNC.W_TS_PS : Fld := ⟨31, 0⟩
def TIM_PTP_OFS.OFFSET : Fld := ⟨47, 0⟩
def TIM_LAMP_DLY.ECHO_COUNT : Fld := ⟨47, 32⟩
def TIM_LAMP_DLY.DELAY : Fld := ⟨31, 0⟩
def TIM_LAMP_RES.RELOADED : Fld := ⟨32, 32⟩
def TIM_LAMP_RES.RES_MAX : Fld := ⟨31, 16⟩
def TIM_LAMP_RES.RESIDUAL : Fld := ⟨15, 0⟩
def TIM_CAL_RX.TARGET : Fld := ⟨63, 32⟩
def TIM_CAL_RX.IN_FORCE : Fld := ⟨31, 0⟩
def TIM_CAL_TX.TARGET : Fld := ⟨63, 32⟩
def TIM_CAL_TX.IN_FORCE : Fld := ⟨31, 0⟩
def TIM_CAL_STAT.UB_LANE : Fld := ⟨47, 40⟩
def TIM_CAL_STAT.SLEWING : Fld := ⟨33, 33⟩
def TIM_CAL_STAT.STALE : Fld := ⟨32, 32⟩
def TIM_CAL_STAT.AGE_S : Fld := ⟨31, 0⟩
def TIM_PTP_PORT.PEER_DELAY : Fld := ⟨39, 8⟩
def TIM_PTP_PORT.BC_PORT : Fld := ⟨6, 6⟩
def TIM_PTP_PORT.TRANSPORT : Fld := ⟨5, 4⟩
def TIM_PTP_PORT.TC_MODE : Fld := ⟨3, 2⟩
def TIM_PTP_PORT.TWO_STEP : Fld := ⟨1, 1⟩
def TIM_PTP_PORT.ONE_STEP : Fld := ⟨0, 0⟩
def PRT_CFG.MTU : Fld := ⟨45, 32⟩
def PRT_CFG.DEF_CLASS : Fld := ⟨18, 16⟩
def PRT_CFG.CT_EN : Fld := ⟨15, 15⟩
def PRT_CFG.AN_EN : Fld := ⟨14, 14⟩
def PRT_CFG.FEC : Fld := ⟨13, 12⟩
def PRT_CFG.PHY : Fld := ⟨11, 8⟩
def PRT_CFG.EN : Fld := ⟨0, 0⟩
def PRT_STATUS.LINK_CHANGES : Fld := ⟨31, 16⟩
def PRT_STATUS.ALIGNED : Fld := ⟨7, 7⟩
def PRT_STATUS.DESKEW_OK : Fld := ⟨6, 6⟩
def PRT_STATUS.AM_ALIGN : Fld := ⟨5, 5⟩
def PRT_STATUS.BLOCK_SYNC : Fld := ⟨4, 4⟩
def PRT_STATUS.TRAIN_DONE : Fld := ⟨3, 3⟩
def PRT_STATUS.AN_DONE : Fld := ⟨2, 2⟩
def PRT_STATUS.LINK_UP : Fld := ⟨1, 1⟩
def PRT_STATUS.HALTED : Fld := ⟨0, 0⟩
def PRT_SLOT.GAP_MAX_PS : Fld := ⟨31, 16⟩
def PRT_SLOT.SLOT_PS : Fld := ⟨15, 0⟩
def PRT_OCTET.MODE : Fld := ⟨1, 0⟩
def PRT_APPLY.APPLY : Fld := ⟨0, 0⟩
def SER_CFG.LOOPBACK : Fld := ⟨2, 2⟩
def SER_CFG.TX_INV : Fld := ⟨1, 1⟩
def SER_CFG.RX_INV : Fld := ⟨0, 0⟩
def SER_STATUS.EQ_SETTING : Fld := ⟨47, 40⟩
def SER_STATUS.EYE_H : Fld := ⟨31, 16⟩
def SER_STATUS.CDR_TRACK : Fld := ⟨1, 1⟩
def SER_STATUS.SIGNAL : Fld := ⟨0, 0⟩
def SER_SKEW.SKEW : Fld := ⟨31, 0⟩
def SER_FRAMING.AM_BITS : Fld := ⟨63, 48⟩
def SER_FRAMING.AM_PERIOD_CW : Fld := ⟨31, 16⟩
def SER_FRAMING.CW_BITS : Fld := ⟨15, 0⟩
def PRS_CFG.RUN_LIMIT : Fld := ⟨15, 0⟩
def PRS_PORT_PROF_LO.PROF (j : Nat) : Fld := ⟨4 * j + 3, 4 * j⟩
def PRS_PORT_PROF_HI.PROF (j : Nat) : Fld := ⟨4 * j + 3, 4 * j⟩
def PRS_MGMT_PROF.PROF_513 : Fld := ⟨7, 4⟩
def PRS_MGMT_PROF.PROF_512 : Fld := ⟨3, 0⟩
def PRS_STATUS.QUEUED : Fld := ⟨14, 8⟩
def PRS_STATUS.BUSY : Fld := ⟨6, 0⟩
def PRS_PROFILE.MIN_LEN : Fld := ⟨40, 32⟩
def PRS_PROFILE.EXC_ACTION : Fld := ⟨26, 25⟩
def PRS_PROFILE.UNIT_MSG : Fld := ⟨24, 24⟩
def PRS_PROFILE.DEPTH : Fld := ⟨20, 16⟩
def PRS_PROFILE.ENTRY : Fld := ⟨13, 0⟩
def PRS_PROFILE_STAT.OVER_BUDGET : Fld := ⟨40, 40⟩
def PRS_PROFILE_STAT.BUDGET : Fld := ⟨39, 32⟩
def PRS_PROFILE_STAT.W_SHADOW : Fld := ⟨31, 16⟩
def PRS_PROFILE_STAT.W_IN_FORCE : Fld := ⟨15, 0⟩
def PRS_UCODE_VENDOR_VER.VER : Fld := ⟨31, 0⟩
def PRS_UCODE_CUSTOMER_VER.BANK1_VER : Fld := ⟨63, 32⟩
def PRS_UCODE_CUSTOMER_VER.BANK0_VER : Fld := ⟨31, 0⟩
def PRS_CS_BANK.VALID1 : Fld := ⟨17, 17⟩
def PRS_CS_BANK.VALID0 : Fld := ⟨16, 16⟩
def PRS_CS_BANK.OLD_BUSY : Fld := ⟨8, 8⟩
def PRS_CS_BANK.ACTIVE : Fld := ⟨0, 0⟩
def PRS_CS_LOAD_ADDR.ADDR : Fld := ⟨63, 3⟩
def PRS_CS_LOAD_CTL.FAIL_WORD : Fld := ⟨31, 16⟩
def PRS_CS_LOAD_CTL.STATUS : Fld := ⟨7, 4⟩
def PRS_CS_LOAD_CTL.GO : Fld := ⟨0, 0⟩
def PRS_CS_SEL.BANK : Fld := ⟨8, 8⟩
def PRS_CS_SEL.SLICE : Fld := ⟨3, 0⟩
def PRS_APPLY.APPLY : Fld := ⟨0, 0⟩
def PRS_VEXPORT.VALID : Fld := ⟨31, 31⟩
def PRS_VEXPORT.W : Fld := ⟨23, 16⟩
def PRS_VEXPORT.ADDR : Fld := ⟨13, 0⟩
def PRS_CS_W0.BITS_63_0 : Fld := ⟨63, 0⟩
def PRS_CS_W1.BITS_127_64 : Fld := ⟨63, 0⟩
def PRS_CS_W2.BITS_191_128 : Fld := ⟨63, 0⟩
def PRS_CS_ECC.CHECK : Fld := ⟨8, 0⟩
def XMT_PART.BASE : Fld := ⟨42, 24⟩
def XMT_PART.SIZE_LOG2 : Fld := ⟨20, 16⟩
def XMT_PART.EN : Fld := ⟨0, 0⟩
def XMT_PART_STAT.STASH : Fld := ⟨40, 32⟩
def XMT_PART_STAT.LOAD_PM : Fld := ⟨31, 22⟩
def XMT_PART_STAT.ENTRIES : Fld := ⟨21, 0⟩
def XMT_SEED.SEED1 : Fld := ⟨63, 32⟩
def XMT_SEED.SEED0 : Fld := ⟨31, 0⟩
def XMT_LEARN_CFG.LOAD_WARN_PM : Fld := ⟨41, 32⟩
def XMT_LEARN_CFG.HOLD_US : Fld := ⟨19, 0⟩
def XMT_LEARN_STAT.OVERRUN : Fld := ⟨16, 16⟩
def XMT_LEARN_STAT.LEVEL : Fld := ⟨12, 0⟩
def XMT_APPLY.APPLY : Fld := ⟨0, 0⟩
def TCM_GROUP.EN : Fld := ⟨63, 63⟩
def TCM_GROUP.SEL_BITS : Fld := ⟨36, 32⟩
def TCM_GROUP.SEL_OFF : Fld := ⟨31, 23⟩
def TCM_GROUP.WIDE : Fld := ⟨22, 22⟩
def TCM_GROUP.COUNT : Fld := ⟨16, 8⟩
def TCM_GROUP.FIRST : Fld := ⟨7, 0⟩
def TCM_GROUP_STAT.MOVING : Fld := ⟨20, 20⟩
def TCM_GROUP_STAT.VALID_ROWS : Fld := ⟨19, 0⟩
def TCM_SCRUB_CFG.PERIOD_MS : Fld := ⟨15, 0⟩
def TCM_SCRUB_STAT.UNCORR : Fld := ⟨63, 63⟩
def TCM_SCRUB_STAT.UNCORR_ROW : Fld := ⟨51, 32⟩
def TCM_SCRUB_STAT.SWEEPS : Fld := ⟨31, 0⟩
def TCM_MOVE_STAT.ACTIVE : Fld := ⟨63, 63⟩
def TCM_MOVE_STAT.NEXT : Fld := ⟨51, 32⟩
def TCM_MOVE_STAT.LAST : Fld := ⟨19, 0⟩
def TCM_APPLY.APPLY : Fld := ⟨0, 0⟩
def FWD_KEYSET_A.EM0_EN : Fld := ⟨63, 63⟩
def FWD_KEYSET_A.EM0_PART : Fld := ⟨62, 59⟩
def FWD_KEYSET_A.EM0_OFF : Fld := ⟨58, 53⟩
def FWD_KEYSET_A.EM1_EN : Fld := ⟨52, 52⟩
def FWD_KEYSET_A.EM1_PART : Fld := ⟨51, 48⟩
def FWD_KEYSET_A.EM1_OFF : Fld := ⟨47, 42⟩
def FWD_KEYSET_A.LEARN : Fld := ⟨41, 41⟩
def FWD_KEYSET_A.TC_EN : Fld := ⟨40, 40⟩
def FWD_KEYSET_A.TC_GROUP : Fld := ⟨39, 36⟩
def FWD_KEYSET_A.TC_OFF : Fld := ⟨35, 30⟩
def FWD_KEYSET_A.LPM_EN : Fld := ⟨29, 29⟩
def FWD_KEYSET_A.LPM_GROUP : Fld := ⟨28, 25⟩
def FWD_KEYSET_A.LPM_OFF : Fld := ⟨24, 19⟩
def FWD_KEYSET_A.LPM_AF : Fld := ⟨18, 18⟩
def FWD_KEYSET_A.LPM_TABLE : Fld := ⟨17, 10⟩
def FWD_KEYSET_A.MISS : Fld := ⟨9, 8⟩
def FWD_KEYSET_A.MISS_REASON : Fld := ⟨7, 0⟩
def FWD_KEYSET_B.QUAL_EN : Fld := ⟨12, 12⟩
def FWD_KEYSET_B.QUAL_OFF : Fld := ⟨11, 6⟩
def FWD_KEYSET_B.VLAN_OFF : Fld := ⟨5, 0⟩
def FWD_RING_BASE.ADDR : Fld := ⟨63, 7⟩
def FWD_RING_CTL.HEAD : Fld := ⟨47, 32⟩
def FWD_RING_CTL.TAIL : Fld := ⟨31, 16⟩
def FWD_RING_CTL.EN : Fld := ⟨5, 5⟩
def FWD_RING_CTL.SIZE_LOG2 : Fld := ⟨4, 0⟩
def FWD_MIRROR.EN : Fld := ⟨24, 24⟩
def FWD_MIRROR.TRUNC : Fld := ⟨23, 10⟩
def FWD_MIRROR.PORT : Fld := ⟨9, 0⟩
def FWD_CLAIM.HOLDER : Fld := ⟨1, 0⟩
def FWD_CLAIM_TRY.TAKEN : Fld := ⟨63, 63⟩
def FWD_CLAIM_TRY.HOLDER : Fld := ⟨1, 0⟩
def FWD_CLAIM_FORCE.REGION : Fld := ⟨5, 0⟩
def FWD_REASON.METER_EN : Fld := ⟨26, 26⟩
def FWD_REASON.METER : Fld := ⟨25, 6⟩
def FWD_REASON.HOST_CHANNEL : Fld := ⟨4, 1⟩
def FWD_REASON.DEST : Fld := ⟨0, 0⟩
def FWD_APPLY.APPLY : Fld := ⟨0, 0⟩
def VER_STATE.OPEN : Fld := ⟨63, 48⟩
def VER_STATE.ARMED : Fld := ⟨47, 32⟩
def VER_STATE.OLDEST : Fld := ⟨31, 16⟩
def VER_STATE.CURRENT : Fld := ⟨15, 0⟩
def VER_CURRENT_TIME.T_LO : Fld := ⟨63, 0⟩
def VER_CURRENT_TIME_HI.T_HI : Fld := ⟨31, 0⟩
def VER_COMMIT_TIME.T_LO : Fld := ⟨63, 0⟩
def VER_COMMIT_TIME_HI.T_HI : Fld := ⟨31, 0⟩
def VER_GROUP_BLOCKS.MASK : Fld := ⟨23, 0⟩
def VER_CTL.OP : Fld := ⟨2, 0⟩
def VER_STATUS.GROUP_CMDS : Fld := ⟨47, 24⟩
def VER_STATUS.LAST_VER : Fld := ⟨23, 8⟩
def VER_STATUS.LAST_OP : Fld := ⟨7, 4⟩
def VER_STATUS.LAST_STATUS : Fld := ⟨3, 0⟩
def VER_CFG.MIN_SPACING_US : Fld := ⟨47, 16⟩
def VER_CFG.LEAD_US : Fld := ⟨15, 0⟩
def VER_DIGEST.DIGEST : Fld := ⟨63, 0⟩
def QUE_CTL.HALTED : Fld := ⟨1, 1⟩
def QUE_CTL.HALT : Fld := ⟨0, 0⟩
def QUE_POOL.BUFS : Fld := ⟨47, 32⟩
def QUE_POOL.BASE : Fld := ⟨19, 0⟩
def QUE_THR.HOLD_US : Fld := ⟨55, 40⟩
def QUE_THR.HYST_PM : Fld := ⟨39, 30⟩
def QUE_THR.PM_3 : Fld := ⟨29, 20⟩
def QUE_THR.PM_2 : Fld := ⟨19, 10⟩
def QUE_THR.PM_1 : Fld := ⟨9, 0⟩
def QUE_AUDIT_CFG.EN : Fld := ⟨17, 17⟩
def QUE_AUDIT_CFG.RECLAIM : Fld := ⟨16, 16⟩
def QUE_AUDIT_CFG.PERIOD_MS : Fld := ⟨15, 0⟩
def QUE_AUDIT_STAT.LEAK : Fld := ⟨63, 63⟩
def QUE_AUDIT_STAT.LEAK_POOL : Fld := ⟨57, 56⟩
def QUE_AUDIT_STAT.LEAK_SLICE : Fld := ⟨55, 52⟩
def QUE_AUDIT_STAT.LEAK_PTR : Fld := ⟨51, 32⟩
def QUE_AUDIT_STAT.PASSES : Fld := ⟨31, 0⟩
def QUE_MCQ_PROF.PROF (c : Nat) : Fld := ⟨4 * c + 3, 4 * c⟩
def QUE_ADM_PROF.ALPHA_LOG2 : Fld := ⟨19, 16⟩
def QUE_ADM_PROF.MIN_GRAN : Fld := ⟨15, 0⟩
def QUE_APPLY.APPLY : Fld := ⟨0, 0⟩
def QUE_POOL_STAT.LEVEL : Fld := ⟨42, 41⟩
def QUE_POOL_STAT.MIN_FREE : Fld := ⟨39, 20⟩
def QUE_POOL_STAT.FREE : Fld := ⟨19, 0⟩
def QUE_SLICE_STAT.OWED : Fld := ⟨39, 20⟩
def QUE_SLICE_STAT.SHARED_FREE : Fld := ⟨19, 0⟩
def QUE_EGR_PROF.PROF (c : Nat) : Fld := ⟨4 * c + 3, 4 * c⟩
def QUE_PFC.QUANTA : Fld := ⟨39, 24⟩
def QUE_PFC.LEVEL (c : Nat) : Fld := ⟨8 + 2 * c + 1, 8 + 2 * c⟩
def QUE_PFC.EN : Fld := ⟨7, 0⟩
def MTR_CFG.PRECOLOUR_EN : Fld := ⟨9, 9⟩
def MTR_CFG.PRECOLOUR_OFF : Fld := ⟨8, 0⟩
def MTR_SWEEP_STAT.SWEEPS : Fld := ⟨31, 0⟩
def MTR_APPLY.APPLY : Fld := ⟨0, 0⟩
def SCH_PORT_CFG.PFC_RX : Fld := ⟨15, 8⟩
def SCH_PORT_CFG.EGR_DEPTH : Fld := ⟨4, 0⟩
def SCH_PORT_SHAPE.BURST : Fld := ⟨63, 40⟩
def SCH_PORT_SHAPE.RATE : Fld := ⟨19, 0⟩
def SCH_CLASS_SHAPE.BURST : Fld := ⟨63, 40⟩
def SCH_CLASS_SHAPE.RATE : Fld := ⟨19, 0⟩
def SCH_GATE_CTL.EN : Fld := ⟨63, 63⟩
def SCH_GATE_CTL.ADMIN_BANK : Fld := ⟨56, 56⟩
def SCH_GATE_CTL.PENDING : Fld := ⟨41, 41⟩
def SCH_GATE_CTL.BANK_IN_FORCE : Fld := ⟨40, 40⟩
def SCH_GATE_CTL.GUARD_NS : Fld := ⟨31, 16⟩
def SCH_GATE_CTL.LEN : Fld := ⟨8, 0⟩
def SCH_GATE_CYCLE.CYCLE_NS : Fld := ⟨31, 0⟩
def SCH_GATE_BASE.BASE_LO : Fld := ⟨63, 0⟩
def SCH_GATE_BASE_HI.BASE_HI : Fld := ⟨31, 0⟩
def SCH_STATE.GATES_NOW : Fld := ⟨39, 32⟩
def SCH_STATE.PAUSED : Fld := ⟨31, 24⟩
def SCH_STATE.ENTRY : Fld := ⟨23, 16⟩
def SCH_STATE.SVC : Fld := ⟨1, 0⟩
def SCH_CLASS_CFG.PRIO : Fld := ⟨34, 32⟩
def SCH_CLASS_CFG.WEIGHT : Fld := ⟨15, 0⟩
def SCH_CFG.RECOVERY_US : Fld := ⟨31, 0⟩
def SCH_GL_SEL.BANK : Fld := ⟨10, 10⟩
def SCH_GL_SEL.PORT : Fld := ⟨9, 0⟩
def SCH_APPLY.APPLY : Fld := ⟨0, 0⟩
def SCH_GL.GATES : Fld := ⟨39, 32⟩
def SCH_GL.INTERVAL_NS : Fld := ⟨31, 0⟩
def LCK_PORT_CFG.GUARD_EN : Fld := ⟨1, 1⟩
def LCK_PORT_CFG.LATE_DROP : Fld := ⟨0, 0⟩
def LCK_PORT_STAT.FIFO_MAX : Fld := ⟨41, 32⟩
def LCK_PORT_STAT.FIFO_LEVEL : Fld := ⟨25, 16⟩
def LCK_PORT_STAT.ACTIVE : Fld := ⟨15, 8⟩
def LCK_PORT_STAT.OOO_SEEN : Fld := ⟨1, 1⟩
def LCK_PORT_STAT.LATE_SEEN : Fld := ⟨0, 0⟩
def LCK_CLASS.STAMP_OFF : Fld := ⟨55, 48⟩
def LCK_CLASS.STAMP : Fld := ⟨41, 40⟩
def LCK_CLASS.MAX_LEN : Fld := ⟨37, 24⟩
def LCK_CLASS.FEED_PHY : Fld := ⟨19, 16⟩
def LCK_CLASS.SYSTEM : Fld := ⟨15, 15⟩
def LCK_CLASS.D_NS : Fld := ⟨14, 0⟩
def LCK_DMIN.DMIN_MC_SHADOW : Fld := ⟨63, 48⟩
def LCK_DMIN.DMIN_MC_IN_FORCE : Fld := ⟨47, 32⟩
def LCK_DMIN.DMIN_SHADOW : Fld := ⟨31, 16⟩
def LCK_DMIN.DMIN_IN_FORCE : Fld := ⟨15, 0⟩
def LCK_SYS_D.D_NS : Fld := ⟨14, 0⟩
def LCK_APPLY.APPLY : Fld := ⟨0, 0⟩
def FWD_REPL_STAT.GROUPS_VALID : Fld := ⟨16, 0⟩
def WIT_CTL.EN : Fld := ⟨0, 0⟩
def WIT_EPOCH_LEN.LEN_MS : Fld := ⟨13, 0⟩
def WIT_EPOCH_STAT.PENDING : Fld := ⟨56, 48⟩
def WIT_EPOCH_STAT.EPOCH : Fld := ⟨47, 0⟩
def WIT_RING_CFG.SIZE : Fld := ⟨55, 32⟩
def WIT_RING_CFG.BASE : Fld := ⟨23, 0⟩
def WIT_RING_WR.WRITE : Fld := ⟨63, 0⟩
def WIT_RING_REL.RELEASE : Fld := ⟨63, 0⟩
def WIT_FLOW_KEY_LO.K0 : Fld := ⟨63, 0⟩
def WIT_FLOW_KEY_HI.K1 : Fld := ⟨63, 0⟩
def WIT_FLOW_KEY_ID.KEY_ID : Fld := ⟨15, 0⟩
def WIT_EXP_CTL.PORTS_EN : Fld := ⟨6, 6⟩
def WIT_EXP_CTL.PORTS_LOG2 : Fld := ⟨5, 4⟩
def WIT_EXP_CTL.PULL_EN : Fld := ⟨3, 3⟩
def WIT_EXP_CTL.PUSH_EN : Fld := ⟨2, 2⟩
def WIT_EXP_CTL.PUSH_RINGS_LOG2 : Fld := ⟨1, 0⟩
def WIT_EXP_RING_BASE.ADDR : Fld := ⟨63, 12⟩
def WIT_EXP_RING_BASE.SIZE_LOG2 : Fld := ⟨4, 0⟩
def WIT_EXP_RING_TAIL.TAIL : Fld := ⟨31, 0⟩
def WIT_EXP_RING_HEAD.HEAD : Fld := ⟨31, 0⟩
def WIT_PULL_HEAD.HEAD : Fld := ⟨63, 0⟩
def WIT_EXP_PORT.PORT : Fld := ⟨9, 0⟩
def WIT_EXP_MAC.DMAC : Fld := ⟨47, 0⟩
def WIT_EXP_SMAC.SMAC : Fld := ⟨47, 0⟩
def WIT_STREAM_STAT.LOSS_SEEN : Fld := ⟨56, 56⟩
def WIT_STREAM_STAT.STAGING : Fld := ⟨55, 48⟩
def WIT_STREAM_STAT.NEXT_SEQ : Fld := ⟨47, 0⟩
def WIT_HEAD.HEAD : Fld := ⟨63, 0⟩
def WIT_APPLY.APPLY : Fld := ⟨0, 0⟩
def WIT_SEL.MSG : Fld := ⟨16, 16⟩
def WIT_SEL.EGR : Fld := ⟨15, 8⟩
def WIT_SEL.ING : Fld := ⟨7, 0⟩
def TOW_CFG.EN : Fld := ⟨63, 63⟩
def TOW_CFG.FREE_SYSTEM : Fld := ⟨62, 62⟩
def TOW_CFG.AUTO_HEAL : Fld := ⟨61, 61⟩
def TOW_CFG.SYSID : Fld := ⟨56, 48⟩
def TOW_CFG.TIME_PRIO : Fld := ⟨47, 40⟩
def TOW_CFG.MAX_HOPS : Fld := ⟨39, 36⟩
def TOW_CFG.DIAM : Fld := ⟨35, 32⟩
def TOW_CFG.TIME_PERIOD_US : Fld := ⟨31, 16⟩
def TOW_STATE.PEPOCH : Fld := ⟨63, 48⟩
def TOW_STATE.MASTER : Fld := ⟨47, 39⟩
def TOW_STATE.HOPS : Fld := ⟨38, 35⟩
def TOW_STATE.PARENT : Fld := ⟨34, 25⟩
def TOW_STATE.STATE : Fld := ⟨2, 0⟩
def TOW_VOTE_STAT.TOTAL : Fld := ⟨49, 32⟩
def TOW_VOTE_STAT.REACH : Fld := ⟨17, 0⟩
def TOW_CTL.HEAL : Fld := ⟨0, 0⟩
def TOW_SYS_STAT.CFG_HASH : Fld := ⟨31, 0⟩
def TOW_SLACK.MIN_NS : Fld := ⟨31, 0⟩
def TOW_APPLY.APPLY : Fld := ⟨0, 0⟩
def TOW_WEIGHT.W (k : Nat) : Fld := ⟨8 * k + 7, 8 * k⟩
def TOW_ROUTE.ALT_EN : Fld := ⟨42, 42⟩
def TOW_ROUTE.ALT_PORT : Fld := ⟨41, 32⟩
def TOW_ROUTE.USING_ALT : Fld := ⟨26, 26⟩
def TOW_ROUTE.PORT : Fld := ⟨25, 16⟩
def TOW_ROUTE.EN : Fld := ⟨0, 0⟩
def TOW_PORT_CFG.EN : Fld := ⟨63, 63⟩
def TOW_PORT_CFG.ASYM_MEAS : Fld := ⟨62, 62⟩
def TOW_PORT_CFG.ASYM_UNC_PS : Fld := ⟨47, 32⟩
def TOW_PORT_CFG.ASYM_PS : Fld := ⟨31, 0⟩
def TOW_PORT_STAT.UP : Fld := ⟨63, 63⟩
def TOW_PORT_STAT.PEER_SYSID : Fld := ⟨56, 48⟩
def TOW_PORT_STAT.PEER_PORT : Fld := ⟨41, 32⟩
def TOW_PORT_STAT.MEAN_DELAY : Fld := ⟨31, 0⟩
def TOW_PORT_OFFSET.THETA : Fld := ⟨63, 0⟩
def TOW_PORT_ASYM.COUNT : Fld := ⟨44, 32⟩
def TOW_PORT_ASYM.MEAS_PS : Fld := ⟨31, 0⟩
def SEC_STATUS.OWNER_STEPS_LEFT : Fld := ⟨63, 56⟩
def SEC_STATUS.FAILED_TEST : Fld := ⟨39, 32⟩
def SEC_STATUS.SESSION : Fld := ⟨7, 7⟩
def SEC_STATUS.OWNED : Fld := ⟨6, 6⟩
def SEC_STATUS.LDEV : Fld := ⟨5, 5⟩
def SEC_STATUS.APPROVED : Fld := ⟨4, 4⟩
def SEC_STATUS.CAL_OK : Fld := ⟨3, 3⟩
def SEC_STATUS.ERROR : Fld := ⟨2, 2⟩
def SEC_STATUS.SELFTEST : Fld := ⟨1, 1⟩
def SEC_STATUS.READY : Fld := ⟨0, 0⟩
def SEC_CFG.SESSION_IDLE_S : Fld := ⟨31, 16⟩
def SEC_CFG.PERIODIC_H : Fld := ⟨15, 8⟩
def SEC_CFG.ATTEST_LDEV : Fld := ⟨0, 0⟩
def SEC_OP.BUSY : Fld := ⟨63, 63⟩
def SEC_OP.STATUS : Fld := ⟨55, 48⟩
def SEC_OP.LAST_OP : Fld := ⟨47, 40⟩
def SEC_OP.ARG : Fld := ⟨39, 8⟩
def SEC_OP.OP : Fld := ⟨7, 0⟩
def SEC_ATTEST_CTL.STATUS : Fld := ⟨11, 8⟩
def SEC_ATTEST_CTL.GO : Fld := ⟨0, 0⟩
def SEC_DENY.SEEN : Fld := ⟨63, 63⟩
def SEC_DENY.ROLE : Fld := ⟨55, 54⟩
def SEC_DENY.KIND : Fld := ⟨53, 51⟩
def SEC_DENY.ADDR : Fld := ⟨31, 0⟩
def SEC_NONCE.NONCE : Fld := ⟨63, 0⟩
def SEC_ATTEST_NONCE.NONCE : Fld := ⟨63, 0⟩
def SEC_SIG.SIG : Fld := ⟨63, 0⟩
def SEC_ID.ID : Fld := ⟨63, 0⟩
def SEC_PROT_HASH.HASH : Fld := ⟨63, 0⟩
def SEC_CERT_LEN.LEN : Fld := ⟨11, 0⟩
def SEC_LDEV.DATA : Fld := ⟨63, 0⟩
def SEC_ATTEST_REPORT.DATA : Fld := ⟨63, 0⟩
def SEC_CERT.DATA : Fld := ⟨63, 0⟩
def SEC_OWNER_BUF.DATA : Fld := ⟨63, 0⟩
def SEC_PROT_STAGE.WORD : Fld := ⟨63, 0⟩
def SEC_PROT_ACTIVE.WORD : Fld := ⟨63, 0⟩
def CFG_READY.SLICE : Fld := ⟨31, 16⟩
def CFG_READY.READY : Fld := ⟨15, 0⟩
def CFG_BOOT_STAT.IMAGE_VER : Fld := ⟨63, 32⟩
def CFG_BOOT_STAT.CODE_B : Fld := ⟨23, 20⟩
def CFG_BOOT_STAT.CODE_A : Fld := ⟨19, 16⟩
def CFG_BOOT_STAT.NO_IMAGE : Fld := ⟨1, 1⟩
def CFG_BOOT_STAT.SLOT : Fld := ⟨0, 0⟩
def CFG_LOAD_STAT.FAIL_SECTION : Fld := ⟨47, 40⟩
def CFG_LOAD_STAT.CODE : Fld := ⟨39, 36⟩
def CFG_LOAD_STAT.DETAIL : Fld := ⟨31, 16⟩
def CFG_LOAD_STAT.SECTIONS_DONE : Fld := ⟨15, 8⟩
def CFG_LOAD_STAT.PHASE : Fld := ⟨3, 0⟩
def CFG_RESET_CAUSE.COUNT : Fld := ⟨63, 32⟩
def CFG_RESET_CAUSE.FALLBACK : Fld := ⟨5, 5⟩
def CFG_RESET_CAUSE.PLL : Fld := ⟨4, 4⟩
def CFG_RESET_CAUSE.SOFT : Fld := ⟨3, 3⟩
def CFG_RESET_CAUSE.FAULT : Fld := ⟨2, 2⟩
def CFG_RESET_CAUSE.PIN : Fld := ⟨1, 1⟩
def CFG_RESET_CAUSE.POWER : Fld := ⟨0, 0⟩
def CFG_RESET.BLOCK : Fld := ⟨36, 32⟩
def CFG_RESET.BLK : Fld := ⟨8, 8⟩
def CFG_RESET.CHIP : Fld := ⟨0, 0⟩
def CFG_NVM_CTL.BUSY : Fld := ⟨8, 8⟩
def CFG_NVM_CTL.STATUS : Fld := ⟨7, 4⟩
def CFG_NVM_CTL.TRY_OTHER : Fld := ⟨2, 2⟩
def CFG_NVM_CTL.PREF : Fld := ⟨1, 1⟩
def CFG_NVM_ADDR.ADDR : Fld := ⟨27, 0⟩
def CFG_NVM_HOST.ADDR : Fld := ⟨63, 0⟩
def CFG_NVM_CMD.LENGTH : Fld := ⟨39, 8⟩
def CFG_NVM_CMD.OP : Fld := ⟨2, 0⟩
def CFG_IMAGE_DIGEST.DIGEST : Fld := ⟨63, 0⟩
def HIF_LINK_STAT.VFS : Fld := ⟨37, 32⟩
def HIF_LINK_STAT.DOWNS : Fld := ⟨31, 16⟩
def HIF_LINK_STAT.UP : Fld := ⟨10, 10⟩
def HIF_LINK_STAT.FLIT : Fld := ⟨9, 9⟩
def HIF_LINK_STAT.WIDTH : Fld := ⟨8, 4⟩
def HIF_LINK_STAT.SPEED : Fld := ⟨3, 0⟩
def HIF_READ_TIME.T_LO : Fld := ⟨63, 0⟩
def HIF_READ_TIME_HI.T_HI : Fld := ⟨31, 0⟩
def HIF_DMA_CFG.EN : Fld := ⟨63, 63⟩
def HIF_DMA_CFG.EVQ : Fld := ⟨22, 16⟩
def HIF_DMA_CFG.CPL_EVT : Fld := ⟨15, 15⟩
def HIF_DMA_CFG.FUNC : Fld := ⟨9, 4⟩
def HIF_DMA_CFG.USE : Fld := ⟨2, 0⟩
def HIF_DMA_DESC_BASE.ADDR : Fld := ⟨63, 12⟩
def HIF_DMA_DESC_BASE.SIZE_LOG2 : Fld := ⟨3, 0⟩
def HIF_DMA_CPL_BASE.ADDR : Fld := ⟨63, 12⟩
def HIF_DMA_CPL_BASE.SIZE_LOG2 : Fld := ⟨3, 0⟩
def HIF_DMA_IDX.CPL_TAIL : Fld := ⟨63, 48⟩
def HIF_DMA_IDX.DESC_HEAD : Fld := ⟨47, 32⟩
def HIF_DMA_IDX.ARM : Fld := ⟨16, 16⟩
def HIF_DMA_IDX.CPL_HEAD : Fld := ⟨15, 0⟩
def HIF_DMA_TAIL.DESC_TAIL : Fld := ⟨15, 0⟩
def HIF_DMA_STAT.ERR : Fld := ⟨63, 63⟩
def HIF_DMA_STAT.ERR_CODE : Fld := ⟨15, 8⟩
def HIF_DMA_STAT.PAUSED : Fld := ⟨1, 1⟩
def HIF_DMA_STAT.HALTED : Fld := ⟨0, 0⟩
def EVQ_CFG.EN : Fld := ⟨63, 63⟩
def EVQ_CFG.FUNC : Fld := ⟨61, 56⟩
def EVQ_CFG.VECTOR : Fld := ⟨42, 32⟩
def EVQ_CFG.MOD_US : Fld := ⟨25, 16⟩
def EVQ_BASE.ADDR : Fld := ⟨63, 12⟩
def EVQ_BASE.SIZE_LOG2 : Fld := ⟨4, 0⟩
def EVQ_IDX.TAIL : Fld := ⟨51, 32⟩
def EVQ_IDX.ARM : Fld := ⟨20, 20⟩
def EVQ_IDX.HEAD : Fld := ⟨19, 0⟩
def EVQ_STAT.OVERRUN : Fld := ⟨63, 63⟩
def EVQ_STAT.OWED : Fld := ⟨62, 62⟩
def EVQ_STAT.ARMED : Fld := ⟨61, 61⟩
def EVQ_STAT.STAGED : Fld := ⟨54, 48⟩
def EVQ_STAT.LOST : Fld := ⟨31, 0⟩
def EVQ_ROUTE.EN : Fld := ⟨63, 63⟩
def EVQ_ROUTE.QUEUE : Fld := ⟨6, 0⟩
def HBM_CTL.SR_IDLE_US : Fld := ⟨31, 16⟩
def HBM_CTL.REF_POSTPONE : Fld := ⟨15, 8⟩
def HBM_CTL.SR_EN : Fld := ⟨1, 1⟩
def HBM_WM.HIGH : Fld := ⟨15, 8⟩
def HBM_WM.LOW : Fld := ⟨7, 0⟩
def HBM_STAT.TEMP_C : Fld := ⟨63, 56⟩
def HBM_STAT.PANIC : Fld := ⟨3, 3⟩
def HBM_STAT.HOT : Fld := ⟨2, 2⟩
def HBM_STAT.SELF_REFRESH : Fld := ⟨1, 1⟩
def HBM_STAT.TRAINED : Fld := ⟨0, 0⟩
def HBM_ECC_STAT.UNCORR : Fld := ⟨63, 63⟩
def HBM_ECC_STAT.LINE : Fld := ⟨29, 0⟩
def HBM_CAP_CFG.EN : Fld := ⟨63, 63⟩
def HBM_CAP_CFG.FREEZE : Fld := ⟨62, 62⟩
def HBM_CAP_CFG.SESSIONS : Fld := ⟨15, 0⟩
def HBM_CAP_RING.SIZE : Fld := ⟨55, 32⟩
def HBM_CAP_RING.BASE : Fld := ⟨23, 0⟩
def HBM_CAP_STAT.WRAPS : Fld := ⟨63, 40⟩
def HBM_CAP_STAT.WR_OFF : Fld := ⟨39, 0⟩
def HBM_CAP_WIN.SEG : Fld := ⟨3, 0⟩
def HBM_APPLY.APPLY : Fld := ⟨0, 0⟩
def SCP_OWNER.BUSY : Fld := ⟨63, 63⟩
def SCP_OWNER.BAD : Fld := ⟨62, 62⟩
def SCP_OWNER.CLEAR : Fld := ⟨16, 16⟩
def SCP_OWNER.OWNER_B : Fld := ⟨13, 8⟩
def SCP_OWNER.OWNER : Fld := ⟨5, 0⟩
def SCP_MARCH_CFG.EN : Fld := ⟨0, 0⟩
def SCP_MARCH_STAT.SWEEPS : Fld := ⟨63, 32⟩
def SCP_MARCH_STAT.FAIL : Fld := ⟨31, 31⟩
def SCP_MARCH_STAT.LAST_BAD : Fld := ⟨18, 0⟩
def FLT_STATUS.LAST_SOURCE : Fld := ⟨31, 20⟩
def FLT_STATUS.FACTORY_TEST : Fld := ⟨7, 7⟩
def FLT_STATUS.LANTERN_MISMATCH : Fld := ⟨5, 5⟩
def FLT_STATUS.LANTERN : Fld := ⟨4, 4⟩
def FLT_STATUS.FERRY : Fld := ⟨3, 2⟩
def FLT_CTL.LANTERN_TEST : Fld := ⟨0, 0⟩
def FLT_LAST_CHIP.VALID : Fld := ⟨12, 12⟩
def FLT_LAST_CHIP.SOURCE : Fld := ⟨11, 0⟩
def FLT_FERRY_CFG.AUTO_EXIT : Fld := ⟨24, 24⟩
def FLT_FERRY_CFG.MAX_PER_HOUR : Fld := ⟨23, 16⟩
def FLT_FERRY_CFG.QUIET_S : Fld := ⟨15, 0⟩
def FLT_FERRY_CTL.RELEASE : Fld := ⟨1, 1⟩
def FLT_FERRY_CTL.ENTER : Fld := ⟨0, 0⟩
def FLT_FERRY_STAT.EXITS : Fld := ⟨63, 48⟩
def FLT_FERRY_STAT.EXITS_HOUR : Fld := ⟨47, 40⟩
def FLT_FERRY_STAT.CAUSE : Fld := ⟨31, 20⟩
def FLT_FERRY_STAT.QUIET_LEFT_S : Fld := ⟨15, 0⟩
def FLT_INJECT.GO : Fld := ⟨12, 12⟩
def FLT_INJECT.SOURCE : Fld := ⟨11, 0⟩
def FLT_STICKY.S (i : Nat) : Fld := ⟨i + 0, i⟩
def FLT_INFAULT.F (i : Nat) : Fld := ⟨i + 0, i⟩
def FLT_FERRY_MAP.TRAILER : Fld := ⟨17, 17⟩
def FLT_FERRY_MAP.EN : Fld := ⟨16, 16⟩
def FLT_FERRY_MAP.EGRESS : Fld := ⟨9, 0⟩
def FLT_SRC_CFG.QUIET_MS : Fld := ⟨31, 16⟩
def FLT_SRC_CFG.KIND : Fld := ⟨8, 8⟩
def FLT_SRC_CFG.KCORE : Fld := ⟨7, 6⟩
def FLT_SRC_CFG.REACT : Fld := ⟨5, 0⟩
def CND_CFG.REPLAN_H : Fld := ⟨47, 32⟩
def CND_CFG.EYE_S : Fld := ⟨31, 16⟩
def CND_CFG.MEAS_S : Fld := ⟨15, 0⟩
def CND_EYE_CFG.LIFE_WARN_KH : Fld := ⟨39, 32⟩
def CND_EYE_CFG.EYE_GUARD_MUI : Fld := ⟨31, 16⟩
def CND_EYE_CFG.EYE_MIN_MUI : Fld := ⟨15, 0⟩
def CND_PLAN.SEQ : Fld := ⟨63, 48⟩
def CND_PLAN.AGE_PS : Fld := ⟨47, 32⟩
def CND_PLAN.V_FUSE : Fld := ⟨31, 16⟩
def CND_PLAN.V_TARGET : Fld := ⟨15, 0⟩
def CND_LIFE.REMAIN_H : Fld := ⟨63, 32⟩
def CND_LIFE.REMAIN_95_H : Fld := ⟨31, 0⟩
def CND_CTL.REPLAN : Fld := ⟨0, 0⟩
def CND_CANDLE.TEMP_C : Fld := ⟨63, 56⟩
def CND_CANDLE.DEG_PPM : Fld := ⟨31, 0⟩
def CND_REPLICA.FACTORY : Fld := ⟨63, 32⟩
def CND_REPLICA.DELAY : Fld := ⟨31, 0⟩
def CND_MARGIN.MARGIN (l : Nat) : Fld := ⟨3 * l + 2, 3 * l⟩
def KPR_STATUS.FW_VER : Fld := ⟨63, 32⟩
def KPR_STATUS.WDOG_FIRED : Fld := ⟨2, 2⟩
def KPR_STATUS.HALTED : Fld := ⟨1, 1⟩
def KPR_STATUS.RUNNING : Fld := ⟨0, 0⟩
def KPR_CMD_DATA.WORD : Fld := ⟨63, 0⟩
def KPR_CMD_STAT.OVERRUN : Fld := ⟨63, 63⟩
def KPR_CMD_STAT.LEVEL : Fld := ⟨8, 0⟩
def KPR_WDOG_CFG.TIMEOUT_MS : Fld := ⟨15, 0⟩
def PMC_SNAP_TIME.T_LO : Fld := ⟨63, 0⟩
def PMC_SNAP_TIME_HI.T_HI : Fld := ⟨31, 0⟩
def PMC_SNAP_CTL.ARM : Fld := ⟨63, 63⟩
def PMC_SNAP_CTL.CANCEL : Fld := ⟨62, 62⟩
def PMC_SNAP_CTL.CHANNEL : Fld := ⟨57, 54⟩
def PMC_SNAP_CTL.PERIOD_MS : Fld := ⟨53, 40⟩
def PMC_SNAP_CTL.BLOCKS : Fld := ⟨23, 0⟩
def PMC_SNAP_STAT.STATE : Fld := ⟨63, 62⟩
def PMC_SNAP_STAT.LAST_STATUS : Fld := ⟨59, 56⟩
def PMC_SNAP_STAT.SEQ : Fld := ⟨31, 0⟩
def PMC_BLOCK_SIZE.COUNT : Fld := ⟨18, 0⟩
def PMC_SAMPLE_CFG.EN : Fld := ⟨63, 63⟩
def PMC_SAMPLE_CFG.COUNTER : Fld := ⟨55, 32⟩
def PMC_SAMPLE_CFG.PERIOD : Fld := ⟨31, 0⟩
def PMC_SAMPLE_IDX.TAIL : Fld := ⟨47, 32⟩
def PMC_SAMPLE_IDX.HEAD : Fld := ⟨15, 0⟩
def PMC_SAMPLE_RING.WORD : Fld := ⟨63, 0⟩
end F

/-! ## The table, one list per block -/
/-- The registers of block CFG. -/
def regsCFG : List RegD :=
  [⟨0x0, [], 0x0, [], 0xFFFFFFFF⟩,
   ⟨0x8, [], 0x0, [], 0xFFFFFFFF00FF0003⟩,
   ⟨0x10, [], 0xFF0000000000, [], 0xFFF0FFFFFF0F⟩,
   ⟨0x18, [], 0x1, [⟨5, 5, .w1c, false⟩, ⟨4, 4, .w1c, false⟩, ⟨3, 3, .w1c, false⟩, ⟨2, 2, .w1c, false⟩, ⟨1, 1, .w1c, false⟩, ⟨0, 0, .w1c, false⟩], 0xFFFFFFFF0000003F⟩,
   ⟨0x20, [], 0x0, [⟨36, 32, .rw, true⟩, ⟨8, 8, .act, true⟩, ⟨0, 0, .act, true⟩], 0x1F00000101⟩,
   ⟨0x28, [], 0x0, [⟨2, 2, .rw, true⟩, ⟨1, 1, .rw, true⟩], 0x1F6⟩,
   ⟨0x30, [], 0x0, [⟨27, 0, .rw, true⟩], 0xFFFFFFF⟩,
   ⟨0x38, [], 0x0, [⟨63, 0, .rw, true⟩], 0xFFFFFFFFFFFFFFFF⟩,
   ⟨0x40, [], 0x0, [⟨39, 8, .rw, true⟩, ⟨2, 0, .act, true⟩], 0xFFFFFFFF07⟩,
   ⟨0x100, [(0x8, 6)], 0x0, [], 0xFFFFFFFFFFFFFFFF⟩]
/-- The registers of block SEC, part 0. -/
def regsSEC0 : List RegD :=
  [⟨0x100000, [], 0x0, [], 0xFF0000FF000000FF⟩,
   ⟨0x100008, [], 0x3841800, [⟨31, 16, .rw, true⟩, ⟨15, 8, .rw, true⟩, ⟨0, 0, .rw, true⟩], 0xFFFFFF01⟩,
   ⟨0x100010, [], 0x0, [⟨39, 8, .rw, false⟩, ⟨7, 0, .act, false⟩], 0x80FFFFFFFFFFFFFF⟩,
   ⟨0x100018, [], 0x0, [⟨0, 0, .act, false⟩], 0xF01⟩,
   ⟨0x100020, [], 0x0, [⟨63, 63, .w1c, false⟩], 0x80F80000FFFFFFFF⟩,
   ⟨0x100040, [(0x8, 4)], 0x0, [], 0xFFFFFFFFFFFFFFFF⟩,
   ⟨0x100060, [(0x8, 4)], 0x0, [⟨63, 0, .rw, false⟩], 0xFFFFFFFFFFFFFFFF⟩,
   ⟨0x100080, [(0x8, 12)], 0x0, [⟨63, 0, .rw, false⟩], 0xFFFFFFFFFFFFFFFF⟩,
   ⟨0x100100, [(0x8, 4)], 0x0, [], 0xFFFFFFFFFFFFFFFF⟩,
   ⟨0x100120, [(0x8, 4)], 0x0, [], 0xFFFFFFFFFFFFFFFF⟩,
   ⟨0x100200, [(0x8, 5)], 0x0, [], 0xFFF⟩,
   ⟨0x100900, [(0x8, 24)], 0x0, [], 0xFFFFFFFFFFFFFFFF⟩]
/-- The registers of block SEC, part 1. -/
def regsSEC1 : List RegD :=
  [⟨0x100C00, [(0x8, 116)], 0x0, [], 0xFFFFFFFFFFFFFFFF⟩,
   ⟨0x101000, [(0x1000, 5), (0x8, 512)], 0x0, [], 0xFFFFFFFFFFFFFFFF⟩,
   ⟨0x106000, [(0x8, 512)], 0x0, [⟨63, 0, .act, false⟩], 0xFFFFFFFFFFFFFFFF⟩,
   ⟨0x108000, [(0x10, 256), (0x8, 2)], 0x0, [⟨63, 0, .rw, true⟩], 0xFFFFFFFFFFFFFFFF⟩,
   ⟨0x109000, [(0x10, 256), (0x8, 2)], 0x0, [], 0xFFFFFFFFFFFFFFFF⟩]
/-- The registers of block SEC. -/
def regsSEC : List RegD := regsSEC0 ++ regsSEC1
/-- The registers of block TIM, part 0. -/
def regsTIM0 : List RegD :=
  [⟨0x200000, [], 0x0, [], 0xFFFFFFFFFFFFFFFF⟩,
   ⟨0x200008, [], 0x0, [], 0xFFFFFFFF⟩,
   ⟨0x200010, [], 0xFF0000, [], 0xFFFFFFFFFFFF03FF⟩,
   ⟨0x200018, [], 0x0, [⟨39, 39, .act, true⟩, ⟨38, 38, .stg, false⟩, ⟨37, 37, .stg, false⟩, ⟨36, 36, .stg, false⟩, ⟨35, 26, .stg, false⟩, ⟨25, 16, .stg, false⟩, ⟨15, 6, .stg, false⟩, ⟨5, 4, .stg, false⟩, ⟨0, 0, .rw, true⟩], 0xFFFFFFFFF1⟩,
   ⟨0x200020, [], 0x1400000000000, [⟨63, 0, .rw, false⟩], 0xFFFFFFFFFFFFFFFF⟩,
   ⟨0x200028, [], 0x0, [⟨63, 48, .rw, false⟩, ⟨47, 0, .rw, false⟩], 0xFFFFFFFFFFFFFFFF⟩,
   ⟨0x200030, [], 0x0, [⟨63, 0, .rw, false⟩], 0xFFFFFFFFFFFFFFFF⟩,
   ⟨0x200038, [], 0x30003E8102710, [⟨63, 56, .stg, false⟩, ⟨55, 48, .stg, false⟩, ⟨47, 24, .stg, false⟩, ⟨23, 16, .stg, false⟩, ⟨15, 0, .stg, false⟩], 0xFFFFFFFFFFFFFFFF⟩,
   ⟨0x200040, [], 0x0, [⟨16, 16, .stg, false⟩, ⟨15, 12, .stg, false⟩, ⟨11, 8, .stg, false⟩, ⟨7, 4, .stg, false⟩, ⟨3, 0, .stg, false⟩], 0x1FFFF⟩,
   ⟨0x200048, [], 0x0, [⟨63, 63, .rw, false⟩, ⟨47, 0, .rw, false⟩], 0x8000FFFFFFFFFFFF⟩,
   ⟨0x200050, [], 0x0, [], 0xFFFFFFFFFFFFFFFF⟩,
   ⟨0x200058, [], 0x0, [], 0xFFFFFFFFFFFFFFFF⟩]
/-- The registers of block TIM, part 1. -/
def regsTIM1 : List RegD :=
  [⟨0x200060, [], 0x0, [⟨47, 40, .rw, false⟩, ⟨39, 8, .rw, false⟩, ⟨0, 0, .rw, false⟩], 0xFFFFFFFFFF01⟩,
   ⟨0x200068, [], 0x0, [⟨47, 40, .rw, false⟩, ⟨39, 8, .rw, false⟩, ⟨0, 0, .rw, false⟩], 0xFFFFFFFFFF01⟩,
   ⟨0x200070, [], 0x100006401F4, [⟨63, 40, .stg, false⟩, ⟨39, 16, .stg, false⟩, ⟨15, 0, .stg, false⟩], 0xFFFFFFFFFFFFFFFF⟩,
   ⟨0x200078, [], 0x960258003C, [⟨47, 32, .stg, false⟩, ⟨31, 16, .stg, false⟩, ⟨15, 0, .stg, false⟩], 0xFFFFFFFFFFFF⟩,
   ⟨0x200080, [], 0x0, [⟨18, 18, .rw, false⟩, ⟨17, 17, .rw, false⟩, ⟨16, 16, .rw, false⟩, ⟨15, 0, .rw, false⟩], 0x7FFFF⟩,
   ⟨0x200088, [], 0x0, [⟨0, 0, .act, false⟩], 0x1⟩,
   ⟨0x200090, [], 0xFFFFFFFF, [⟨31, 0, .rw, false⟩], 0xFFFFFFFF⟩,
   ⟨0x200098, [], 0x0, [⟨47, 0, .rw, false⟩], 0xFFFFFFFFFFFF⟩,
   ⟨0x210000, [(0x10, 129)], 0x0, [], 0xFFFFFFFFFFFF⟩,
   ⟨0x210008, [(0x10, 129)], 0x0, [⟨32, 32, .w1c, false⟩], 0x1FFFFFFFF⟩,
   ⟨0x220000, [(0x20, 514)], 0x0, [], 0xFFFFFFFFFFFFFFFF⟩,
   ⟨0x220008, [(0x20, 514)], 0x0, [], 0xFFFFFFFFFFFFFFFF⟩]
/-- The registers of block TIM, part 2. -/
def regsTIM2 : List RegD :=
  [⟨0x220010, [(0x20, 514)], 0xFF0000000000, [], 0xFF03FFFFFFFF⟩,
   ⟨0x230000, [(0x8, 514)], 0x0, [⟨39, 8, .rw, false⟩, ⟨6, 6, .rw, false⟩, ⟨5, 4, .rw, false⟩, ⟨3, 2, .rw, false⟩, ⟨1, 1, .rw, false⟩, ⟨0, 0, .rw, false⟩], 0xFFFFFFFF7F⟩]
/-- The registers of block TIM. -/
def regsTIM : List RegD := regsTIM0 ++ regsTIM1 ++ regsTIM2
/-- The registers of block PRT. -/
def regsPRT : List RegD :=
  [⟨0x400000, [(0x1000, 512)], 0x5EE00008000, [⟨45, 32, .stg, false⟩, ⟨18, 16, .stg, false⟩, ⟨15, 15, .rw, false⟩, ⟨14, 14, .hlt, false⟩, ⟨13, 12, .hlt, false⟩, ⟨11, 8, .hlt, false⟩, ⟨0, 0, .rw, false⟩], 0x3FFF0007FF01⟩,
   ⟨0x400800, [(0x1000, 2)], 0x5EE00008100, [⟨45, 32, .stg, false⟩, ⟨18, 16, .stg, false⟩, ⟨15, 15, .rw, false⟩, ⟨0, 0, .rw, false⟩], 0x3FFF00078001⟩,
   ⟨0x400008, [(0x1000, 512)], 0x1, [], 0xFFFF00FF⟩,
   ⟨0x400808, [(0x1000, 2)], 0x1, [], 0xFFFF00FF⟩,
   ⟨0x400010, [(0x1000, 512)], 0x0, [], 0xFFFFFFFF⟩,
   ⟨0x400810, [(0x1000, 2)], 0x0, [], 0xFFFFFFFF⟩,
   ⟨0x400C00, [(0x8000, 64)], 0x3, [⟨1, 0, .hlt, false⟩], 0x3⟩,
   ⟨0x400FF8, [], 0x0, [⟨0, 0, .act, false⟩], 0x1⟩]
/-- The registers of block SER. -/
def regsSER : List RegD :=
  [⟨0x600000, [(0x1000, 512)], 0x0, [⟨2, 2, .hlt, false⟩, ⟨1, 1, .hlt, false⟩, ⟨0, 0, .hlt, false⟩], 0x7⟩,
   ⟨0x600800, [(0x1000, 2)], 0x0, [⟨2, 2, .hlt, false⟩, ⟨1, 1, .hlt, false⟩, ⟨0, 0, .hlt, false⟩], 0x7⟩,
   ⟨0x600008, [(0x1000, 512)], 0x0, [], 0xFF00FFFF0003⟩,
   ⟨0x600808, [(0x1000, 2)], 0x0, [], 0xFF00FFFF0003⟩,
   ⟨0x600010, [(0x1000, 512)], 0x0, [], 0xFFFFFFFF⟩,
   ⟨0x600810, [(0x1000, 2)], 0x0, [], 0xFFFFFFFF⟩,
   ⟨0x600018, [(0x1000, 512)], 0x0, [], 0xFFFF0000FFFFFFFF⟩,
   ⟨0x600818, [(0x1000, 2)], 0x0, [], 0xFFFF0000FFFFFFFF⟩]
/-- The registers of block PRS, part 0. -/
def regsPRS0 : List RegD :=
  [⟨0x800000, [(0x10000, 16)], 0x100, [⟨15, 0, .stg, false⟩], 0xFFFF⟩,
   ⟨0x800008, [(0x10000, 16)], 0x0, [⟨3, 0, .stg, false⟩, ⟨7, 4, .stg, false⟩, ⟨11, 8, .stg, false⟩, ⟨15, 12, .stg, false⟩, ⟨19, 16, .stg, false⟩, ⟨23, 20, .stg, false⟩, ⟨27, 24, .stg, false⟩, ⟨31, 28, .stg, false⟩, ⟨35, 32, .stg, false⟩, ⟨39, 36, .stg, false⟩, ⟨43, 40, .stg, false⟩, ⟨47, 44, .stg, false⟩, ⟨51, 48, .stg, false⟩, ⟨55, 52, .stg, false⟩, ⟨59, 56, .stg, false⟩, ⟨63, 60, .stg, false⟩], 0xFFFFFFFFFFFFFFFF⟩,
   ⟨0x800010, [(0x10000, 16)], 0x0, [⟨3, 0, .stg, false⟩, ⟨7, 4, .stg, false⟩, ⟨11, 8, .stg, false⟩, ⟨15, 12, .stg, false⟩, ⟨19, 16, .stg, false⟩, ⟨23, 20, .stg, false⟩, ⟨27, 24, .stg, false⟩, ⟨31, 28, .stg, false⟩, ⟨35, 32, .stg, false⟩, ⟨39, 36, .stg, false⟩, ⟨43, 40, .stg, false⟩, ⟨47, 44, .stg, false⟩, ⟨51, 48, .stg, false⟩, ⟨55, 52, .stg, false⟩, ⟨59, 56, .stg, false⟩, ⟨63, 60, .stg, false⟩], 0xFFFFFFFFFFFFFFFF⟩,
   ⟨0x800018, [], 0x0, [⟨7, 4, .stg, false⟩, ⟨3, 0, .stg, false⟩], 0xFF⟩,
   ⟨0x800020, [(0x10000, 16)], 0x0, [], 0x7F7F⟩,
   ⟨0x800100, [(0x10000, 16), (0x10, 16)], 0x4000040020, [⟨40, 32, .stg, false⟩, ⟨26, 25, .stg, false⟩, ⟨24, 24, .stg, false⟩, ⟨20, 16, .stg, false⟩, ⟨13, 0, .stg, false⟩], 0x1FF071F3FFF⟩,
   ⟨0x800108, [(0x10000, 16), (0x10, 16)], 0x2A00080008, [], 0x1FFFFFFFFFF⟩,
   ⟨0x900000, [], 0x0, [], 0xFFFFFFFF⟩,
   ⟨0x900008, [], 0x0, [], 0xFFFFFFFFFFFFFFFF⟩,
   ⟨0x900010, [], 0x0, [⟨0, 0, .stg, true⟩], 0x30101⟩,
   ⟨0x900018, [], 0x0, [⟨63, 3, .rw, true⟩], 0xFFFFFFFFFFFFFFF8⟩,
   ⟨0x900020, [], 0xFFFF0000, [⟨0, 0, .act, true⟩], 0xFFFF00F1⟩]
/-- The registers of block PRS, part 1. -/
def regsPRS1 : List RegD :=
  [⟨0x900028, [], 0x0, [⟨8, 8, .rw, false⟩, ⟨3, 0, .rw, false⟩], 0x10F⟩,
   ⟨0x900030, [], 0x0, [⟨0, 0, .act, false⟩], 0x1⟩,
   ⟨0x900100, [(0x8, 32)], 0x0, [], 0x80FF3FFF⟩,
   ⟨0x980000, [(0x20, 16384)], 0x0, [], 0xFFFFFFFFFFFFFFFF⟩,
   ⟨0x980008, [(0x20, 16384)], 0x0, [], 0xFFFFFFFFFFFFFFFF⟩,
   ⟨0x980010, [(0x20, 16384)], 0x0, [], 0xFFFFFFFFFFFFFFFF⟩,
   ⟨0x980018, [(0x20, 16384)], 0x0, [], 0x1FF⟩]
/-- The registers of block PRS. -/
def regsPRS : List RegD := regsPRS0 ++ regsPRS1
/-- The registers of block XMT. -/
def regsXMT : List RegD :=
  [⟨0xA00000, [(0x10, 16)], 0x0, [⟨42, 24, .stg, false⟩, ⟨20, 16, .stg, false⟩, ⟨0, 0, .stg, false⟩], 0x7FFFF1F0001⟩,
   ⟨0xA00008, [(0x10, 16)], 0x0, [], 0x1FFFFFFFFFF⟩,
   ⟨0xA00100, [], 0x0, [], 0xFFFFFFFFFFFFFFFF⟩,
   ⟨0xA00108, [], 0x384000003E8, [⟨41, 32, .stg, false⟩, ⟨19, 0, .stg, false⟩], 0x3FF000FFFFF⟩,
   ⟨0xA00110, [], 0x0, [⟨16, 16, .w1c, false⟩], 0x11FFF⟩,
   ⟨0xA00FF8, [], 0x0, [⟨0, 0, .act, false⟩], 0x1⟩]
/-- The registers of block TCM. -/
def regsTCM : List RegD :=
  [⟨0xB00000, [(0x10, 16)], 0x0, [⟨63, 63, .stg, false⟩, ⟨36, 32, .stg, false⟩, ⟨31, 23, .stg, false⟩, ⟨22, 22, .stg, false⟩, ⟨16, 8, .stg, false⟩, ⟨7, 0, .stg, false⟩], 0x8000001FFFC1FFFF⟩,
   ⟨0xB00008, [(0x10, 16)], 0x0, [], 0x1FFFFF⟩,
   ⟨0xB00100, [], 0x7D0, [⟨15, 0, .stg, false⟩], 0xFFFF⟩,
   ⟨0xB00108, [], 0x0, [⟨63, 63, .w1c, false⟩], 0x800FFFFFFFFFFFFF⟩,
   ⟨0xB00110, [], 0x0, [], 0x800FFFFF000FFFFF⟩,
   ⟨0xB00FF8, [], 0x0, [⟨0, 0, .act, false⟩], 0x1⟩]
/-- The registers of block FWD. -/
def regsFWD : List RegD :=
  [⟨0xC00000, [(0x10, 16)], 0x0, [⟨63, 63, .stg, false⟩, ⟨62, 59, .stg, false⟩, ⟨58, 53, .stg, false⟩, ⟨52, 52, .stg, false⟩, ⟨51, 48, .stg, false⟩, ⟨47, 42, .stg, false⟩, ⟨41, 41, .stg, false⟩, ⟨40, 40, .stg, false⟩, ⟨39, 36, .stg, false⟩, ⟨35, 30, .stg, false⟩, ⟨29, 29, .stg, false⟩, ⟨28, 25, .stg, false⟩, ⟨24, 19, .stg, false⟩, ⟨18, 18, .stg, false⟩, ⟨17, 10, .stg, false⟩, ⟨9, 8, .stg, false⟩, ⟨7, 0, .stg, false⟩], 0xFFFFFFFFFFFFFFFF⟩,
   ⟨0xC00008, [(0x10, 16)], 0x0, [⟨12, 12, .stg, false⟩, ⟨11, 6, .stg, false⟩, ⟨5, 0, .stg, false⟩], 0x1FFF⟩,
   ⟨0xC00100, [], 0x0, [⟨63, 7, .rw, false⟩], 0xFFFFFFFFFFFFFF80⟩,
   ⟨0xC00108, [], 0x4, [⟨31, 16, .rw, false⟩, ⟨5, 5, .rw, false⟩, ⟨4, 0, .rw, false⟩], 0xFFFFFFFF003F⟩,
   ⟨0xC00200, [(0x8, 16)], 0x0, [⟨24, 24, .rw, false⟩, ⟨23, 10, .rw, false⟩, ⟨9, 0, .rw, false⟩], 0x1FFFFFF⟩,
   ⟨0xC00400, [(0x8, 64)], 0x0, [⟨1, 0, .rw, false⟩], 0x3⟩,
   ⟨0xC00600, [(0x8, 64)], 0x0, [], 0x8000000000000003⟩,
   ⟨0xC00800, [], 0x0, [⟨5, 0, .act, true⟩], 0x3F⟩,
   ⟨0xC01000, [(0x8, 256)], 0x0, [⟨26, 26, .rw, false⟩, ⟨25, 6, .rw, false⟩, ⟨4, 1, .rw, false⟩, ⟨0, 0, .rw, false⟩], 0x7FFFFDF⟩,
   ⟨0xC00FF8, [], 0x0, [⟨0, 0, .act, false⟩], 0x1⟩,
   ⟨0xC80000, [], 0x0, [], 0x1FFFF⟩]
/-- The registers of block VER. -/
def regsVER : List RegD :=
  [⟨0xD00000, [], 0x0, [], 0xFFFFFFFFFFFFFFFF⟩,
   ⟨0xD00008, [], 0x0, [], 0xFFFFFFFFFFFFFFFF⟩,
   ⟨0xD00010, [], 0x0, [], 0xFFFFFFFF⟩,
   ⟨0xD00018, [], 0x0, [⟨63, 0, .rw, false⟩], 0xFFFFFFFFFFFFFFFF⟩,
   ⟨0xD00020, [], 0x0, [⟨31, 0, .rw, false⟩], 0xFFFFFFFF⟩,
   ⟨0xD00028, [], 0x0, [⟨23, 0, .rw, false⟩], 0xFFFFFF⟩,
   ⟨0xD00030, [], 0x0, [⟨2, 0, .act, false⟩], 0x7⟩,
   ⟨0xD00038, [], 0x0, [], 0xFFFFFFFFFFFF⟩,
   ⟨0xD00040, [], 0x3E80064, [⟨47, 16, .rw, true⟩, ⟨15, 0, .rw, true⟩], 0xFFFFFFFFFFFF⟩,
   ⟨0xD00100, [(0x8, 4)], 0x0, [], 0xFFFFFFFFFFFFFFFF⟩]
/-- The registers of block MTR. -/
def regsMTR : List RegD :=
  [⟨0xE00000, [], 0x0, [⟨9, 9, .stg, false⟩, ⟨8, 0, .stg, false⟩], 0x3FF⟩,
   ⟨0xE00008, [], 0x0, [], 0xFFFFFFFF⟩,
   ⟨0xE00FF8, [], 0x0, [⟨0, 0, .act, false⟩], 0x1⟩]
/-- The registers of block QUE. -/
def regsQUE : List RegD :=
  [⟨0xF00000, [], 0x3, [⟨0, 0, .rw, false⟩], 0x3⟩,
   ⟨0xF00010, [(0x8, 4)], 0x0, [⟨47, 32, .hlt, false⟩, ⟨19, 0, .hlt, false⟩], 0xFFFF000FFFFF⟩,
   ⟨0xF00030, [], 0xA05028190FA, [⟨55, 40, .stg, false⟩, ⟨39, 30, .stg, false⟩, ⟨29, 20, .stg, false⟩, ⟨19, 10, .stg, false⟩, ⟨9, 0, .stg, false⟩], 0xFFFFFFFFFFFFFF⟩,
   ⟨0xF00038, [], 0x30064, [⟨17, 17, .rw, false⟩, ⟨16, 16, .rw, false⟩, ⟨15, 0, .rw, false⟩], 0x3FFFF⟩,
   ⟨0xF00040, [], 0x0, [⟨63, 63, .w1c, false⟩], 0x83FFFFFFFFFFFFFF⟩,
   ⟨0xF00048, [], 0x0, [⟨3, 0, .stg, false⟩, ⟨7, 4, .stg, false⟩, ⟨11, 8, .stg, false⟩, ⟨15, 12, .stg, false⟩, ⟨19, 16, .stg, false⟩, ⟨23, 20, .stg, false⟩, ⟨27, 24, .stg, false⟩, ⟨31, 28, .stg, false⟩], 0xFFFFFFFF⟩,
   ⟨0xF00100, [(0x8, 16)], 0x2, [⟨19, 16, .stg, false⟩, ⟨15, 0, .stg, false⟩], 0xFFFFF⟩,
   ⟨0xF00FF8, [], 0x0, [⟨0, 0, .act, false⟩], 0x1⟩,
   ⟨0xF01000, [(0x40, 16), (0x8, 4)], 0x0, [], 0x6FFFFFFFFFF⟩,
   ⟨0xF01020, [(0x40, 16)], 0x0, [], 0xFFFFFFFFFF⟩,
   ⟨0xF02000, [(0x8, 514)], 0x0, [⟨3, 0, .stg, false⟩, ⟨7, 4, .stg, false⟩, ⟨11, 8, .stg, false⟩, ⟨15, 12, .stg, false⟩, ⟨19, 16, .stg, false⟩, ⟨23, 20, .stg, false⟩, ⟨27, 24, .stg, false⟩, ⟨31, 28, .stg, false⟩], 0xFFFFFFFF⟩,
   ⟨0xF04000, [(0x8, 514)], 0xFFFFFFFF00, [⟨39, 24, .stg, false⟩, ⟨9, 8, .stg, false⟩, ⟨11, 10, .stg, false⟩, ⟨13, 12, .stg, false⟩, ⟨15, 14, .stg, false⟩, ⟨17, 16, .stg, false⟩, ⟨19, 18, .stg, false⟩, ⟨21, 20, .stg, false⟩, ⟨23, 22, .stg, false⟩, ⟨7, 0, .stg, false⟩], 0xFFFFFFFFFF⟩]
/-- The registers of block SCH, part 0. -/
def regsSCH0 : List RegD :=
  [⟨0x1000000, [(0x400, 514)], 0xFF04, [⟨15, 8, .stg, false⟩, ⟨4, 0, .stg, false⟩], 0xFF1F⟩,
   ⟨0x1000008, [(0x400, 514)], 0x0, [⟨63, 40, .stg, false⟩, ⟨19, 0, .stg, false⟩], 0xFFFFFF00000FFFFF⟩,
   ⟨0x1000048, [(0x400, 514), (0x10, 8)], 0x0, [⟨63, 40, .stg, false⟩, ⟨19, 0, .stg, false⟩], 0xFFFFFF00000FFFFF⟩,
   ⟨0x1000010, [(0x400, 514)], 0x1, [⟨63, 63, .stg, false⟩, ⟨56, 56, .stg, false⟩, ⟨31, 16, .stg, false⟩, ⟨8, 0, .stg, false⟩], 0x81000300FFFF01FF⟩,
   ⟨0x1000018, [(0x400, 514)], 0xF4240, [⟨31, 0, .stg, false⟩], 0xFFFFFFFF⟩,
   ⟨0x1000020, [(0x400, 514)], 0x0, [⟨63, 0, .stg, false⟩], 0xFFFFFFFFFFFFFFFF⟩,
   ⟨0x1000028, [(0x400, 514)], 0x0, [⟨31, 0, .stg, false⟩], 0xFFFFFFFF⟩,
   ⟨0x1000030, [(0x400, 514)], 0xFF00000001, [], 0xFFFFFF0003⟩,
   ⟨0x1000040, [(0x400, 514), (0x10, 8)], 0x1, [⟨34, 32, .stg, false⟩, ⟨15, 0, .stg, false⟩], 0x70000FFFF⟩,
   ⟨0x10F0000, [], 0x186A0, [⟨31, 0, .stg, false⟩], 0xFFFFFFFF⟩,
   ⟨0x10F0008, [], 0x0, [⟨10, 10, .rw, false⟩, ⟨9, 0, .rw, false⟩], 0x7FF⟩,
   ⟨0x10F0FF8, [], 0x0, [⟨0, 0, .act, false⟩], 0x1⟩]
/-- The registers of block SCH, part 1. -/
def regsSCH1 : List RegD :=
  [⟨0x10F1000, [(0x8, 256)], 0x0, [⟨39, 32, .rw, false⟩, ⟨31, 0, .rw, false⟩], 0xFFFFFFFFFF⟩]
/-- The registers of block SCH. -/
def regsSCH : List RegD := regsSCH0 ++ regsSCH1
/-- The registers of block LCK. -/
def regsLCK : List RegD :=
  [⟨0x1100000, [(0x400, 514)], 0x2, [⟨1, 1, .stg, false⟩, ⟨0, 0, .stg, false⟩], 0x3⟩,
   ⟨0x1100008, [(0x400, 514)], 0x0, [⟨1, 1, .w1c, false⟩, ⟨0, 0, .w1c, false⟩], 0x3FF03FFFF03⟩,
   ⟨0x1100040, [(0x400, 514), (0x10, 8)], 0x5EE040000, [⟨55, 48, .stg, false⟩, ⟨41, 40, .stg, false⟩, ⟨37, 24, .stg, false⟩, ⟨19, 16, .stg, false⟩, ⟨15, 15, .stg, false⟩, ⟨14, 0, .stg, false⟩], 0xFF033FFF0FFFFF⟩,
   ⟨0x1100048, [(0x400, 514), (0x10, 8)], 0x1F601F601E201E2, [], 0xFFFFFFFFFFFFFFFF⟩,
   ⟨0x11F0000, [(0x8, 8)], 0x0, [⟨14, 0, .stg, false⟩], 0x7FFF⟩,
   ⟨0x11F0FF8, [], 0x0, [⟨0, 0, .act, false⟩], 0x1⟩]
/-- The registers of block WIT, part 0. -/
def regsWIT0 : List RegD :=
  [⟨0x1200000, [], 0x1, [⟨0, 0, .rw, true⟩], 0x1⟩,
   ⟨0x1200008, [], 0x64, [⟨13, 0, .stg, false⟩], 0x3FFF⟩,
   ⟨0x1200010, [], 0x0, [], 0x1FFFFFFFFFFFFFF⟩,
   ⟨0x1200020, [], 0x80000000000000, [⟨55, 32, .hlt, false⟩, ⟨23, 0, .hlt, false⟩], 0xFFFFFF00FFFFFF⟩,
   ⟨0x1200028, [], 0x0, [], 0xFFFFFFFFFFFFFFFF⟩,
   ⟨0x1200030, [], 0x0, [], 0xFFFFFFFFFFFFFFFF⟩,
   ⟨0x1200040, [], 0x0, [⟨63, 0, .act, true⟩], 0xFFFFFFFFFFFFFFFF⟩,
   ⟨0x1200048, [], 0x0, [⟨63, 0, .act, true⟩], 0xFFFFFFFFFFFFFFFF⟩,
   ⟨0x1200050, [], 0x0, [], 0xFFFF⟩,
   ⟨0x1200060, [], 0x0, [⟨6, 6, .rw, false⟩, ⟨5, 4, .hlt, false⟩, ⟨3, 3, .rw, false⟩, ⟨2, 2, .rw, false⟩, ⟨1, 0, .hlt, false⟩], 0x7F⟩,
   ⟨0x1200100, [(0x20, 8)], 0xC, [⟨63, 12, .rw, false⟩, ⟨4, 0, .rw, false⟩], 0xFFFFFFFFFFFFF01F⟩,
   ⟨0x1200108, [(0x20, 8)], 0x0, [], 0xFFFFFFFF⟩]
/-- The registers of block WIT, part 1. -/
def regsWIT1 : List RegD :=
  [⟨0x1200110, [(0x20, 8)], 0x0, [⟨31, 0, .rw, false⟩], 0xFFFFFFFF⟩,
   ⟨0x1200200, [], 0x0, [⟨63, 0, .rw, false⟩], 0xFFFFFFFFFFFFFFFF⟩,
   ⟨0x1200280, [(0x8, 8)], 0x0, [⟨9, 0, .hlt, false⟩], 0x3FF⟩,
   ⟨0x12002C0, [], 0x0, [⟨47, 0, .rw, false⟩], 0xFFFFFFFFFFFF⟩,
   ⟨0x12002C8, [], 0x0, [⟨47, 0, .rw, false⟩], 0xFFFFFFFFFFFF⟩,
   ⟨0x1200400, [(0x40, 17)], 0x0, [⟨56, 56, .w1c, false⟩], 0x1FFFFFFFFFFFFFF⟩,
   ⟨0x1200408, [(0x40, 17), (0x8, 4)], 0x0, [], 0xFFFFFFFFFFFFFFFF⟩,
   ⟨0x1200FF8, [], 0x0, [⟨0, 0, .act, false⟩], 0x1⟩,
   ⟨0x1201000, [(0x8, 514)], 0x0, [⟨16, 16, .stg, false⟩, ⟨15, 8, .stg, false⟩, ⟨7, 0, .stg, false⟩], 0x1FFFF⟩]
/-- The registers of block WIT. -/
def regsWIT : List RegD := regsWIT0 ++ regsWIT1
/-- The registers of block TOW, part 0. -/
def regsTOW0 : List RegD :=
  [⟨0x1300000, [], 0x20008086007D0000, [⟨63, 63, .stg, true⟩, ⟨62, 62, .stg, false⟩, ⟨61, 61, .stg, false⟩, ⟨56, 48, .hlt, false⟩, ⟨47, 40, .stg, false⟩, ⟨39, 36, .stg, false⟩, ⟨35, 32, .stg, false⟩, ⟨31, 16, .stg, false⟩], 0xE1FFFFFFFFFF0000⟩,
   ⟨0x1300008, [], 0x0, [], 0xFFFFFFFFFE000007⟩,
   ⟨0x1300010, [], 0x0, [], 0x3FFFF0003FFFF⟩,
   ⟨0x1300018, [], 0x0, [⟨0, 0, .act, true⟩], 0x1⟩,
   ⟨0x1300020, [], 0x0, [], 0xFFFFFFFF⟩,
   ⟨0x1300100, [(0x8, 8)], 0x7FFFFFFF, [], 0xFFFFFFFF⟩,
   ⟨0x1300FF8, [], 0x0, [⟨0, 0, .act, false⟩], 0x1⟩,
   ⟨0x1301000, [(0x8, 64)], 0x0, [⟨7, 0, .stg, false⟩, ⟨15, 8, .stg, false⟩, ⟨23, 16, .stg, false⟩, ⟨31, 24, .stg, false⟩, ⟨39, 32, .stg, false⟩, ⟨47, 40, .stg, false⟩, ⟨55, 48, .stg, false⟩, ⟨63, 56, .stg, false⟩], 0xFFFFFFFFFFFFFFFF⟩,
   ⟨0x1302000, [(0x8, 512)], 0x0, [⟨42, 42, .stg, false⟩, ⟨41, 32, .stg, false⟩, ⟨25, 16, .stg, false⟩, ⟨0, 0, .stg, false⟩], 0x7FF07FF0001⟩,
   ⟨0x1304000, [(0x20, 512)], 0x3200000000, [⟨63, 63, .rw, false⟩, ⟨62, 62, .rw, false⟩, ⟨47, 32, .stg, false⟩, ⟨31, 0, .stg, false⟩], 0xC000FFFFFFFFFFFF⟩,
   ⟨0x1304008, [(0x20, 512)], 0x0, [], 0x81FF03FFFFFFFFFF⟩,
   ⟨0x1304010, [(0x20, 512)], 0x0, [], 0xFFFFFFFFFFFFFFFF⟩]
/-- The registers of block TOW, part 1. -/
def regsTOW1 : List RegD :=
  [⟨0x1304018, [(0x20, 512)], 0x0, [], 0x1FFFFFFFFFFF⟩]
/-- The registers of block TOW. -/
def regsTOW : List RegD := regsTOW0 ++ regsTOW1
/-- The registers of block HBM. -/
def regsHBM : List RegD :=
  [⟨0x1400000, [], 0xA0402, [⟨31, 16, .stg, false⟩, ⟨15, 8, .stg, false⟩, ⟨1, 1, .stg, false⟩], 0xFFFFFF02⟩,
   ⟨0x1400008, [], 0x3010, [⟨15, 8, .stg, false⟩, ⟨7, 0, .stg, false⟩], 0xFFFF⟩,
   ⟨0x1400010, [(0x8, 2)], 0x0, [], 0xFF0000000000000F⟩,
   ⟨0x1400020, [], 0x0, [⟨63, 63, .w1c, false⟩], 0x800000003FFFFFFF⟩,
   ⟨0x1400028, [], 0x0, [⟨63, 63, .stg, false⟩, ⟨62, 62, .rw, false⟩, ⟨15, 0, .stg, false⟩], 0xC00000000000FFFF⟩,
   ⟨0x1400030, [], 0x30000000800000, [⟨55, 32, .hlt, false⟩, ⟨23, 0, .hlt, false⟩], 0xFFFFFF00FFFFFF⟩,
   ⟨0x1400038, [], 0x0, [], 0xFFFFFFFFFFFFFFFF⟩,
   ⟨0x1400040, [], 0x0, [⟨3, 0, .rw, false⟩], 0xF⟩,
   ⟨0x1400FF8, [], 0x0, [⟨0, 0, .act, false⟩], 0x1⟩]
/-- The registers of block SCP. -/
def regsSCP : List RegD :=
  [⟨0x1500000, [(0x8, 256)], 0x0, [⟨16, 16, .act, false⟩, ⟨13, 8, .rw, false⟩, ⟨5, 0, .rw, false⟩], 0xC000000000013F3F⟩,
   ⟨0x1500800, [], 0x1, [⟨0, 0, .rw, false⟩], 0x1⟩,
   ⟨0x1500808, [], 0x0, [⟨31, 31, .w1c, false⟩], 0xFFFFFFFF8007FFFF⟩]
/-- The registers of block EVQ. -/
def regsEVQ : List RegD :=
  [⟨0x1600000, [(0x20, 128)], 0x0, [⟨63, 63, .rw, false⟩, ⟨61, 56, .hlt, false⟩, ⟨42, 32, .hlt, false⟩, ⟨25, 16, .rw, false⟩], 0xBF0007FF03FF0000⟩,
   ⟨0x1600008, [(0x20, 128)], 0x6, [⟨63, 12, .hlt, false⟩, ⟨4, 0, .hlt, false⟩], 0xFFFFFFFFFFFFF01F⟩,
   ⟨0x1600010, [(0x20, 128)], 0x0, [⟨20, 20, .act, false⟩, ⟨19, 0, .rw, false⟩], 0xFFFFF001FFFFF⟩,
   ⟨0x1600018, [(0x20, 128)], 0x0, [⟨63, 63, .w1c, false⟩], 0xE07F0000FFFFFFFF⟩,
   ⟨0x1602000, [(0x8, 1536)], 0x8000000000000004, [⟨63, 63, .rw, false⟩, ⟨6, 0, .rw, false⟩], 0x800000000000007F⟩]
/-- The registers of block PMC. -/
def regsPMC : List RegD :=
  [⟨0x1700000, [], 0x0, [⟨63, 0, .rw, false⟩], 0xFFFFFFFFFFFFFFFF⟩,
   ⟨0x1700008, [], 0x0, [⟨31, 0, .rw, false⟩], 0xFFFFFFFF⟩,
   ⟨0x1700010, [], 0x0, [⟨63, 63, .act, false⟩, ⟨62, 62, .act, false⟩, ⟨57, 54, .rw, false⟩, ⟨53, 40, .rw, false⟩, ⟨23, 0, .rw, false⟩], 0xC3FFFF0000FFFFFF⟩,
   ⟨0x1700018, [], 0x0, [], 0xCF000000FFFFFFFF⟩,
   ⟨0x1700100, [(0x8, 24)], 0x0, [], 0x7FFFF⟩,
   ⟨0x1700200, [(0x8, 8)], 0x100, [⟨63, 63, .rw, false⟩, ⟨55, 32, .rw, false⟩, ⟨31, 0, .rw, false⟩], 0x80FFFFFFFFFFFFFF⟩,
   ⟨0x1700300, [], 0x0, [⟨15, 0, .rw, false⟩], 0xFFFF0000FFFF⟩,
   ⟨0x1710000, [(0x20, 1024), (0x8, 4)], 0x0, [], 0xFFFFFFFFFFFFFFFF⟩]
/-- The registers of block FLT. -/
def regsFLT : List RegD :=
  [⟨0x1800000, [], 0x10, [⟨5, 5, .w1c, false⟩], 0xFFF000BC⟩,
   ⟨0x1800008, [], 0x0, [⟨0, 0, .act, true⟩], 0x1⟩,
   ⟨0x1800010, [], 0x0, [⟨12, 12, .w1c, false⟩], 0x1FFF⟩,
   ⟨0x1800018, [], 0x104000A, [⟨24, 24, .rw, true⟩, ⟨23, 16, .rw, true⟩, ⟨15, 0, .rw, true⟩], 0x1FFFFFF⟩,
   ⟨0x1800020, [], 0x0, [⟨1, 1, .act, true⟩, ⟨0, 0, .act, true⟩], 0x3⟩,
   ⟨0x1800028, [], 0x0, [], 0xFFFFFF00FFF0FFFF⟩,
   ⟨0x1800030, [], 0x0, [⟨12, 12, .act, false⟩, ⟨11, 0, .rw, false⟩], 0x1FFF⟩,
   ⟨0x1800800, [(0x8, 24)], 0x0, [⟨63, 0, .w1c, false⟩], 0xFFFFFFFFFFFFFFFF⟩,
   ⟨0x1800900, [(0x8, 24)], 0x0, [], 0xFFFFFFFFFFFFFFFF⟩,
   ⟨0x1802000, [(0x8, 514)], 0x0, [⟨17, 17, .rw, true⟩, ⟨16, 16, .rw, true⟩, ⟨9, 0, .rw, true⟩], 0x303FF⟩,
   ⟨0x1810000, [(0x8, 1536)], 0x3E80001, [⟨31, 16, .rw, true⟩, ⟨7, 6, .rw, true⟩, ⟨5, 0, .rw, true⟩], 0xFFFF01FF⟩]
/-- The registers of block CND. -/
def regsCND : List RegD :=
  [⟨0x1900000, [], 0x180258003C, [⟨47, 32, .rw, true⟩, ⟨31, 16, .rw, true⟩, ⟨15, 0, .rw, true⟩], 0xFFFFFFFFFFFF⟩,
   ⟨0x1900008, [], 0x1400320096, [⟨39, 32, .rw, true⟩, ⟨31, 16, .rw, true⟩, ⟨15, 0, .rw, true⟩], 0xFFFFFFFFFF⟩,
   ⟨0x1900010, [], 0x0, [], 0xFFFFFFFFFFFFFFFF⟩,
   ⟨0x1900018, [], 0xFFFFFFFFFFFFFFFF, [], 0xFFFFFFFFFFFFFFFF⟩,
   ⟨0x1900020, [], 0x0, [⟨0, 0, .act, true⟩], 0x1⟩,
   ⟨0x1901000, [(0x8, 96)], 0x0, [], 0xFF000000FFFFFFFF⟩,
   ⟨0x1901400, [(0x8, 64)], 0x0, [], 0xFFFFFFFFFFFFFFFF⟩,
   ⟨0x1901600, [(0x8, 64)], 0x0, [], 0xFFFFFF⟩]
/-- The registers of block KPR. -/
def regsKPR : List RegD :=
  [⟨0x1A00000, [(0x40, 4)], 0x0, [⟨2, 2, .w1c, false⟩], 0xFFFFFFFF00000007⟩,
   ⟨0x1A00008, [(0x40, 4)], 0x0, [⟨63, 0, .act, false⟩], 0xFFFFFFFFFFFFFFFF⟩,
   ⟨0x1A00010, [(0x40, 4)], 0x0, [⟨63, 63, .w1c, false⟩], 0x80000000000001FF⟩,
   ⟨0x1A00100, [], 0xA, [⟨15, 0, .rw, true⟩], 0xFFFF⟩]
/-- The registers of block HIF. -/
def regsHIF : List RegD :=
  [⟨0x1B00000, [], 0x0, [], 0x3FFFFF07FF⟩,
   ⟨0x1B00008, [], 0x0, [], 0xFFFFFFFFFFFFFFFF⟩,
   ⟨0x1B00010, [], 0x0, [], 0xFFFFFFFF⟩,
   ⟨0x1B01000, [(0x40, 16)], 0x0, [⟨63, 63, .rw, false⟩, ⟨22, 16, .hlt, false⟩, ⟨15, 15, .hlt, false⟩, ⟨9, 4, .hlt, false⟩, ⟨2, 0, .hlt, false⟩], 0x80000000007F83F7⟩,
   ⟨0x1B01008, [(0x40, 16)], 0x4, [⟨63, 12, .hlt, false⟩, ⟨3, 0, .hlt, false⟩], 0xFFFFFFFFFFFFF00F⟩,
   ⟨0x1B01010, [(0x40, 16)], 0x4, [⟨63, 12, .hlt, false⟩, ⟨3, 0, .hlt, false⟩], 0xFFFFFFFFFFFFF00F⟩,
   ⟨0x1B01018, [(0x40, 16)], 0x0, [⟨16, 16, .act, false⟩, ⟨15, 0, .rw, false⟩], 0xFFFFFFFF0001FFFF⟩,
   ⟨0x1B01020, [(0x40, 16)], 0x0, [⟨15, 0, .rw, false⟩], 0xFFFF⟩,
   ⟨0x1B01028, [(0x40, 16)], 0x1, [⟨63, 63, .w1c, false⟩], 0x800000000000FF03⟩]

/-- The block whose offsets contain `off` (Table SCOPE-5). -/
def blockOf (off : Nat) : Nat :=
  if off < 0x100000 then 0 else
  if off < 0x200000 then 1 else
  if off < 0x400000 then 2 else
  if off < 0x600000 then 3 else
  if off < 0x800000 then 4 else
  if off < 0xA00000 then 5 else
  if off < 0xB00000 then 6 else
  if off < 0xC00000 then 7 else
  if off < 0xD00000 then 8 else
  if off < 0xE00000 then 9 else
  if off < 0xF00000 then 10 else
  if off < 0x1000000 then 11 else
  if off < 0x1100000 then 12 else
  if off < 0x1200000 then 13 else
  if off < 0x1300000 then 14 else
  if off < 0x1400000 then 15 else
  if off < 0x1500000 then 16 else
  if off < 0x1600000 then 17 else
  if off < 0x1700000 then 18 else
  if off < 0x1800000 then 19 else
  if off < 0x1900000 then 20 else
  if off < 0x1A00000 then 21 else
  if off < 0x1B00000 then 22 else
  23

/-- The registers of block `b`. -/
def regsOf : Nat → List RegD
  | 0 => regsCFG
  | 1 => regsSEC
  | 2 => regsTIM
  | 3 => regsPRT
  | 4 => regsSER
  | 5 => regsPRS
  | 6 => regsXMT
  | 7 => regsTCM
  | 8 => regsFWD
  | 9 => regsVER
  | 10 => regsMTR
  | 11 => regsQUE
  | 12 => regsSCH
  | 13 => regsLCK
  | 14 => regsWIT
  | 15 => regsTOW
  | 16 => regsHBM
  | 17 => regsSCP
  | 18 => regsEVQ
  | 19 => regsPMC
  | 20 => regsFLT
  | 21 => regsCND
  | 22 => regsKPR
  | 23 => regsHIF
  | _ => []

/-- The indices of the array element at distance `rel` from the first one, outermost first. -/
def dimsAt : List (Nat × Nat) → Nat → Option (List Nat)
  | [], rel => if rel = 0 then some [] else none
  | (st, n) :: ds, rel =>
    if rel / st < n then (dimsAt ds (rel % st)).map (rel / st :: ·) else none

/-- The register at `off` in a list, with its indices. -/
def regIn : List RegD → Nat → Option (RegD × List Nat)
  | [], _ => none
  | d :: ds, off =>
    if off < d.base then regIn ds off else
      match dimsAt d.dims (off - d.base) with
      | some ix => some (d, ix)
      | none => regIn ds off

/-- The register at `off`; `none` where the offset is unassigned (R10, R499). -/
def regAt (off : Nat) : Option (RegD × List Nat) :=
  if off % 8 = 0 ∧ off < 0x01C00000 then regIn (regsOf (blockOf off)) off else none

/-! ## Reset values that differ along an array -/

/-- QUE_POOL(k) (Table BUF-6). -/
def resetQuePool : Nat → Nat
  | 0 => 0x0000_3000_0000_0000
  | 1 => 0x100000030000
  | 2 => 0x60000070000
  | 3 => 0xCC000A0000
  | _ => 0
/-- The message sources of R442 and R480. -/
def messageSource (n : Nat) : Bool :=
  n < 0x20 || [0x021, 0x023, 0x024, 0x040, 0x043, 0x045, 0x046, 0x047, 0x080, 0x086, 0x0C0, 0x142, 0x181, 0x200, 0x201,
    0x204, 0x240, 0x241, 0x242, 0x383, 0x387, 0x3C0, 0x3C1, 0x3C7, 0x441, 0x480, 0x5C0, 0x5C1, 0x5C3, 0x5C4, 0x502,
    0x540, 0x4C0, 0x4C1].contains n

/-- The reactions of Table FLT-2, and EVT alone for every other source (R443). -/
def resetReact (n : Nat) : Nat :=
  if [0x041, 0x144, 0x183, 0x1C1, 0x203, 0x2C0, 0x2C1, 0x2C3, 0x343, 0x381, 0x384, 0x385, 0x386, 0x3C4, 0x400, 0x401,
      0x403, 0x442, 0x443, 0x444, 0x500, 0x541, 0x542].contains n then 0x11
  else if [0x081, 0x084, 0x085, 0x102, 0x180, 0x2C2, 0x544].contains n then 0x03
  else if n = 0x501 then 0x08
  else if n = 0x504 then 0x21
  else if n = 0x543 then 0x31
  else if n = 0x580 ∨ n = 0x582 then 0x05
  else 0x01

/-- FLT_SRC_CFG(n) (R443, Table FLT-18). -/
def resetSrcCfg (n : Nat) : Nat :=
  0x03E8_0000 + (if messageSource n then 0x100 else 0) + resetReact n

/-- The protection entries in force before the image's are (Table SEC-6). -/
def resetProt : Nat → Nat → Nat
  | 0, 0 => 0x0000_0000_0000_0131
  | 0, 1 => 0x007F_FFFF
  | 1, 0 => 0x0000_0000_0000_0112
  | 1, 1 => 0x1FFF_FFFF
  | 2, 0 => 0x0000_0000_0000_0113
  | 2, 1 => 0xFFFF_FFFF
  | 3, 0 => 0x0000_0000_0000_0044
  | 3, 1 => 63
  | 4, 0 => 0x0000_0000_0000_0335
  | 4, 1 => 15
  | _, _ => 0

/-- The reset value of the register at `off` (R499); 0 where the offset is unassigned (R10). -/
def resetOf (off : Nat) : Nat :=
  match regAt off with
  | none => 0
  | some (d, ix) =>
    let i := ix.headD 0
    let j := ix.getLastD 0
    if d.base = Reg.QUE_POOL 0 then resetQuePool i
    else if d.base = Reg.FLT_SRC_CFG 0 then resetSrcCfg i
    else if d.base = Reg.SEC_PROT_STAGE 0 0 ∨ d.base = Reg.SEC_PROT_ACTIVE 0 0 then resetProt i j
    else if d.base = Reg.PMC_BLOCK_SIZE 0 then Ctr.blockSize i
    else if d.base = Reg.EVQ_CFG 0 ∧ i < 4 then 0x8000_0000_0000_0000
    else if d.base = Reg.EVQ_BASE 0 ∧ i < 4 then 12
    else d.reset

/-- The bits of `off`'s register that fields of access code `a` occupy. -/
def accMask (off : Nat) (a : Acc) : Nat :=
  match regAt off with
  | none => 0
  | some (d, _) => d.fields.foldl (fun m f => if f.acc = a then m ||| ((2 ^ (f.hi + 1 - f.lo) - 1) <<< f.lo) else m) 0

end Sys2Proof.Machine
end

