-- ==== Sys2Proof/Machine/State.lean ====
section
/-! DEFINITION. The state of the device: what every chapter gives it beside the registers, and the registers. -/
namespace Sys2Proof.Machine

/-! ## Outputs -/

/-- What leaves the device: the model's own record of it, oldest first (no register holds it). -/
inductive Output where
  /-- a read completion to function `fn`, with its poisoned bit (R31, R392, R431) -/
  | readCpl (fn : Nat) (data : Bytes) (poisoned : Bool)
  /-- a completion with Unsupported Request (R388) -/
  | unsupported (fn : Nat)
  /-- a posted write to host memory of function `fn` (R391) -/
  | hostWrite (fn addr : Nat) (data : Bytes)
  /-- an event record written to slot `slot` of queue `q` (R406) -/
  | eventRecord (q slot : Nat) (w0 w1 : Word64)
  /-- an MSI-X message (R408) -/
  | msix (fn vector : Nat)
  /-- a PME message (R409) -/
  | pme (fn : Nat)
  /-- a frame at the transmit ball of `port`, its first bit at `at` (R55) -/
  | frame (port : Nat) (t : Stamp) (bytes : Bytes)
  /-- the edge of a PPS output at the ball (R47) -/
  | ppsOut (output : Nat) (t : Stamp) (rising : Bool)
  /-- an AVSBus voltage request, millivolts (R484) -/
  | avs (mv : Nat)
  /-- an SMBus Block Read reply (R493) -/
  | smbus (data : Bytes)
  /-- an AtomicOp completion with the old value (R161) -/
  | swapCpl (fn : Nat) (old : Nat)
  /-- an NVM access: operation 2 erases, 3 programs, 4 stores the boot selector (R369, R384) -/
  | nvm (op addr : Nat) (data : Bytes)
  /-- the L1.2 link power state is requested (R393) -/
  | l12
  /-- a check of an ECDSA P-384 signature over a SHA-384 digest, with its outcome (R347) -/
  | verify (key digest sig : Bytes) (ok : Bool)
  /-- the write-back of a command of the keeper ring: its slot, STATUS and, where the command returns some, bytes from 16 on (R159) -/
  | cmdReply (slot status : Nat) (data : Bytes)
  /-- a processor copy passed to keeper firmware with its reason and its ingress data (R141) -/
  | keeperCopy (reason port tq ub ver : Nat) (t : Stamp) (manifest bytes : Bytes)
  deriving DecidableEq, Repr

/-! ## Events (chapter "Host Link, DMA and Event Queues") -/

/-- A request for an event record (R404). -/
structure EvReq where
  src : Nat
  payload : Nat
  time : Stamp
  deriving DecidableEq, Repr

/-- The states of a condition source that has a request or a record under way (R404); an inactive source is not listed. -/
inductive CondPhase where
  | pending | active | activePending
  deriving DecidableEq, Repr

/-- A condition source's request: its phase, the payload and time of the firing not yet claimed, and whether clearing
the sticky bit has withdrawn it (R404, R405). -/
structure CondReq where
  phase : CondPhase
  payload : Nat
  time : Stamp
  withdrawn : Bool
  deriving DecidableEq, Repr

/-- A claimed record waiting in a queue's on-chip staging (R406). -/
structure EvRec where
  src : Nat
  payload : Nat
  time : Stamp
  deriving DecidableEq, Repr

/-- What an event queue holds beside its registers (R403 to R409). -/
structure EvQueue where
  staging : List EvRec := []
  firstLost : Stamp := 0
  lastMsix : Option Stamp := none
  pmeSent : Bool := false
  deriving DecidableEq, Repr

/-- A PCI Express function's state (R390, R393, R408; R500 for the latch and the read time). -/
structure FnState where
  d3hot : Bool := false
  busMaster : Bool := true
  pmeEn : Bool := false
  secHi : Nat := 0
  readTime : Stamp := 0
  /-- the instant at which the function's last read was served (R32) -/
  servedAt : Option Stamp := none
  deriving DecidableEq, Repr

/-- A DMA channel's state beside its registers (R395, R396): the descriptors posted and their contents are in host
memory; here the completions of transfers that are still outstanding, or wait for room in the completion ring. -/
structure DmaChan where
  waiting : List Bytes := []
  armed : Bool := false
  deriving DecidableEq, Repr

/-- Block HIF and block EVQ. -/
structure HifState where
  fns : SMap FnState := []
  chans : SMap DmaChan := []
  msgs : List EvReq := []
  conds : SMap CondReq := []
  queues : SMap EvQueue := []
  keeperMem : SMap (Word64 × Word64) := []
  pushNext : Nat := 0
  l12 : Bool := false
  deriving DecidableEq, Repr

/-! ## Faults, ferry mode, ageing, keeper cores (chapter "Faults, Ferry Mode and Ageing") -/

/-- A source's fault state (R444 to R448): the last assertion, whether BLK has acted in the episode, and whether its
wire pair is broken. -/
structure FaultSt where
  last : Stamp := 0
  blkDone : Bool := false
  broken : Bool := false
  deriving DecidableEq, Repr

/-- One DEG or BLK reaction that is due (R445). -/
inductive Reaction where
  | degrade (src : Nat)
  | blockReset (src : Nat)
  deriving DecidableEq, Repr

/-- Ferry mode beside its registers (R452 to R458): F, CURRENT at F and the map read at F; the last DEG assertion and the
sources that asserted DEG in the episode; the automatic exits of the last hour; the episode's frames; the bits of CFG_READY
that were cleared at F; and, once X has come, the blocks whose reset is still awaited. -/
structure FerrySt where
  f : Stamp := 0
  version : Nat := 0
  map : SMap Nat := []
  lastDeg : Stamp := 0
  lastSrc : Nat := 0
  degSrcs : List Nat := []
  exits : List Stamp := []
  flushed : Nat := 0
  forwarded : Nat := 0
  dropped : Nat := 0
  bits : List Nat := []
  restore : List Nat := []
  deriving DecidableEq, Repr

/-- Block FLT. -/
structure FltState where
  faults : SMap FaultSt := []
  /-- the device time of the assertion that LAST_SOURCE names (R26) -/
  lastAt : Stamp := 0
  due : List Reaction := []
  chipDue : Option (Nat × Stamp) := none
  testUntil : Option Stamp := none
  ferry : FerrySt := {}
  deriving DecidableEq, Repr

/-- Block CND (R460 to R463, R484): the last accepted readings, the daily values of d_max with the instant of the last,
a re-plan that is asked for and the last one's instant; the staircase's last acknowledged point and its end, 0.1 mV; and
since when a sensor has read above 105 °C. -/
structure CndState where
  readings : SMap Int := []
  /-- the device instant of the last measurement of candles and replicas, and of each lane's last eye scan -/
  measAt : Option Stamp := none
  eyeAt : SMap Stamp := []
  /-- d_max as each measurement left it, back to the last one that is 24 h old or older -/
  wear : List (Stamp × Int) := []
  daily : List Nat := []
  dayAt : Stamp := 0
  asked : Bool := false
  planAt : Stamp := 0
  avsPoint : Nat := 7500
  avsEnd : Nat := 0
  avsAt : Option Stamp := none
  /-- per candle whose sensor reads above 105 °C: when CND_TJ_HIGH was last raised -/
  hot : SMap Stamp := []
  deriving DecidableEq, Repr

/-- A keeper core (R410, R464): the command FIFO with each word's poison tag; the interrupt priorities (Table HOST-9) that
are pending and the one being served, 0xFFF where the claim found its request withdrawn; and the last write of
KPR_STATUS. -/
structure KprCore where
  fifo : List (Word64 × Bool) := []
  pending : List Nat := []
  serving : Option Nat := none
  /-- the core clock cycle in which its last entry began -/
  enteredAt : Nat := 0
  lastAlive : Stamp := 0
  deriving DecidableEq, Repr

/-! ## Counters and snapshots (chapter "Counters and Snapshots") -/

/-- An armed or running snapshot (R471 to R475). -/
structure Snap where
  t : Stamp := 0
  mask : Nat := 0
  channel : Nat := 0
  periodMs : Nat := 0
  frozen : Option (SMap Nat) := none
  frozenAt : Stamp := 0
  flags : Nat := 0
  tq : Nat := 0
  ub : Nat := 0
  sysid : Nat := 0
  epoch : Nat := 0
  deriving DecidableEq, Repr

/-- A sampler (R477): its count, its counter's value at an overflow that is not yet acted on and at the one whose sample is
wanted, and whether a barge has been asked for that sample. -/
structure Sampler where
  count : Nat := 0
  hit : Option Nat := none
  want : Option Nat := none
  asked : Bool := false
  deriving DecidableEq, Repr

/-- What a sampling handler has posted to the counter block's sample buffer (Table PARSE-8): the counter, trap frame words 0 and 7,
and the packet's ingress port, rule version and stamp. -/
structure Posted where
  counter : Nat
  w0 : Word64
  w7 : Word64
  port : Nat
  ver : Nat
  stamp : Stamp
  deriving DecidableEq, Repr

/-- Block PMC and the counters of every block (R468 to R478). -/
structure PmcState where
  ctr : SMap Nat := []
  /-- of the counters with the unit ns: what has accumulated, in 2^-16 ns, and since when the condition now in force runs -/
  spans : SMap Nat := []
  running : SMap Stamp := []
  snap : Option Snap := none
  next : Option Snap := none
  seq : Nat := 0
  skipped : Nat := 0
  samplers : SMap Sampler := []
  posted : List Posted := []
  deriving DecidableEq, Repr

/-! ## Device time (chapter "Device Time, References and Timestamp Capture") -/

/-- A PPS input (R47, R48): the stamp of the last edge with later steps added to it, and whether the input is valid. -/
structure PpsIn where
  last : Option Stamp := none
  valid : Bool := false
  since : Stamp := 0
  missing : Bool := false
  tod : Option (Nat × Stamp) := none
  deriving DecidableEq, Repr

/-- A lamplighter quad (R50 to R54). Its copy of device time is what the word clocks have run, off by `off` (2^-16 ns);
`spread` is the residual being added to it over the 256 ns that began when they had run to `runAt`. -/
structure LampQuad where
  off : Int := 0
  spread : Int := 0
  runAt : Nat := 0
  /-- the launch value of the pulse under way, until it arrives -/
  v : Option Stamp := none
  samples : List Int := []
  residuals : List Nat := []
  reload : Bool := false
  raised : Nat := 0
  deriving DecidableEq, Repr

/-- A lane's calibration beside its registers (R59, R67 to R70): when it was last measured, the square of the capture
half-width in force, in units of 2^-16 ps, and whether its age or its lag has made it stale. -/
structure LaneCal where
  measured : Option Stamp := none
  wcapSq : Nat := 0
  stale : Bool := false
  deriving DecidableEq, Repr

/-- One direction of a lane in the factory calibration record (R66): the constant at the factory point, the temperature
coefficient per degree, and the delay of each equaliser setting, all in 2^-16 ns. -/
structure PathRec where
  const : Int := 0
  temp : Int := 0
  eq : SMap Int := []
  deriving DecidableEq, Repr

/-- A lane in the factory calibration record (R66, Table TIME-5): both directions, the factory point's temperature in
degrees, the scale factor to the octet's path replica in 2^-16, and the squares of the terms of the uncertainty budget
that come from the record, in (2^-16 ps)². -/
structure LaneRec where
  rx : PathRec := {}
  tx : PathRec := {}
  point : Int := 0
  scale : Int := 0
  termSq : Nat := 0
  deriving DecidableEq, Repr

/-- A quad in the factory calibration record: wick turnaround and asymmetry, and the factory value of L_q, in 2^-16 ns. -/
structure QuadRec where
  turnaround : Int := 0
  asymmetry : Int := 0
  delay : Int := 0
  deriving DecidableEq, Repr

/-- The factory calibration record of the unit (R66), with the constants of its PPS inputs. -/
structure UnitRec where
  lanes : SMap LaneRec := []
  quads : SMap QuadRec := []
  pps : SMap Int := []
  deriving DecidableEq, Repr

/-- Block TIM. -/
structure TimState where
  /-- slew still to be applied, 2^-48 ns (R44) -/
  slew : Int := 0
  /-- time-domain cycles since reset, and the sum of their increments, 2^-48 ns: what the word clocks have run (R50) -/
  cycles : Nat := 0
  run : Nat := 0
  /-- the steps that every copy has taken with device time, 2^-16 ns (R43) -/
  origin : Int := 0
  /-- consecutive servo updates within TRACK_PS and consecutive ones beyond STEP_THRESH_NS (R64) -/
  inTrack : Nat := 0
  overThresh : Nat := 0
  lastUpdate : Stamp := 0
  holdEntry : Stamp := 0
  holdWts : Nat := 0
  pps : SMap PpsIn := []
  refSince : SMap Stamp := []
  todWritten : Stamp := 0
  /-- the outputs: when each was enabled, the second of its last edge, and when the pulse under way ends (R47) -/
  ppsOutOn : SMap Stamp := []
  ppsOutLast : SMap Nat := []
  ppsOutHigh : SMap Stamp := []
  /-- the last 100 ms interval compared and its result, 2^-16 ns (R46) -/
  freqAt : Option Nat := none
  freqPhase : Int := 0
  /-- launches so far, the cycle of the next one and its value, published one interval ahead (R51) -/
  lampLaunch : Nat := 0
  lampNext : Nat := 819
  lampV : Stamp := 67092480
  lamps : SMap LampQuad := []
  /-- the last 15.625 ms interval in which constants moved (R68) -/
  slewedAt : Option Nat := none
  cals : SMap LaneCal := []
  deriving DecidableEq, Repr

/-! ## Ports (chapter "Ports, Lanes and the Line Side") -/

/-- A port beside its registers: the number of its frames in flight, and whether it is stopping (R92). -/
structure PortSt where
  inFlight : Nat := 0
  stopping : Bool := false
  /-- in loopback, the frames transmitted and not yet received again (Table PORT-11) -/
  looped : List Bytes := []
  deriving DecidableEq, Repr

/-! ## Rule versions (chapter "Rule Versions, Commits and Changing Configuration Live") -/

/-- Block VER beside its registers: the command images of the open and of the armed group, the armed instant and mask,
whether agreement is confirmed, the live versions with their commit instants, and the sweep. -/
structure VerState where
  openCmds : List Bytes := []
  armedCmds : List Bytes := []
  armedT : Stamp := 0
  armedMask : Nat := 0
  agreed : Bool := false
  commits : List (Nat × Stamp) := []
  sweeping : Bool := false
  deriving DecidableEq, Repr

/-- What a block's last apply bound its new values to (R185, R186, R128, R257). -/
inductive Bound where
  /-- by pipeline position: every packet that arrives uses the value in force -/
  | pipeline
  /-- packets of version `v` and later -/
  | version (v : Nat)
  /-- packets stamped at or after `t` -/
  | stamp (t : Stamp)
  deriving DecidableEq, Repr

/-- The staged fields of all blocks (R8, R185): the values in force, the values before them, and per block what the
last apply and the one before it were bound to. A register not listed has its reset value. -/
structure StgState where
  force : SMap Word64 := []
  prev : SMap Word64 := []
  bound : SMap Bound := []
  bound0 : SMap Bound := []
  deriving DecidableEq, Repr

/-! ## The witness (chapter "Witness Records and the Biurn Log") -/

/-- A 32-byte record (R280). -/
structure WRec where
  w0 : Word64
  w1 : Word64
  w2 : Word64
  w3 : Word64
  deriving DecidableEq, Repr

/-- A control event before it is cut into records (R285). -/
structure CtlEvent where
  stream : Nat
  subtype : Nat
  time : Stamp
  tq : Nat
  ub : Nat
  payload : Bytes
  deriving DecidableEq, Repr

/-- A stream's open block (R287, R288). -/
structure OpenBlk where
  base : Stamp
  recs : List WRec := []
  lead : Bool := false
  adrift : Bool := false
  deriving DecidableEq, Repr

/-- The losses of one gap class since the stream's last block closed (R291). -/
structure Gap where
  count : Nat := 0
  first : Stamp := 0
  last : Stamp := 0
  deriving DecidableEq, Repr

/-- A recorder: one record stream (R278, R288, R291). -/
structure Recorder where
  blk : Option OpenBlk := none
  started : Bool := false
  gaps : SMap Gap := []
  anyClosed : Bool := false
  epochRecs : Nat := 0
  deriving DecidableEq, Repr

/-- A closed unit on its way to the ring (R298): its stream and its 4,096 bytes, trailing zeros left out. -/
structure WUnit where
  stream : Nat
  data : Bytes
  deriving DecidableEq, Repr

/-- A seal body held for signature (R295, R297): its first 928 bytes and E. -/
structure SealBody where
  e : Nat
  body : Bytes
  late : Bool
  deriving DecidableEq, Repr

/-- Block WIT. -/
structure WitState where
  recs : SMap Recorder := []
  runEpoch : Nat := 0
  /-- the number of the epoch that closed last, and the bounds of the one in force (R28, R294) -/
  lastE : Nat := 0
  /-- the member has been Adrift in the epoch in force (R183, R333) -/
  adriftE : Bool := false
  epochStart : Stamp := 0
  epochEnd : Stamp := 0
  sealPrev : Bytes := []
  sealFirst : Bool := true
  sealFlags : Nat := 0
  bodies : List SealBody := []
  epochGaps : SMap Nat := []
  key : Nat := 0
  keyPend : Option Nat := none
  keyLo : Nat := 0
  keyHi : Nat := 0
  staged : List WUnit := []
  early : List CtlEvent := []
  ring : SMap WUnit := []
  full : Bool := false
  panic : Option Stamp := none
  pushNextX : Nat := 0
  pushRel : SMap Nat := []
  portRel : SMap Nat := []
  deriving DecidableEq, Repr

/-! ## The security module (chapter "Identity, Keys and Protection") -/

/-- Block SEC beside its registers. `owner`, `ownerPub`, `ownerSeq`, `ldev` and `stepsLeft` lie in the module's area of the NVM and in its
monotonic counter and outlive every reset (R353, R382); the rest is volatile. -/
structure SecState where
  owner : Bytes := []
  /-- the public key of the owner certificate -/
  ownerPub : Bytes := []
  ownerSeq : Nat := 0
  ldev : Bytes := []
  stepsLeft : Nat := 255
  nonce : Option Stamp := none
  fails : Nat := 0
  lockedUntil : Option Stamp := none
  lastPf0 : Stamp := 0
  /-- the identifier and the key of the owner certificate, and the identifier of the unit's, while the module is ready -/
  ownerId : Bytes := []
  ownerKey : Bytes := []
  certId : Bytes := []
  /-- the signature and the certificate that the running operation was given -/
  sig : Bytes := []
  der : Bytes := []
  ownerBuf : SMap Word64 := []
  /-- tests are under way: the power-up tests, a periodic run, or the retry after a failure (R345, R346) -/
  testing : Bool := true
  failedAt : Option Stamp := none
  retried : Bool := false
  lastSelfTest : Stamp := 0
  /-- bytes 0–831 of the report that waits for its signature -/
  attestDue : Bytes := []
  /-- the rank of the request that the module serves now (R348) -/
  serving : Option Nat := none
  deriving DecidableEq, Repr

/-! ## Start-up (chapter "The Aimet Image, Start-up and Readiness") -/

/-- The levels of the pins PWR_OK and RESET_N (R486): the board's alone, changed by the three commands that are their
edges. -/
structure Pins where
  pwrOk : Bool := true
  resetN : Bool := true
  deriving DecidableEq, Repr

/-- The loader, the NVM interface and the pins beside their registers (R368 to R376, R384, R486 to R494). -/
structure BootState where
  /-- the device has left reset, and loads or has loaded `slot`; the other slot has been tried -/
  running : Bool := false
  slot : Nat := 0
  triedOther : Bool := false
  /-- the instant at which the device left reset -/
  leftAt : Stamp := 0
  /-- the loader holds the claim regions and is the keeper ring's agent (R375) -/
  loading : Bool := false
  /-- header, section table and signature, as read -/
  header : Bytes := []
  /-- the steps of Table BOOT-5 completed, 100 + b for block b of step 12, and the sections loaded, by table index -/
  steps : List Nat := []
  done : List Nat := []
  /-- their bytes, in the copy region of the DRAM (R376, R383) -/
  copy : SMap Bytes := []
  keeperVer : Nat := 0
  keeperAt : Option Stamp := none
  /-- the commands of CMDS sections executed so far, and the first that failed -/
  cmds : List Bytes := []
  cmdFail : Option Nat := none
  /-- blocks under reset, each with the bits of CFG_READY it cleared (R383) -/
  resetting : SMap (List Nat) := []
  /-- the NVM operation that runs: operation, NVM address, host address, length (R384) -/
  nvmOp : Option (Nat × Nat × Nat × Nat) := none
  perstN : Bool := true
  /-- GPIO[1:0] as sampled at PWR_OK rising (R492) -/
  gpio : Nat := 0
  /-- the instruction of the test access port (R494) -/
  tap : TapInstr := .bypass
  factoryTest : Bool := false
  deriving DecidableEq, Repr

/-! ## Packets -/

/-- Where a frame is between its first bit and its last reference (R97, R100, R138, R210). -/
inductive Stage where
  /-- its head is being received (R97) -/
  | receiving
  /-- in its slice's dispatch queue (R97) -/
  | dispatch
  /-- in barge `n` of the device, 96 per slice (R96) -/
  | barge (n : Nat)
  /-- its manifest is closed and not yet released (R100) -/
  | closed
  /-- its manifest is at the lookup stage (R138) -/
  | lookup
  /-- its forwarding decision is complete; the meter stage is next (R222) -/
  | meter
  /-- metered; admission is next (R210) -/
  | accept
  /-- its references are in queues or on their way out, or it is on its way to the processor alone -/
  | stored
  deriving DecidableEq, Repr

/-- Where a copy goes (R138, R141, R269). -/
inductive CopyKind where
  | unicast
  /-- a copy of a group, made by the replication stage -/
  | multicast
  /-- mirror session `i` -/
  | mirror (i : Nat)
  /-- a frame of the ferry path, with the trailer or without it (R455) -/
  | ferry (trailer : Bool)
  deriving DecidableEq, Repr

/-- A processor copy still to be sent, with its reason, and whether it goes to keeper firmware (R141): fixed at the meter stage
by its reason, and before it for a PTP message that no reason sends (R71). -/
structure CpuCopy where
  reason : Nat
  keeper : Bool := false
  deriving DecidableEq, Repr

/-- A received frame and what the stages have decided about it. -/
structure Packet where
  port : Nat
  lane : Nat := 0
  stamp : Stamp := 0
  tq : Nat := 0
  ub : Nat := 0
  ver : Nat := 0
  stage : Stage := .receiving
  /-- the barge that holds the frame until its manifest is released (R100) -/
  heldBy : Option Nat := none
  readyAt : Stamp := 0
  /-- the bytes received so far, and whether the last one has arrived -/
  bytes : Bytes := []
  ended : Bool := false
  /-- in error at ingress: bad frame check sequence, too long, or ended by a receive error (R86) -/
  bad : Bool := false
  /-- its error is counted in PRT_RX_ERR (R507) -/
  rxErr : Bool := false
  /-- the blocks at which it has been counted in VER_STALE_USE (R185) -/
  stale : List Nat := []
  /-- data index of the stamped bit within its alignment-marker period (R90) -/
  d0 : Nat := 0
  profile : Nat := 0
  depth : Nat := 0
  bank : Nat := 0
  manifest : Bytes := []
  /-- per recorded message: its offset and the lane that carries its first bit (R90, R111) -/
  msgs : List (Nat × Nat) := []
  excAction : Nat := 1
  /-- the forwarding decision (R138): 0 drop, 1 unicast, 2 multicast group, 3 to the processor only -/
  kind : Nat := 0
  cls : Nat := 0
  clsKnown : Bool := false
  outPort : Nat := 0x3FF
  nextHop : Option Nat := none
  group : Nat := 0
  flood : Bool := false
  foreign : Option Nat := none
  meter : Option Nat := none
  mirror : Option Nat := none
  cpu : List CpuCopy := []
  /-- the mirror session whose capture copy is still to be staged, and whether the original was dropped (R423) -/
  capture : Option (Nat × Bool) := none
  colour : Nat := 0
  cut : Bool := false
  /-- its place in the order in which its slice's manifests are released (R100, R209) -/
  rel : Nat := 0
  /-- its descriptor's pointer, pool and tag, and the reference count (R201, R202) -/
  buf : Option Nat := none
  pool : Nat := 0
  tag : Nat := 0
  refs : Nat := 0
  /-- the frame came over a towpath link, with the 32-byte header it carried (R312, R316) -/
  tow : Bool := false
  towHdr : Bytes := []
  /-- the index and BLOCK_SEQ of its INGRESS record; index 0 where none was written (Table TOW-1) -/
  wIndex : Nat := 0
  wSeq : Nat := 0
  /-- E mod 512 of the epoch the ingress stamp lies in (R28) -/
  rot : Nat := 0
  /-- a processor copy has been passed to keeper firmware (Table WIT-3) -/
  sentCpu : Bool := false
  /-- a reference was lost with a faulty descriptor, so that no free is issued (R204, R205) -/
  leaked : Bool := false
  inPort : Nat := 0
  system : Nat := 0
  dropped : Bool := false
  bypassed : Bool := false
  /-- a frame of the ferry path (R455) -/
  ferry : Bool := false
  witnessed : Bool := false
  decided : Bool := false
  deriving DecidableEq, Repr

/-! ## Parse engines (chapter "Parse Engines and Their Microcode") -/

/-- A pending in-routine lookup (R113): the key, the partition and the engine cycle of its issue. -/
structure PendLkup where
  key : Nat
  part : Nat
  issued : Nat
  deriving DecidableEq, Repr

/-- A barge running a routine (R99, R106, R113, R116 to R123). `routine` is false where ENTRY is not analysable, so that no
vendor word is run (R127). -/
structure Barge where
  pkt : Nat
  pc : Nat
  routine : Bool := true
  g : List Word64 := List.replicate 16 0
  cursor : Nat := 0
  z : Bool := false
  c : Bool := false
  wend : Bool := false
  loopN : Nat := 0
  stack : List Nat := []
  mt : Nat := 0
  man : Bytes := []
  msgs : List (Nat × Nat) := []
  lkups : SMap PendLkup := []
  cycles : Nat := 0
  /-- requests not yet claimed: priority and cause detail (R116) -/
  traps : SMap Nat := []
  /-- a request has been made since the last claim, so that an entry is due (R120) -/
  wanted : Bool := false
  /-- words run since a sampling request (R122) -/
  skid : Nat := 0
  /-- the trap frame and the source served, while a handler runs (R117, R123) -/
  frame : List Word64 := []
  serving : Option Nat := none
  deriving DecidableEq, Repr

/-- A word of the control store. -/
abbrev Microword := BitVec 192

/-- Block PRS: the dispatch queues, the barges, the control store and the customer load. -/
structure PrsState where
  queues : SMap (List Nat) := []
  barges : SMap Barge := []
  lastBarge : SMap Nat := []
  bank0 : SMap Microword := []
  bank1 : SMap Microword := []
  /-- words of a slice with a double-bit error not yet restored: slice, bank (2 for the vendor region), word -/
  ecc : List (Nat × Nat × Nat) := []
  package : Option Bytes := none
  /-- the package digests of the customer banks (Table PARSE-14) -/
  digest0 : Bytes := []
  digest1 : Bytes := []
  fetched : Bool := false
  deriving DecidableEq, Repr

/-! ## Lookup tables (chapter "Lookup Tables: Exact Match, Ternary Search and Prefixes") -/

/-- An exact-match entry (Table LOOK-4): the key's 16 bytes little-endian. -/
structure EmEntry where
  key : Nat := 0
  action : Nat := 0
  vfrom : Nat := 0
  vuntil : Nat := 0
  valid : Bool := false
  immediate : Bool := false
  hit : Bool := false
  deriving DecidableEq, Repr

/-- A ternary row of one bank (R151): value and care with key bit 0 as the most significant of 160. -/
structure TcRow where
  value : Nat := 0
  care : Nat := 0
  action : Nat := 0
  vfrom : Nat := 0
  vuntil : Nat := 0
  valid : Bool := false
  immediate : Bool := false
  hit : Bool := false
  deriving DecidableEq, Repr

/-- A move in progress (R155): its group, the rows a and b, the row to be copied next (none once all are copied), the
new row's command and the ring that waits for it. -/
structure Move where
  group : Nat
  a : Nat
  b : Nat
  next : Option Nat
  cmd : Bytes
  keeper : Bool
  deriving DecidableEq, Repr

/-- A place whose double-bit error has not been restored: memory 0 bucket entry, 1 stash entry, 2 ternary action, 3 next hop. -/
structure BadCell where
  mem : Nat
  index : Nat
  deriving DecidableEq, Repr

/-- The lookup tables, the write path and learning. -/
structure TabState where
  em : SMap EmEntry := []
  stash : SMap EmEntry := []
  tc : SMap TcRow := []
  /-- the DRAM copy of the ternary rows, the rows whose copy is uncorrectable, and each row's last comparison (R149, R157) -/
  tcDram : SMap TcRow := []
  copyBad : List Nat := []
  scrubbed : SMap Stamp := []
  sel : SMap Nat := []
  nh : SMap Nat := []
  vlan : SMap Nat := []
  smac : SMap Nat := []
  tun : SMap Nat := []
  move : Option Move := none
  bad : List BadCell := []
  warned : List Nat := []
  learnFifo : List Bytes := []
  learnTail : Nat := 0
  filter : SMap (Nat × Stamp) := []
  keeperHead : Nat := 0
  /-- the ring served last was the keeper's (R160) -/
  lastKeeper : Bool := false
  deriving DecidableEq, Repr
/-! ## Buffers and queues (chapter "Buffers, Pools and Virtual Output Queues") -/

/-- One slice's free store of one pool (R198): BUFS when the pools started, the first buffer of the slice never taken from
the ring yet, the buffers returned to the ring, and the cache. A burst between ring and cache is one command, so nothing
is in transit between commands. -/
structure FreeStore where
  size : Nat := 0
  fresh : Nat := 0
  ring : List Nat := []
  cache : List Nat := []
  grantPtr : Nat := 0
  level : Nat := 0
  minFree : Nat := 0
  deriving DecidableEq, Repr

/-- A buffer in use (R201, R202): its pool, owning slice, tag and reference count. -/
structure Buf where
  pool : Nat
  slice : Nat
  tag : Nat
  refs : Nat
  deriving DecidableEq, Repr

/-- A free that is presented: freeing slice, pointer, pool and tag (R202). -/
structure FreeReq where
  slice : Nat
  ptr : Nat
  pool : Nat
  tag : Nat
  deriving DecidableEq, Repr

/-- A descriptor in a queue (R202, R209). -/
structure Desc where
  pkt : Nat
  kind : CopyKind
  port : Nat
  gran : Nat
  deriving DecidableEq, Repr

/-- Flow control sent on a port and class (R213, R214): whether XOFF holds, since when its last frame was sent, the last
"pool empty", and whether a frame is owed. -/
structure PfcTx where
  xoff : Bool := false
  sentAt : Stamp := 0
  emptyAt : Option Stamp := none
  owed : Bool := false
  deriving DecidableEq, Repr

/-- Block QUE. -/
structure QueState where
  /-- index 4 × slice + pool -/
  stores : SMap FreeStore := []
  /-- allocation sequence per slice -/
  seq : SMap Nat := []
  bufs : SMap Buf := []
  frees : List FreeReq := []
  orphans : List (Nat × Nat × Nat) := []
  unmarked : SMap Nat := []
  /-- by queue number: unicast 0–65,535, management from 65,536, multicast from 65,792 -/
  queues : SMap (List Desc) := []
  used : SMap Nat := []
  offered : List Nat := []
  /-- index 8 × port + class -/
  pfc : SMap PfcTx := []
  /-- the pools have not started since QUE was last halted: no buffer is granted (R216) -/
  stopped : Bool := true
  /-- the last pass of the audit (R206) -/
  auditAt : Stamp := 0
  deriving DecidableEq, Repr

/-! ## Meters (chapter "Metering, Fair Queueing, Shaping and Time Gates") -/

/-- A meter's state (Table SCHED-2). -/
structure Meter where
  tc : Nat := 0
  tp : Nat := 0
  last : Nat := 0
  profile : Nat := 0
  deriving DecidableEq, Repr

/-- Block MTR: what a meter that is not listed holds, the meters, and the profiles' words 0 and 1 (Table SCHED-1). -/
structure MtrState where
  base : Meter := {}
  meters : SMap Meter := []
  profiles : SMap (Nat × Nat) := []
  deriving DecidableEq, Repr

/-! ## Copies on their way out (chapters "Metering, Fair Queueing, Shaping and Time Gates" and "The Lock") -/

/-- A copy of a packet at or toward its egress port: the queue or replication it holds its reference through, the
next hop applied, its release instant while its lock is active, and the system whose rank orders it (R30). -/
structure Copy where
  pkt : Nat
  kind : CopyKind
  port : Nat
  cls : Nat
  queue : Nat
  gran : Nat
  nh : Option Nat := none
  lsel : Nat := 0
  source : Nat := 0
  release : Option Stamp := none
  system : Nat := 0
  late : Bool := false
  ooo : Bool := false
  bypassed : Bool := false
  /-- its wait under R241 has been counted -/
  waited : Bool := false
  /-- its grant has charged its class's credit (R235, R237) -/
  charged : Bool := false
  deriving DecidableEq, Repr

/-- A gate schedule (R238). -/
structure Sched where
  bank : Nat
  len : Nat
  cycle : Nat
  base : Stamp
  deriving DecidableEq, Repr

/-- The copy in transmission: its egress stamp with TQ and UB, whether its record has been written, and the close of its class's
gate that its start was tested against (R241, R243). -/
structure Sending where
  copy : Copy
  stamp : Stamp
  tq : Nat
  ub : Nat
  witnessed : Bool
  close : Option Stamp := none
  deriving DecidableEq, Repr

/-- An egress port: offers, scheduler, shapers, pauses, gates, lock and transmitter (R228 to R243, R249 to R264). -/
structure EgressPort where
  offers : List Copy := []
  tags : SMap Nat := []
  vtime : SMap Nat := []
  lastSource : SMap Nat := []
  credit : Int := 0
  classCredit : SMap Int := []
  creditAt : Stamp := 0
  svcAt : Stamp := 0
  wasUp : Bool := false
  /-- per class: the end of the pause, when it began, and whether SCH_PFC_LONG has been raised for it -/
  pauses : SMap (Stamp × Stamp × Bool) := []
  sched : Option Sched := none
  /-- a change waiting for its first cycle start -/
  pending : Option (Stamp × Sched) := none
  crossing : List Copy := []
  staging : List Copy := []
  fifo : List Copy := []
  /-- frames whose release instant has come, in sort order -/
  due : List Copy := []
  latestBegun : Option Stamp := none
  sending : Option Sending := none
  /-- the instant from which the next frame may begin: 20 byte times after the last one's last byte (R251) -/
  freeAt : Stamp := 0
  /-- the port's own towpath frames that go ahead of every queued frame, oldest first (R318) -/
  ahead : List Bytes := []
  deriving DecidableEq, Repr

/-- A multicast queue entry granted to an egress slice (R231, R269). -/
structure Replica where
  pkt : Nat
  slice : Nat
  queue : Nat
  gran : Nat
  made : Bool := false
  left : Nat := 0
  deriving DecidableEq, Repr

/-- A group slot (Table LOCK-4). -/
structure GroupSlot where
  base : Nat := 0
  count : Nat := 0
  mask : Nat := 0
  groupD : Nat := 0
  vfrom : Nat := 0
  vuntil : Nat := 0
  valid : Bool := false
  immediate : Bool := false
  exclude : Bool := false
  deriving DecidableEq, Repr

/-- The egress side: the ports, the multicast arbiters and replication. -/
structure EgrState where
  ports : SMap EgressPort := []
  replicas : List Replica := []
  /-- per egress slice: the source last granted by its multicast arbiter -/
  mcLast : SMap Nat := []
  /-- per egress slice: the instant and L_sel of the grants of the last 64 core clocks (R229) -/
  grants : SMap (List (Stamp × Nat)) := []
  /-- gate list entries: index 512 × port + 256 × bank + i -/
  gates : SMap Nat := []
  /-- group slots by 2 × group + slot, and copy entries -/
  groups : SMap GroupSlot := []
  lists : SMap Nat := []
  /-- the instant the lock last left bypass (R258) -/
  lockSince : Stamp := 0
  deriving DecidableEq, Repr
/-! ## Joined systems (chapter "Joined Systems over Towpath Links") -/

/-- A member's entry of the membership vector (Table TOW-5) and when its sequence last advanced (R327, R328). -/
structure TowEntry where
  seq : Nat := 0
  flags : Nat := 0
  prio : Nat := 0
  seen : Stamp := 0
  deriving DecidableEq, Repr

/-- What a towpath neighbour last reported in a time frame (Table TOW-3). -/
structure TowPeer where
  master : Nat := 0xFFFF
  hops : Nat := 15
  flags : Nat := 0
  wts : Nat := 0
  deriving DecidableEq, Repr

/-- A towpath port's exchange of time frames (R320 to R322) and when its peer was last heard. -/
structure TowPort where
  heard : Option Stamp := none
  /-- when its last membership frame was received, and when its frequency was last compared -/
  beat : Option Stamp := none
  freqAt : Option Stamp := none
  tseq : Nat := 0
  txPrev : Stamp := 0
  /-- when its last time frame was sent -/
  lastSent : Option Stamp := none
  /-- transmit stamps of time frames the peer has not yet answered, by TSEQ -/
  sent : SMap Stamp := []
  /-- the last peer time frame received and its receive stamp -/
  rx : Option (Nat × Stamp) := none
  delays : List Int := []
  accepted : Nat := 0
  asym : List Int := []
  peer : TowPeer := {}
  deriving DecidableEq, Repr

/-- Block TOW beside its registers. -/
structure TowState where
  entries : SMap TowEntry := []
  ports : SMap TowPort := []
  ownSeq : Nat := 0
  /-- when membership frames were last sent -/
  beatAt : Option Stamp := none
  conflict : Bool := false
  master : Option Nat := none
  healIntent : Bool := false
  healAt : Stamp := 0
  /-- least slack per class in the epoch in force, ns -/
  slack : SMap Int := []
  pVer : Nat := 0
  pT : Nat := 0
  sysCurrent : Nat := 0
  sysEpoch : Nat := 0
  masterHash : Option Nat := none
  /-- the members reachable when the state was last judged -/
  reach : List Nat := []
  lastSealE : Nat := 0
  /-- the ports on which an anchor frame was sent and is not yet answered (R335) -/
  anchorDue : List Nat := []
  deriving DecidableEq, Repr

/-! ## In-package DRAM (chapter "In-Package DRAM, Scratchpad Banks and Hardware Queues") -/

/-- A capture entry waiting in the capture staging (R424, R425): the ingress stamp and rank that order it, and its bytes. -/
structure CapEntry where
  stamp : Stamp
  rank : Nat
  data : Bytes
  deriving DecidableEq, Repr

/-- A request to the DRAM controllers: its class (Table MEM-2), its DRAM byte address and its bytes, within one 64-byte word. -/
structure DramReq where
  cls : Nat
  addr : Nat
  len : Nat
  deriving DecidableEq, Repr

/-- Block HBM beside its registers. -/
structure HbmState where
  /-- the write queue of each pseudo-channel, oldest first (R417) -/
  writes : SMap (List DramReq) := []
  /-- the open row of each bank that has one, and whether a write opened it (R418) -/
  rows : SMap (Nat × Bool) := []
  /-- the patrol's last read of each line (R422), and the refreshes postponed by each pseudo-channel (R419) -/
  patrolled : SMap Stamp := []
  postponed : SMap Nat := []
  /-- each stack's last request (R421) -/
  lastReq : SMap Stamp := []
  /-- the capture staging and sequence, and the ring's bytes by offset, zero where not listed (R423 to R426) -/
  capStaging : List CapEntry := []
  capSeq : Nat := 0
  capRing : List Host.Cell := []
  deriving DecidableEq, Repr
/-- Block SCP: the scratchpad. -/
structure ScpState where
  /-- every byte of the scratchpad that is not 0, by its scratchpad byte address (R427) -/
  mem : List Host.Cell := []
  /-- banks under handover, with the instant the handover began and whether the bank is to be cleared (R429) -/
  handing : SMap (Stamp × Bool) := []
  /-- regions marked bad: 2,048 × bank + offset / 64, and the region the next test covers (R432) -/
  bad : List Nat := []
  region : Nat := 0
  /-- when the test last covered a region, and the regions whose test an owner's request cut short (R432) -/
  marchAt : Option Stamp := none
  again : List Nat := []
  /-- host writes that wait for the end of their bank's handover, in arrival order: address and value (R429) -/
  waiting : List (Nat × Nat) := []
  deriving DecidableEq, Repr
/-! ## Faults, refusals -/

/-- Why the machine stops. Every command of the table has an effect or no effect in every state (log entry 3), so no
meaning raises one; the constructor is there because the interface has a fault type. Safe: it is never answered. -/
inductive Fault where
  | neverRaised
  deriving DecidableEq, Repr

/-- Why a command has no meaning. `notModelled`: raised by Dispatch alone, for a row not yet written; safe, since the
machine stops where the hardware goes on. -/
inductive Refusal where
  | notModelled (mnemonic : String)
  deriving DecidableEq, Repr

/-! ## The state -/

/-- The DL-5120. `regs` holds every register of BAR0 whose value is not its reset value (R499); the other fields hold
what the spec gives the device beside its registers, `unit` the factory calibration record it carries; `pending`, `out` and `free` are the model's own. -/
structure State where
  pending : List Instr := []
  pins : Pins := {}
  unit : UnitRec := {}
  out : List Output := []
  free : Nat := 0
  time : Nat := 0
  regs : SMap Word64 := []
  stg : StgState := {}
  tim : TimState := {}
  ports : SMap PortSt := []
  nextPkt : Nat := 0
  nextRel : Nat := 1
  pkts : SMap Packet := []
  prs : PrsState := {}
  tab : TabState := {}
  scp : ScpState := {}
  que : QueState := {}
  mtr : MtrState := {}
  egr : EgrState := {}
  ver : VerState := {}
  tow : TowState := {}
  wit : WitState := {}
  sec : SecState := {}
  boot : BootState := {}
  hif : HifState := {}
  flt : FltState := {}
  cnd : CndState := {}
  kpr : SMap KprCore := []
  pmc : PmcState := {}
  hbm : HbmState := {}
  deriving DecidableEq, Repr

/-- The machine right after reset (R42, Table BOOT-7): every register at its reset value, device time 0, every queue
and table empty. -/
def State.reset : State := {}

end Sys2Proof.Machine
end

