-- ==== Sys2Proof/Machine/Ops.lean ====
section
/-! DEFINITION. The named operations every meaning is written with: reading and writing registers and fields, the
values in force, counting, device time, roles and rights, raising a source, and writing the witness. -/
namespace Sys2Proof.Machine
namespace State

/-! ## Registers -/

/-- What register `off` holds (R499: its reset value until something is written there). -/
def rd (s : State) (off : Nat) : Nat :=
  match mfind s.regs off with
  | some v => v.toNat
  | none => resetOf off

/-- Register `off` holding `v`. -/
def wr (s : State) (off v : Nat) : State :=
  { s with regs := mset (BitVec.ofNat 64 (resetOf off)) s.regs off (BitVec.ofNat 64 v) }

/-- A field of register `off`. -/
def fld (s : State) (off : Nat) (f : Fld) : Nat := bits (s.rd off) f.hi f.lo

/-- A one-bit field of register `off`. -/
def flag (s : State) (off : Nat) (f : Fld) : Bool := s.fld off f == 1

/-- Register `off` with a field replaced. -/
def setFld (s : State) (off : Nat) (f : Fld) (v : Nat) : State := s.wr off (putBits (s.rd off) f.hi f.lo v)

/-- A byte string laid in consecutive registers, byte 8i in bits [7:0] of register i (Tables VER-14, WIT-20, SEC-16). -/
def putBytes (s : State) (off : Nat) : Nat → Bytes → State
  | 0, _ => s
  | n + 1, bs => ((s.wr off (leAt bs 0 8)).putBytes (off + 8) n (bs.drop 8))

/-- The bytes of `n` consecutive registers. -/
def getBytes (s : State) (off n : Nat) : Bytes := (List.range n).flatMap (fun i => le 8 (s.rd (off + 8 * i)))

/-! ## Values in force (R8, R185, R186) -/

/-- A register with its STG fields taken from the table `m` of applied values. -/
def withStg (s : State) (m : SMap Word64) (off : Nat) : Nat :=
  let mask := accMask off .stg
  let v := match mfind m off with
    | some w => w.toNat
    | none => resetOf off
  (v &&& mask) + (s.rd off - (s.rd off &&& mask))

/-- Register `off` as the hardware uses it now: its STG fields as last applied, its other fields as they stand. -/
def cfg (s : State) (off : Nat) : Nat := s.withStg s.stg.force off

/-- A field in force. -/
def cfgFld (s : State) (off : Nat) (f : Fld) : Nat := bits (s.cfg off) f.hi f.lo

/-- A one-bit field in force. -/
def cfgFlag (s : State) (off : Nat) (f : Fld) : Bool := s.cfgFld off f == 1

/-- The distance of version `x` from OLDEST (R170). -/
def verDist (s : State) (x : Nat) : Nat := (x + 65535 - s.fld Reg.VER_STATE F.VER_STATE.OLDEST) % 65535

/-- Whether version `v` is live (R170). -/
def verLive (s : State) (v : Nat) : Bool :=
  v != 0 && decide (s.verDist v ≤ s.verDist (s.fld Reg.VER_STATE F.VER_STATE.CURRENT))

/-- Whether a packet of version `ver` and ingress stamp `t` falls under the values an apply bound so (R128, R185, R257). -/
def boundCovers (s : State) (b : Bound) (ver : Nat) (t : Stamp) : Bool :=
  match b with
  | .pipeline => true
  | .version v => decide (s.verDist v ≤ s.verDist ver)
  | .stamp t0 => decide (t0 ≤ t)

/-- Register `off` as it governs a packet of version `ver` and ingress stamp `t` (R185). -/
def cfgAt (s : State) (off ver : Nat) (t : Stamp) : Nat :=
  if s.boundCovers (mget .pipeline s.stg.bound (blockOf off)) ver t then s.cfg off else s.withStg s.stg.prev off

/-- A field as it governs a packet. -/
def cfgAtFld (s : State) (off : Nat) (f : Fld) (ver : Nat) (t : Stamp) : Nat := bits (s.cfgAt off ver t) f.hi f.lo

/-- The device with the values of block `b` in force that govern a packet of version `ver` and ingress stamp `t` (R185). -/
def viewAt (s : State) (b ver : Nat) (t : Stamp) : State :=
  if s.boundCovers (mget .pipeline s.stg.bound b) ver t then s else { s with stg := { s.stg with force := s.stg.prev } }

/-- Whether a packet is earlier than both values block `b` holds (R185, VER_STALE_USE). -/
def staleUse (s : State) (b ver : Nat) (t : Stamp) : Bool :=
  !(s.boundCovers (mget .pipeline s.stg.bound b) ver t) && !(s.boundCovers (mget .pipeline s.stg.bound0 b) ver t)

/-- The registers of block `b` that hold staged values anywhere. -/
def stgOffs (s : State) (b : Nat) : List Nat :=
  ((s.regs.map (·.1)) ++ (s.stg.force.map (·.1))).filter (fun o => blockOf o == b && accMask o .stg != 0)

/-- One register's shadow taken into force. -/
def applyOne (s : State) (off : Nat) : State :=
  let mask := accMask off .stg
  let v := (s.rd off) &&& mask
  { s with stg := { s.stg with force := mset (BitVec.ofNat 64 (resetOf off &&& mask)) s.stg.force off (BitVec.ofNat 64 v) } }

/-- Every shadow of block `b` taken into force at one instant, bound as `bd` says; the values in force until now become
the earlier ones (R185 to R187). -/
def applyBlock (s : State) (b : Nat) (bd : Bound) : State :=
  let old := s.stg.force.filter (fun e => blockOf e.1 == b)
  let rest := s.stg.prev.filter (fun e => blockOf e.1 != b)
  let prev := old.foldl (fun m e => mput m e.1 e.2) rest
  let s' := { s with stg := { s.stg with
    prev := prev,
    bound0 := mset .pipeline s.stg.bound0 b (mget .pipeline s.stg.bound b),
    bound := mset .pipeline s.stg.bound b bd } }
  (s.stgOffs b).foldl applyOne s'

/-! ## Device time (R42) -/

/-- Device time in units of 2^-16 ns: the 32 fraction bits below are not visible. -/
def now (s : State) : Stamp := s.time / 2 ^ 32

/-- The device time state (Table TIME-7). -/
def tq (s : State) : Nat := s.fld Reg.TIM_STATE F.TIM_STATE.TQ

/-- The timescale term w_ts at instant `t` as a fraction, in 2^-16 ps; `none` where it is unbounded (Table TIME-6, R61). -/
def wts (s : State) (t : Stamp) : Option (Nat × Nat) :=
  let q := s.tq
  if q = 2 ∨ q = 3 then some (65536 * s.fld Reg.TIM_TS_UNC F.TIM_TS_UNC.W_TS_PS, 1)
  else if q = 4 ∨ q = 5 ∨ q = 6 then
    let c := Reg.TIM_HOLD_COEF
    let d := t - s.tim.holdEntry
    let n := 2 * second * second * (s.tim.holdWts + s.cfgFld c F.TIM_HOLD_COEF.PHASE)
      + 2 * second * d * s.cfgFld c F.TIM_HOLD_COEF.FREQ + d * d * s.cfgFld c F.TIM_HOLD_COEF.DRIFT
    some (65536 * n, 2 * second * second)
  else none

/-- The UB code of the half-width whose parts are a square in (2^-16 ps)² and the fraction `w` (R60). -/
def ubOf (capSq : Nat) (w : Option (Nat × Nat)) : Nat :=
  match w with
  | none => 255
  | some (n, d) =>
    ((List.range 255).find? (fun c => decide (capSq * d * d + n * n ≤ (25 * 65536 * c * d) * (25 * 65536 * c * d)))).getD 255

/-- TIM_STATE.UB_BASE: the UB code of w_ts alone. -/
def ubBase (s : State) : Nat := ubOf 0 (s.wts s.now)

/-- The device is out of lock bypass (R17). -/
def lockActive (s : State) : Bool := s.flag Reg.TIM_STATE F.TIM_STATE.LOCK_ACTIVE

/-! ## Counters (R468 to R470) -/

/-- A snapshot whose copies are being taken includes a count made at or before its T (R34, R472). -/
def countedBy (s : State) (n k : Nat) (p : Snap) : Snap :=
  if s.now ≤ p.t then { p with frozen := p.frozen.map (fun m => mset 0 m n ((mget 0 m n + k) % 2 ^ 64)) } else p

/-- PMC_SAMPLE_CFG(i).PERIOD, values below 256 taken as 256 (R477). -/
def samplePeriod (s : State) (i : Nat) : Nat := max 256 (s.fld (Reg.PMC_SAMPLE_CFG i) F.PMC_SAMPLE_CFG.PERIOD)

/-- The samplers that follow counter `n` count `k` events more, which leave it at `v`: at PERIOD a sampler overflows and begins
again from 0 (R477). -/
def sampled (s : State) (n k v : Nat) : SMap Sampler :=
  (List.range 8).foldl (fun m i =>
    let c := Reg.PMC_SAMPLE_CFG i
    if s.flag c F.PMC_SAMPLE_CFG.EN && s.fld c F.PMC_SAMPLE_CFG.COUNTER == n then
      let a := mget {} m i
      mset {} m i (if s.samplePeriod i ≤ a.count + k then { a with count := 0, hit := some v } else { a with count := a.count + k })
    else m) s.pmc.samplers

/-- `k` counts of counter `n`. -/
def count (s : State) (n : Nat) (k : Nat := 1) : State :=
  let p := s.pmc
  let v := (mget 0 p.ctr n + k) % 2 ^ 64
  { s with pmc := { p with ctr := mset 0 p.ctr n v, samplers := s.sampled n k v, snap := p.snap.map (s.countedBy n k) } }

/-- A counter with the unit ns begins to accumulate (R470). -/
def startNs (s : State) (n : Nat) : State :=
  match mfind s.pmc.running n with
  | some _ => s
  | none => { s with pmc := { s.pmc with running := mput s.pmc.running n s.now } }

/-- A counter with the unit ns stops. -/
def stopNs (s : State) (n : Nat) : State :=
  match mfind s.pmc.running n with
  | none => s
  | some t0 =>
    { s with pmc := { s.pmc with
        running := mdel s.pmc.running n, spans := mset 0 s.pmc.spans n (mget 0 s.pmc.spans n + (s.now - t0)) } }

/-- The counters of block `b` clear at its reset (R469); a condition still in force counts from now on. -/
def clearCounters (s : State) (b : Nat) : State :=
  let others (m : SMap Nat) : SMap Nat := m.filter (fun e => e.1 / 2 ^ 19 != b)
  { s with pmc := { s.pmc with
      ctr := others s.pmc.ctr, spans := others s.pmc.spans,
      running := s.pmc.running.map (fun e => (e.1, if e.1 / 2 ^ 19 = b then s.now else e.2)) } }

/-- The records in the sample ring (R478). -/
def samplesHeld (s : State) : Nat :=
  (s.fld Reg.PMC_SAMPLE_IDX F.PMC_SAMPLE_IDX.TAIL + 65536 - s.fld Reg.PMC_SAMPLE_IDX F.PMC_SAMPLE_IDX.HEAD) % 65536

/-! ## The free value -/

/-- A value the spec leaves open, below `2 ^ w`, and the state that has taken it (log entry 4). -/
def takeFree (s : State) (w : Nat) : Nat × State := (Config.freeNat s.free % 2 ^ w, { s with free := s.free + 1 })

/-- Something that leaves the device. -/
def emit (s : State) (o : Output) : State := { s with out := s.out ++ [o] }

/-! ## Keeper interrupts (R410) -/

/-- A keeper core's interrupt of priority `p` becomes pending. One of higher priority that arrives in the 2 core cycles of an entry is
vectored in place of the one claimed, which stays pending (R117). -/
def kprPend (s : State) (core p : Nat) : State :=
  let k := mget {} s.kpr core
  let entering := s.tim.cycles < k.enteredAt + 2
  match k.serving with
  | some x =>
    if entering ∧ p < x then
      let back := if x = 0xFFF ∨ k.pending.contains x then k.pending else k.pending ++ [x]
      { s with kpr := mset {} s.kpr core { k with serving := some p, pending := back } }
    else if k.pending.contains p then s
    else { s with kpr := mset {} s.kpr core { k with pending := k.pending ++ [p] } }
  | none =>
    if k.pending.contains p then s
    else { s with kpr := mset {} s.kpr core { k with pending := k.pending ++ [p] } }

/-! ## Event requests (R403, R404) -/

/-- EVQ_CFG(q).EN. -/
def queueOn (s : State) (q : Nat) : Bool := s.flag (Reg.EVQ_CFG q) F.EVQ_CFG.EN

/-- The queue that receives a record of source `n` (R403); `none` where nothing is posted. -/
def route (s : State) (n payload : Nat) : Option Nat :=
  let r := Reg.EVQ_ROUTE n
  let q :=
    if n = Src.HIF_DMA_CPL then s.fld (Reg.HIF_DMA_CFG (bits payload 3 0)) F.HIF_DMA_CFG.EVQ
    else if n = Src.XMT_LEARN then 0
    else if n = Src.TIM_PTP_TX ∧ s.fld Reg.TIM_CTRL F.TIM_CTRL.SERVO_HOST = 0 then 1
    else s.fld r F.EVQ_ROUTE.QUEUE
  if s.flag r F.EVQ_ROUTE.EN && s.queueOn q then some q else none

/-- A record lost for queue `q` (R406); the flag says that this loss opens an episode. -/
def loseEvent (s : State) (q : Nat) (t : Stamp) : State × Bool :=
  let st := Reg.EVQ_STAT q
  let lost := s.fld st F.EVQ_STAT.LOST
  let s := s.count (Ctr.EVQ_LOST q)
  let s := (s.setFld st F.EVQ_STAT.OVERRUN 1).setFld st F.EVQ_STAT.LOST (min (lost + 1) 0xFFFF_FFFF)
  if lost = 0 then
    let e := mget {} s.hif.queues q
    ({ s with hif := { s.hif with queues := mset {} s.hif.queues q { e with firstLost := t } } }, true)
  else (s, false)

/-- A firing of source `n` requests its event record (R404). The second part names a queue whose overflow episode this
firing has opened. -/
def request (s : State) (n payload : Nat) (t : Stamp) : State × Option Nat :=
  match s.route n payload with
  | none => (s, none)
  | some q =>
    if messageSource n then
      if (s.hif.msgs.filter (fun m => m.src / 64 == n / 64)).length < 64 then
        ({ s with hif := { s.hif with msgs := s.hif.msgs ++ [⟨n, payload, t⟩] } }, none)
      else
        let (s, first) := s.loseEvent q t
        (s, if first then some q else none)
    else
      let put (s : State) (c : CondReq) : State := { s with hif := { s.hif with conds := mput s.hif.conds n c } }
      match mfind s.hif.conds n with
      | none => (put s ⟨.pending, payload, t, false⟩, none)
      | some c =>
        match c.phase with
        | .active => (put s ⟨.activePending, payload, t, false⟩, none)
        | _ =>
          if c.withdrawn then (put s { c with payload := payload, time := t, withdrawn := false }, none)
          else (s.count (Ctr.EVQ_MERGED q), none)

/-! ## Raising a source (R444, R445) -/

/-- FLT_SRC_CFG(n).REACT in force: a fixed reaction is always there (Table FLT-2). -/
def react (s : State) (n : Nat) : Nat :=
  let r := s.fld (Reg.FLT_SRC_CFG n) F.FLT_SRC_CFG.REACT
  if n = Src.FLT_PLL_LOSS then r ||| 0x08 else if n = Src.FLT_FERRY_REQ then r ||| 0x20 else r

/-- The sticky bit and the fault-state bit of a source. -/
def sticky (s : State) (n : Nat) : Bool := bitOf (s.rd (Reg.FLT_STICKY (n / 64))) (n % 64)

/-- Whether a source is in its fault state. -/
def inFault (s : State) (n : Nat) : Bool := bitOf (s.rd (Reg.FLT_INFAULT (n / 64))) (n % 64)

/-- One bit of a register. -/
def putBit (s : State) (off i : Nat) (b : Bool) : State := s.wr off (putBits (s.rd off) i i (b2n b))

/-- The collector notes an assertion with event time `t` (R444): it is counted, the sticky bit and the fault state are set, and
a new episode begins where the source was not in its fault state. LAST_SOURCE is the source of the latest device time (R26). -/
def noteAssert (s : State) (n : Nat) (t : Stamp) : State :=
  let fs := mget {} s.flt.faults n
  let x : FaultSt := { fs with last := s.now, blkDone := if s.inFault n then fs.blkDone else false }
  let s := ((s.count (Ctr.FLT_ASSERTIONS n)).putBit (Reg.FLT_STICKY (n / 64)) (n % 64) true).putBit (Reg.FLT_INFAULT (n / 64)) (n % 64) true
  let s := { s with flt := { s.flt with faults := mput s.flt.faults n x } }
  if t < s.flt.lastAt then s
  else { s with flt := { s.flt with lastAt := t } }.setFld Reg.FLT_STATUS F.FLT_STATUS.LAST_SOURCE n

/-- The reactions `r` of source `n` beside EVT and PIN (R445): NMI at once; DEG, and BLK once in an episode, become due; CHIP,
or BLK of a block that has no reset of its own, is due 20 µs from now. -/
def reactDue (s : State) (n r : Nat) : State :=
  let fs := mget {} s.flt.faults n
  let own := !(n / 64 == 0 || n / 64 == 16 || n / 64 == 23)
  let blk := bitOf r 2 && !fs.blkDone
  let s := if bitOf r 1 then s.kprPend (s.fld (Reg.FLT_SRC_CFG n) F.FLT_SRC_CFG.KCORE) 0 else s
  let due := s.flt.due ++ (if bitOf r 5 then [.degrade n] else []) ++ (if blk && own then [.blockReset n] else [])
  let faults := if blk then mput s.flt.faults n { fs with blkDone := true } else s.flt.faults
  let chip := if (bitOf r 3 || (blk && !own)) && s.flt.chipDue.isNone then some (n, s.now) else s.flt.chipDue
  { s with flt := { s.flt with due := due, faults := faults, chipDue := chip } }

/-- What the collector does with an assertion (R444) and the reactions in force in the order of R445; while the source's wire pair
is broken NMI, BLK, CHIP and DEG are not performed (R448). The second part names a queue whose overflow episode the request has
opened. -/
def assertSrc (s : State) (n payload : Nat) (t : Stamp) : State × Option Nat :=
  let r := s.react n
  let (u, ov) := if bitOf r 0 then (s.noteAssert n t).request n payload t else (s.noteAssert n t, none)
  (if (mget {} s.flt.faults n).broken then u else u.reactDue n r, ov)

/-- Source `n` asserts with event time `t` (R38, R444); a loss that this causes raises EVQ_OVERFLOW_SEEN (R406). -/
def raiseAt (s : State) (n payload : Nat) (t : Stamp) : State :=
  match s.assertSrc n payload t with
  | (s, none) => s
  | (s, some q) => (s.assertSrc Src.EVQ_OVERFLOW_SEEN q s.now).1

/-- Source `n` asserts now. -/
def raise (s : State) (n : Nat) (payload : Nat := 0) : State := s.raiseAt n payload s.now

/-- The lantern is at fault (R449): until CFG_READY.FAULT has set in this start-up, in a lantern test, and while a source whose REACT
in force includes PIN has its sticky bit set. -/
def lanternFault (s : State) : Bool :=
  (!(bitOf (s.rd Reg.CFG_READY) 2) && (mfind s.boot.resetting 20).isNone) || s.flt.testUntil.isSome ||
    (s.regs.any (fun e => decide (Reg.FLT_STICKY 0 ≤ e.1 ∧ e.1 < Reg.FLT_STICKY 24) &&
      (List.range 64).any (fun i => bitOf e.2.toNat i && bitOf (s.react (64 * ((e.1 - Reg.FLT_STICKY 0) / 8) + i)) 4)))

/-- A source's sticky bit is cleared by a write of 1, which withdraws a request still pending for it (R405, R446). -/
def clearSticky (s : State) (n : Nat) : State :=
  let s := s.putBit (Reg.FLT_STICKY (n / 64)) (n % 64) false
  match mfind s.hif.conds n with
  | some c =>
    match c.phase with
    | .active => s
    | _ => { s with hif := { s.hif with conds := mput s.hif.conds n { c with withdrawn := true } } }
  | none => s

/-! ## Readiness (R378) -/

/-- Bit `i` of CFG_READY. -/
def ready (s : State) (i : Nat) : Bool := bitOf (s.rd Reg.CFG_READY) i

/-- Bit `i` of CFG_READY becomes `b`; a change raises the source of that number.
CFG_READY.KEEPER setting asks for a re-plan (R461). -/
def setReady (s : State) (i : Nat) (b : Bool) : State :=
  if s.ready i = b then s
  else
    let s := if i == 5 && b then { s with cnd := { s.cnd with asked := true } } else s
    (s.putBit Reg.CFG_READY i b).raise (Src.CFG_READY_BIT i) (b2n b)

/-- The device is in ferry mode (R452). -/
def inFerry (s : State) : Bool := s.fld Reg.FLT_STATUS F.FLT_STATUS.FERRY != 0

/-- The witness is healthy (R456): WIT and SEC are ready and no source of either block is in its fault state. -/
def witHealthy (s : State) : Bool :=
  s.ready 7 && s.ready 0 && s.rd (Reg.FLT_INFAULT 14) == 0 && s.rd (Reg.FLT_INFAULT 1) == 0

/-- Recorders write no records: ferry mode with the witness not healthy (R456). -/
def witMuted (s : State) : Bool := s.inFerry && !s.witHealthy

/-! ## Roles and rights (R356, R359, R360) -/

/-- The role code of an agent (Table SEC-7). -/
def roleOf (s : State) : Agent → Nat
  | .host fn => if fn = 0 then (if s.flag Reg.SEC_STATUS F.SEC_STATUS.SESSION then 1 else 2) else 3
  | _ => 0

/-- The first active protection entry of kind `k`, from entry `e` on, that covers unit `u`: its rights for `role`. -/
def rightsFrom (s : State) (k u role : Nat) : Nat → Nat → Nat
  | 0, _ => 0
  | n + 1, e =>
    let w0 := s.rd (Reg.SEC_PROT_ACTIVE e 0)
    let w1 := s.rd (Reg.SEC_PROT_ACTIVE e 1)
    if bits w0 2 0 = k ∧ bits w0 47 16 ≤ u ∧ u ≤ bits w1 31 0 then
      (if role = 2 then bits w0 7 4 else bits w0 11 8)
    else s.rightsFrom k u role n (e + 1)

/-- Whether a role holds right `r` (0 READ, 1 WRITE, 2 CMD) for unit `u` of kind `k` (R359). -/
def permits (s : State) (role k u r : Nat) : Bool :=
  role ≤ 1 || bitOf (s.rightsFrom k u role 256 0) r

/-- A denial is counted and recorded, and the first since SEEN was cleared is raised (R360). -/
def deny (s : State) (role kind addr : Nat) : State :=
  let s := s.count (Ctr.SEC_DENIED_CNT (7 * role + (kind - 1)))
  let d := Reg.SEC_DENY
  let seen := s.flag d F.SEC_DENY.SEEN
  let s := ((s.setFld d F.SEC_DENY.ROLE role).setFld d F.SEC_DENY.KIND kind).setFld d F.SEC_DENY.ADDR addr
  if seen then s else (s.setFld d F.SEC_DENY.SEEN 1).raise Src.SEC_DENIED (role + 4 * kind)

/-! ## In-package DRAM (R414, R421) -/

/-- The pseudo-channel that holds the 256-byte line at DRAM byte address `a` (R414). -/
def dramPc (a : Nat) : Nat := bits a 13 8 ^^^ bits a 19 14

/-- The stack that holds the line at DRAM byte address `a` (R414). -/
def hbmStack (a : Nat) : Nat := dramPc a / 32

/-- The bank of DRAM byte address `a`, with its pseudo-channel: the key of its open row. -/
def dramBank (a : Nat) : Nat := dramPc a + 64 * Config.dramBank (bits a 35 14) (bits a 7 0)

/-- The row of DRAM byte address `a`. -/
def dramRow (a : Nat) : Nat := Config.dramRow (bits a 35 14) (bits a 7 0)

/-- The row of `a` is open (R418). -/
def rowOpen (s : State) (a : Nat) : Bool := match mfind s.hbm.rows (dramBank a) with
  | some x => x.1 == dramRow a
  | none => false

/-- The row of `a` is one that the queue's writes have opened (R417). -/
def writeOpened (s : State) (a : Nat) : Bool := match mfind s.hbm.rows (dramBank a) with
  | some x => x.1 == dramRow a && x.2
  | none => false

/-- A request reaches stack `k`: it leaves self-refresh, and its idle time begins again (R421). -/
def hbmWake (s : State) (k : Nat) : State :=
  let s := { s with hbm := { s.hbm with lastReq := mput s.hbm.lastReq k s.now } }
  if s.flag (Reg.HBM_STAT k) F.HBM_STAT.SELF_REFRESH then
    (s.setFld (Reg.HBM_STAT k) F.HBM_STAT.SELF_REFRESH 0).stopNs (Ctr.HBM_SR_NS k)
  else s

/-- A request is served: its bytes count for its class, and it meets its row open or opens it, closing the bank's other row (R418,
Table MEM-20). -/
def dramServe (s : State) (write : Bool) (r : DramReq) : State :=
  let k := hbmStack r.addr
  let s := s.count (Ctr.HBM_BYTES r.cls) r.len
  if s.rowOpen r.addr then s.count (Ctr.HBM_ROW_HIT k)
  else
    let s := { s with hbm := { s.hbm with rows := mput s.hbm.rows (dramBank r.addr) (dramRow r.addr, write) } }
    s.count (Ctr.HBM_ROW_MISS k)

/-- The write queue of pseudo-channel `pc`. -/
def writeQueue (s : State) (pc : Nat) : List DramReq := mget [] s.hbm.writes pc

/-- The write queue of pseudo-channel `pc` replaced. -/
def setWriteQueue (s : State) (pc : Nat) (q : List DramReq) : State :=
  { s with hbm := { s.hbm with writes := mset [] s.hbm.writes pc q } }

/-- The write of a queue served next: of its lowest class, one to an open row unless 16 in a row have overtaken the oldest, else
the oldest (R416). -/
def nextWrite (s : State) (overtaken : Nat) (q : List DramReq) : Option DramReq :=
  let low := q.foldl (fun a r => min a r.cls) 5
  let mine := q.filter (fun r => r.cls == low)
  match if overtaken < 16 then mine.find? (fun r => s.rowOpen r.addr) else none with
  | some r => some r
  | none => mine.head?

/-- `n` writes of pseudo-channel `pc`'s queue are served; `overtaken` row hits have overtaken its oldest so far (R416). -/
def serveWrites (pc : Nat) : Nat → Nat → State → State
  | 0, _, s => s
  | n + 1, overtaken, s =>
    let q := s.writeQueue pc
    match s.nextWrite overtaken q with
    | none => s
    | some r =>
      let o := if q.find? (fun x => x.cls == r.cls) == some r then 0 else overtaken + 1
      serveWrites pc n o ((s.setWriteQueue pc (q.erase r)).dramServe true r)

/-- Pseudo-channel `pc` serves the writes it may, `reads` naming the banks that reads of class 2 or 3 wait for: all of them where no
such read waits for the pseudo-channel; a batch from HIGH down to LOW; a write of a row that the queue's writes have opened where
no read waits for its bank (R417). -/
def drainWrites (reads : List Nat) (s : State) (pc : Nat) : State :=
  let n := (s.writeQueue pc).length
  let wm := Reg.HBM_WM
  if !(reads.any (fun b => b % 64 == pc)) then serveWrites pc n 0 s
  else
    let s := if s.cfgFld wm F.HBM_WM.HIGH ≤ n then serveWrites pc (n - s.cfgFld wm F.HBM_WM.LOW) 0 s else s
    (s.writeQueue pc).foldl (fun s r =>
      if s.writeOpened r.addr && !(reads.contains (dramBank r.addr)) then
        (s.setWriteQueue pc ((s.writeQueue pc).erase r)).dramServe true r
      else s) s

/-- Every pseudo-channel serves the writes it may. -/
def drainAll (reads : List Nat) (s : State) : State := (s.hbm.writes.map (·.1)).foldl (drainWrites reads) s

/-- The requests, within 64-byte words, that `n` bytes from DRAM byte address `a` make. -/
def dramReqs (cls a n : Nat) : List DramReq :=
  (List.range ((a + n + 63) / 64 - a / 64)).map (fun i =>
    let lo := max a (64 * (a / 64 + i))
    ⟨cls, lo, min (a + n) (64 * (a / 64 + i) + 64) - lo⟩)

/-- Class `cls` reads `n` bytes from DRAM byte address `a`. -/
def hbmRead (s : State) (cls a n : Nat) : State :=
  (dramReqs cls a n).foldl (fun s r => (s.hbmWake (hbmStack r.addr)).dramServe false r) s

/-- Class `cls` writes `n` bytes from DRAM byte address `a`, while reads of class 2 or 3 wait for the banks `reads`: class 1 is served
at once, classes 4 and 5 enter their write queues (R417, R420). -/
def hbmWrite (s : State) (cls a n : Nat) (reads : List Nat) : State :=
  drainAll reads ((dramReqs cls a n).foldl (fun s r =>
    let s := s.hbmWake (hbmStack r.addr)
    let pc := dramPc r.addr
    if cls = 1 then s.dramServe true r
    else drainWrites reads (s.setWriteQueue pc (s.writeQueue pc ++ [r])) pc) s)

/-- The witness writes that wait in a write queue are served as class 1: those in the `n` bytes of the ring at `a` (R420). -/
def panicWrites (s : State) (a n : Nat) : State :=
  s.hbm.writes.foldl (fun s e =>
    e.2.foldl (fun s r =>
      if a ≤ r.addr ∧ r.addr < a + n then
        (s.setWriteQueue e.1 ((s.writeQueue e.1).erase r)).dramServe true { r with cls := 1 }
      else s) s) s

/-- An error met in the read of the 64-bit word at DRAM byte address `a`: 1 a single-bit error, corrected; 2 a double-bit error (R422). -/
def hbmError (s : State) (a err : Nat) : State :=
  if err = 1 then s.count (Ctr.HBM_ECC_CORR (hbmStack a))
  else if err = 2 then
    ((s.setFld Reg.HBM_ECC_STAT F.HBM_ECC_STAT.LINE (a / 64)).setFld Reg.HBM_ECC_STAT F.HBM_ECC_STAT.UNCORR 1).raise
      Src.HBM_ECC_UNCORR (a / 64)
  else s

/-- A read of class `cls` from the copy region, whose layout the spec does not give: where it lies and how long it is stay open
(log entry 4). -/
def copyRead (s : State) (cls : Nat) : State :=
  let (a, s) := s.takeFree 32
  let (n, s) := s.takeFree 12
  s.hbmRead cls (0xB_0000_0000 + a) n

/-! ## The witness (R278 to R293) -/

/-- The slice that owns a port or a lane (R13); the management ports and lanes belong to stream 0's control records. -/
def sliceOf (port : Nat) : Nat := if port < 512 then port / 32 else 0

/-- The recorder of stream `st`. -/
def recorder (s : State) (st : Nat) : Recorder := mget {} s.wit.recs st

/-- The recorder of stream `st` replaced. -/
def setRecorder (s : State) (st : Nat) (r : Recorder) : State :=
  { s with wit := { s.wit with recs := mset {} s.wit.recs st r } }

/-- A record's 32 bytes. -/
def recBytes (r : WRec) : Bytes := le 8 r.w0.toNat ++ le 8 r.w1.toNat ++ le 8 r.w2.toNat ++ le 8 r.w3.toNat

/-- The units of stream `st` that wait for the ring. -/
def stagedUnits (s : State) (st : Nat) : Nat := (s.wit.staged.filter (fun u => u.stream == st)).length

/-- WIT_STREAM_STAT(s).STAGING follows the staging, and panic is raised above 24 units and released at 16 (R293). -/
def syncStaging (s : State) : State :=
  let s := (List.range 17).foldl (fun s st =>
    s.setFld (Reg.WIT_STREAM_STAT st) F.WIT_STREAM_STAT.STAGING
      (s.stagedUnits st + (if (s.recorder st).blk.isSome then 1 else 0))) s
  let lv (st : Nat) := s.fld (Reg.WIT_STREAM_STAT st) F.WIT_STREAM_STAT.STAGING
  match s.wit.panic with
  | none =>
    match (List.range 16).find? (fun st => decide (24 < lv st)) with
    | some st =>
      ((({ s with wit := { s.wit with panic := some s.now } }.startNs Ctr.WIT_PANIC_NS).setFld (Reg.HBM_STAT 0) F.HBM_STAT.PANIC 1).setFld
        (Reg.HBM_STAT 1) F.HBM_STAT.PANIC 1).raise Src.WIT_PANIC st
    | none => s
  | some _ =>
    if (List.range 16).all (fun st => decide (lv st ≤ 16)) then
      (({ s with wit := { s.wit with panic := none } }.stopNs Ctr.WIT_PANIC_NS).setFld (Reg.HBM_STAT 0) F.HBM_STAT.PANIC 0).setFld
        (Reg.HBM_STAT 1) F.HBM_STAT.PANIC 0
    else s

/-- The exact count of gap class `k` since the stream's last block closed. -/
def gapOf (r : Recorder) (k : Nat) : Gap := mget {} r.gaps k

/-- The classes whose count needs a GAP record (R291). -/
def bigGaps (r : Recorder) : List Nat := (List.range 5).filter (fun k => decide (0xFFFF ≤ (gapOf r k).count))

/-- A GAP record (R291). -/
def gapRec (k : Nat) (g : Gap) : WRec :=
  let tm (t : Stamp) := ((t / second) % 2 ^ 32) * 2 ^ 32 + (t % second) / 65536
  ⟨BitVec.ofNat 64 (tm g.first), BitVec.ofNat 64 (6 * 2 ^ 60 + k * 2 ^ 56), BitVec.ofNat 64 g.count,
    BitVec.ofNat 64 (tm g.last)⟩

/-- The kind of a record (Table WIT-1). -/
def recKind (r : WRec) : Nat := bits r.w1.toNat 63 60

/-- A record with its INDEX field set, where its kind has one (Table WIT-2). -/
def withIndex (i : Nat) (r : WRec) : WRec :=
  let k := recKind r
  if k = 1 ∨ k = 2 ∨ k = 3 then { r with w2 := BitVec.ofNat 64 (putBits r.w2.toNat 15 0 i) } else r

/-- A record with gap-follows set (R292). -/
def withGap (r : WRec) : WRec := { r with w1 := r.w1 ||| 1 }

/-- The 4,096 bytes of the block that closes now, without its trailing zeros (Table WIT-5, R288, R291). -/
def blockBytes (s : State) (st : Nat) (r : Recorder) (b : OpenBlk) (last : Bool) : Bytes :=
  let big := bigGaps r
  let recs := (big.map (fun k => gapRec k (gapOf r k))) ++ b.recs
  let recs := (recs.zipIdx 2).map (fun e => withIndex e.2 e.1)
  let seq := s.fld (Reg.WIT_STREAM_STAT st) F.WIT_STREAM_STAT.NEXT_SEQ
  let flags := b2n (!r.started) + 2 * b2n last + 4 * b2n (!big.isEmpty) + 8 * b2n b.lead + 16 * b2n b.adrift
  let prev := if r.started then s.getBytes (Reg.WIT_HEAD st 0) 4
    else sha256 (ascii "BIURN" ++ sub s.sec.certId 0 16 ++ le 1 (0x20 + st) ++ le 12 (d96 b.base))
  le 1 (0x20 + st) ++ le 6 seq ++ le 1 recs.length ++ le 12 (d96 b.base) ++ le 1 flags
    ++ le 1 (s.fld Reg.WIT_EPOCH_STAT F.WIT_EPOCH_STAT.EPOCH % 256)
    ++ (List.range 5).flatMap (fun k => le 2 (min (gapOf r k).count 0xFFFF)) ++ prev ++ recs.flatMap recBytes

/-- The chain head of a block (R289), over its whole 4,096 bytes. -/
def chainHead (blk : Bytes) : Bytes := sha256 (sub blk 32 32 ++ sub blk 0 32 ++ sub blk 64 4032)

/-- Stream `st`'s open block closes and waits in staging for the ring (R288, R289, R298). -/
def closeBlock (s : State) (st : Nat) (last : Bool := false) : State :=
  let r := s.recorder st
  match r.blk with
  | none => s
  | some b =>
    let bytes := s.blockBytes st r b last
    let n := bits (byteAt bytes 7) 6 0
    let seq := s.fld (Reg.WIT_STREAM_STAT st) F.WIT_STREAM_STAT.NEXT_SEQ
    let eg := (List.range 5).foldl (fun m k => mset 0 m k (mget 0 m k + (gapOf r k).count)) s.wit.epochGaps
    let s := s.setRecorder st { blk := none, started := true, gaps := [], anyClosed := true, epochRecs := r.epochRecs + n }
    let u : WUnit := ⟨st, bytes⟩
    let s := { s with wit := { s.wit with staged := s.wit.staged ++ [u], epochGaps := eg } }
    let s := s.setFld (Reg.WIT_STREAM_STAT st) F.WIT_STREAM_STAT.NEXT_SEQ (seq + 1)
    let s := s.putBytes (Reg.WIT_HEAD st 0) 4 (chainHead bytes)
    ((s.count (Ctr.WIT_BLOCKS st)).count (Ctr.WIT_RECORDS st) (bigGaps r).length).syncStaging

/-- The member is Adrift: in ADRIFT, or HEALING and not yet rejoined (Table TOW-6). -/
def isAdrift (s : State) : Bool :=
  s.fld Reg.TOW_STATE F.TOW_STATE.STATE == 3 || s.fld Reg.TOW_STATE F.TOW_STATE.STATE == 4

/-- A block opens for stream `st` unless one is open or the staging is full (R288, R293). Losses held until now enter it
ahead of its data (R292). -/
def openBlock (s : State) (st : Nat) : State :=
  let r := s.recorder st
  if r.blk.isSome then s
  else if 32 ≤ s.stagedUnits st then s
  else
    let lead := (List.range 4).any (fun k => decide (0 < (gapOf r k).count))
    (s.setRecorder st { r with blk := some { base := s.now, lead := lead, adrift := s.isAdrift } }).syncStaging

/-- The most recent record that heads an entry gets gap-follows; an open block without data gets GAP_LEAD (R292). -/
def markGap (b : OpenBlk) : OpenBlk :=
  let rec go : List WRec → List WRec
    | [] => []
    | r :: rs => if recKind r = 9 then r :: go rs else withGap r :: rs
  if b.recs.isEmpty then { b with lead := true } else { b with recs := (go b.recs.reverse).reverse }

/-- The count of an event in gap class `k` of stream `st`, and what a loss shows beside (R291, R292, Table WIT-8). While
recorders write no records this is all there is: no block is opened (R453, R456). -/
def gapCount (s : State) (st k : Nat) (t : Stamp) : State :=
  let s := s.count (Ctr.WIT_LOST k st)
  let r := s.recorder st
  let g := gapOf r k
  let g : Gap := { count := g.count + 1, first := if g.count = 0 then t else g.first, last := t }
  let r := { r with gaps := mput r.gaps k g }
  let s := s.setRecorder st (if k < 4 then { r with blk := r.blk.map markGap } else r)
  let ss := Reg.WIT_STREAM_STAT st
  if k < 4 && !(s.flag ss F.WIT_STREAM_STAT.LOSS_SEEN) then
    (s.setFld ss F.WIT_STREAM_STAT.LOSS_SEEN 1).raise Src.WIT_GAP (st + 32 * k)
  else s

/-- The open block of stream `st` closes where it holds 126 data records, the GAP records it will need among them (R288,
R291). -/
def closeFull (s : State) (st : Nat) : State :=
  let r := s.recorder st
  match r.blk with
  | some b => if 126 ≤ b.recs.length + (bigGaps r).length then s.closeBlock st else s
  | none => s

/-- An event of gap class `k` of stream `st` is not recorded: lost for classes 0 to 3, not selected for class 4
(R291, R292). -/
def gapEvent (s : State) (st k : Nat) (t : Stamp) : State := ((s.openBlock st).gapCount st k t).closeFull st

/-- The witness records: CFG_READY.WIT is set and WIT_CTL.EN is 1. -/
def witOn (s : State) : Bool := s.ready 7 && s.flag Reg.WIT_CTL F.WIT_CTL.EN

/-- Records of one entry, always within one block, are written to stream `st`; with the staging full they are lost in
gap class `k` (R285, R288, R290). -/
def putRecs (s : State) (st k : Nat) (t : Stamp) (recs : List WRec) : State :=
  let room (r : Recorder) : Bool := match r.blk with
    | some b => decide (b.recs.length + recs.length + (bigGaps r).length ≤ 126)
    | none => false
  let s := if (s.recorder st).blk.isSome && !(room (s.recorder st)) then s.closeBlock st else s
  let s := s.openBlock st
  let r := s.recorder st
  match r.blk with
  | none => s.gapEvent st k t
  | some b =>
    let s := s.setRecorder st { r with blk := some { b with recs := b.recs ++ recs } }
    (s.count (Ctr.WIT_RECORDS st) recs.length).closeFull st

/-- The records of a control event (R285). The base second is that of the block it goes into. -/
def ctlRecs (base : Nat) (e : CtlEvent) : List WRec :=
  let n := if e.payload.length ≤ 16 then 0 else min 3 (ceilDiv (e.payload.length - 16) 24)
  let head : WRec := ⟨BitVec.ofNat 64 (d64 base e.time),
    BitVec.ofNat 64 (8 * 2 ^ 60 + (e.tq % 16) * 2 ^ 56 + (e.ub % 256) * 2 ^ 48 + e.subtype * 2 ^ 40 + n * 2 ^ 38),
    BitVec.ofNat 64 (leAt e.payload 0 8), BitVec.ofNat 64 (leAt e.payload 8 8)⟩
  head :: (List.range n).map (fun i =>
    ⟨BitVec.ofNat 64 (leAt e.payload (16 + 24 * i) 8), BitVec.ofNat 64 (9 * 2 ^ 60 + (i + 1)),
      BitVec.ofNat 64 (leAt e.payload (24 + 24 * i) 8), BitVec.ofNat 64 (leAt e.payload (32 + 24 * i) 8)⟩)

/-- The base second of the block the next `n` records of stream `st` go into (R288). -/
def baseFor (s : State) (st n : Nat) : Nat :=
  let r := s.recorder st
  let fresh := s.now / second - 1
  match r.blk with
  | some b => if b.recs.length + n + (bigGaps r).length ≤ 126 then b.base / second - 1 else fresh
  | none => fresh

/-- A control event is written to its stream (R285). -/
def writeCtl (s : State) (e : CtlEvent) : State :=
  let n := (ctlRecs 0 e).length
  s.putRecs e.stream 3 e.time (ctlRecs (s.baseFor e.stream n) e)

/-- The records of stream `st` held apart in its control staging (R293). -/
def ctlHeld (s : State) (st : Nat) : Nat :=
  (s.wit.early.map (fun e => if e.stream == st then (ctlRecs 0 e).length else 0)).sum

/-- A control event can be written now: into the open block, or into a block that the staging has room for (R285, R293). -/
def ctlFits (s : State) (e : CtlEvent) : Bool :=
  let r := s.recorder e.stream
  match r.blk with
  | some b => decide (b.recs.length + (ctlRecs 0 e).length + (bigGaps r).length ≤ 126 ∨ s.stagedUnits e.stream + 1 < 32)
  | none => decide (s.stagedUnits e.stream < 32)

/-- A control event waits in its stream's control staging, which holds 64 records (R293, R377, Table MEM-6). -/
def holdCtl (s : State) (e : CtlEvent) : State :=
  if s.ctlHeld e.stream + (ctlRecs 0 e).length ≤ 64 then { s with wit := { s.wit with early := s.wit.early ++ [e] } }
  else s.gapCount e.stream 3 e.time

/-- An event put in its place by event time, before those of the same time. -/
def insertEarly (e : CtlEvent) : List CtlEvent → List CtlEvent
  | [] => [e]
  | x :: xs => if e.time ≤ x.time then e :: x :: xs else x :: insertEarly e xs

/-- What waits in stream `st`'s control staging is written in order of event time, as far as it fits (R293, R377, R433). -/
def drainCtl (s : State) (st : Nat) : State :=
  let mine := (s.wit.early.filter (fun e => e.stream == st)).foldr insertEarly []
  let s := { s with wit := { s.wit with early := s.wit.early.filter (fun e => e.stream != st) } }
  mine.foldl (fun s e => if s.ctlHeld st = 0 ∧ s.ctlFits e then s.writeCtl e else s.holdCtl e) s

/-- A control event of subtype `ty` happens at `t` (R285, R286). While the witness does not run, or the staging has no room, it waits
in its stream's control staging (R293, R377). -/
def control (s : State) (st ty : Nat) (payload : Bytes) (t : Stamp) : State :=
  let e : CtlEvent := ⟨st, ty, t, s.tq, s.ubBase, payload⟩
  if s.witMuted then s.gapCount st 3 t
  else if s.witOn && s.ctlHeld st == 0 && s.ctlFits e then s.writeCtl e
  else s.holdCtl e

/-- A control event concerning the whole device, now: stream 0 (R278). -/
def controlNow (s : State) (ty : Nat) (payload : Bytes) : State := s.control 0 ty payload s.now

end State
end Sys2Proof.Machine
end

