-- ==== Sys2Proof/Machine/Access.lean ====
section
/-! DEFINITION. Register writes: which are let through to the block (R10, R356 to R360, R380), and how one acts on the
register's fields (R8, R178, R188, R505). -/
namespace Sys2Proof.Machine
namespace State

/-! ## Ports and octets (R76, R77) -/

/-- The number of lanes of a port in octet mode `m` (Table PORT-1). -/
def lanesOfMode (m : Nat) : Nat := if m = 0 then 8 else if m = 1 then 4 else if m = 2 then 2 else 1

/-- PRT_OCTET.MODE of the octet that lane `l` lies in. -/
def octetMode (s : State) (l : Nat) : Nat := s.fld (Reg.PRT_OCTET (l / 8)) F.PRT_OCTET.MODE

/-- Whether number `p` names a port now (R76). -/
def portExists (s : State) (p : Nat) : Bool :=
  p == 512 || p == 513 || (decide (p < 512) && (p % 8) % lanesOfMode (s.octetMode p) == 0)

/-- The port that uses lane `l` (R76). -/
def portOfLane (s : State) (l : Nat) : Nat :=
  if l < 512 then l - (l % 8) % lanesOfMode (s.octetMode l) else l

/-- PRT_STATUS(p).HALTED. -/
def portHalted (s : State) (p : Nat) : Bool := s.flag (Reg.PRT_STATUS p) F.PRT_STATUS.HALTED

/-- The port numbers of octet `o` in its present mode. -/
def octetPorts (s : State) (o : Nat) : List Nat :=
  (List.range 8).filterMap (fun i => if s.portExists (8 * o + i) then some (8 * o + i) else none)

/-! ## Halted blocks (R188 and each chapter's own words) -/

/-- Whether the HLT fields of register `off` may be written: the port (R92), the octet's ports (R92), QUE (R216), WIT and
its export (R305), TOW (R338), HBM (R437), the queue (R411) or the channel (R395) is halted. -/
def haltedAt (s : State) (off : Nat) : Bool :=
  let ix := match regAt off with
    | some (_, i :: _) => i
    | _ => 0
  let b := blockOf off
  if b = 3 then
    if off = Reg.PRT_OCTET ix then (s.octetPorts ix).all s.portHalted
    else s.portHalted (if off % 0x1000 < 0x800 then ix else 512 + ix)
  else if b = 4 then s.portHalted (s.portOfLane (if off % 0x1000 < 0x800 then ix else 512 + ix))
  else if b = 11 then s.flag Reg.QUE_CTL F.QUE_CTL.HALTED
  else if b = 14 then
    if off = Reg.WIT_EXP_CTL then
      !(s.flag off F.WIT_EXP_CTL.PUSH_EN) && !(s.flag off F.WIT_EXP_CTL.PULL_EN) && !(s.flag off F.WIT_EXP_CTL.PORTS_EN)
    else !(s.flag Reg.WIT_CTL F.WIT_CTL.EN) && s.wit.staged.isEmpty
  else if b = 15 then
    !(s.cfgFlag Reg.TOW_CFG F.TOW_CFG.EN) && (List.range 512).all (fun p => !(s.flag (Reg.TOW_PORT_CFG p) F.TOW_PORT_CFG.EN))
  else if b = 16 then !(s.cfgFlag Reg.HBM_CAP_CFG F.HBM_CAP_CFG.EN) && s.hbm.capStaging.isEmpty
  else if b = 18 then decide (4 ≤ ix) && !(s.queueOn ix)
  else if b = 23 then s.flag (Reg.HIF_DMA_STAT ix) F.HIF_DMA_STAT.HALTED
  else false

/-- Whether an armed group holds the shadows of block `b` (R178). -/
def held (s : State) (b : Nat) : Bool :=
  s.fld Reg.VER_STATE F.VER_STATE.ARMED != 0 && bitOf s.ver.armedMask b

/-- Whether an agent writes WDN fields: the Warden and the image loader (R8, R374). -/
def isWarden (s : State) (by_ : Agent) : Bool := s.roleOf by_ == 1 || by_ == .loader

/-- What forbids a write to a field (R505): 1 a WDN field, 2 an HLT field of a running block, 3 a held STG field or
APPLY register; 0 nothing. Where two do, the first of them is the one reported (DESIGN CHOICE, log entry 10). -/
def forbids (s : State) (by_ : Agent) (off : Nat) (f : FieldD) : Nat :=
  let b := blockOf off
  if by_ = .loader then 0
  else if f.wdn && !(s.isWarden by_) then 1
  else if f.acc == .hlt && !(s.haltedAt off) then 2
  else if (f.acc == .stg || (f.acc == .act && applyReg off)) && s.held b then 3
  else 0
where
  /-- The APPLY registers of Table MAP-7. -/
  applyReg (off : Nat) : Bool :=
    [Reg.TIM_APPLY, Reg.PRT_APPLY, Reg.PRS_APPLY, Reg.XMT_APPLY, Reg.TCM_APPLY, Reg.FWD_APPLY, Reg.MTR_APPLY,
      Reg.QUE_APPLY, Reg.SCH_APPLY, Reg.LCK_APPLY, Reg.WIT_APPLY, Reg.TOW_APPLY, Reg.HBM_APPLY].contains off

/-- The value a field would take from a write, and the value it reads now. -/
def fieldNew (cur v : Nat) (f : FieldD) : Nat :=
  match f.acc with
  | .w1c => bits cur f.hi f.lo - (bits cur f.hi f.lo &&& bits v f.hi f.lo)
  | .act => 0
  | _ => bits v f.hi f.lo

/-- Whether a write would change a field: an action bit is changed only by a write of 1 (R505). -/
def fieldChanges (cur v : Nat) (f : FieldD) : Bool :=
  match f.acc with
  | .act => bits v f.hi f.lo != 0
  | _ => fieldNew cur v f != bits cur f.hi f.lo

/-- SEC_CFG.PERIODIC_H in effect (Table SEC-11). -/
def periodicHours (s : State) : Nat :=
  let h := s.fld Reg.SEC_CFG F.SEC_CFG.PERIODIC_H
  if s.flag Reg.SEC_STATUS F.SEC_STATUS.APPROVED ∧ (h = 0 ∨ 24 < h) then 24 else h

/-- What register `off` reads where a field of it reads otherwise than it was written (Table SEC-11). -/
def shown (s : State) (off : Nat) : Nat :=
  if off = Reg.SEC_CFG then putBits (s.rd off) F.SEC_CFG.PERIODIC_H.hi F.SEC_CFG.PERIODIC_H.lo s.periodicHours else s.rd off

/-- The writable fields of register `off`. -/
def fieldsOf (off : Nat) : List FieldD :=
  match regAt off with
  | some (d, _) => d.fields
  | none => []

/-- The source a forbidden write raises: the denial of R360, CFG_LIVE_WRITE of R188, or VER_SHADOW_HELD of R178. -/
def raiseForbidden (s : State) (by_ : Agent) (off why : Nat) : State :=
  if why = 1 then s.deny (s.roleOf by_) 6 (off / 8)
  else if why = 2 then s.raise Src.CFG_LIVE_WRITE (off / 8)
  else s.raise Src.VER_SHADOW_HELD (blockOf off)

/-- A write acts field by field (R505): the permitted fields take the written value as their code states, the forbidden
ones keep theirs, and each kind of violation that would have changed a field is raised once. -/
def writeFields (s : State) (by_ : Agent) (off v : Nat) : State :=
  let cur := s.rd off
  let fs := fieldsOf off
  let new := fs.foldl (fun w f => if s.forbids by_ off f = 0 && f.acc != .act then putBits w f.hi f.lo (fieldNew cur v f) else w) cur
  let bad (k : Nat) : Bool := fs.any (fun f => s.forbids by_ off f == k && fieldChanges (s.shown off) v f)
  let s1 := s.wr off new
  [1, 2, 3].foldl (fun t k => if bad k then t.raiseForbidden by_ off k else t) s1

/-- Whether the write-1 action field `f` of register `off` takes effect in a write of `v`. -/
def acts (s : State) (by_ : Agent) (off : Nat) (f : Fld) (v : Nat) : Bool :=
  bits v f.hi f.lo != 0 && (fieldsOf off).any (fun d => d.hi == f.hi && d.lo == f.lo && s.forbids by_ off d == 0)

/-! ## Which writes reach the register -/

/-- A transaction from PF0 restarts the session's idle period (R358). -/
def touch (s : State) (by_ : Agent) : State :=
  if by_ = .host 0 then { s with sec := { s.sec with lastPf0 := s.now } } else s

/-- A write to register `off` reaches the block and does `f`, unless it comes before LOAD_DONE (R380) or the protection
table denies it (R359, R360). Keeper firmware and the loader are not governed by either (R356). -/
def accept (s : State) (by_ : Agent) (off : Nat) (f : State → State) : State :=
  match by_ with
  | .host _ =>
    let s := s.touch by_
    if !(s.ready 15) && !([0, 1, 18, 23].contains (blockOf off)) then
      (s.count Ctr.CFG_EARLY_WRITES).raise Src.CFG_EARLY_WRITE (off / 8)
    else if s.permits (s.roleOf by_) 1 (off / 8) 1 then f s
    else s.deny (s.roleOf by_) 1 (off / 8)
  | _ => f s

/-- A write of `v` to register `off` by an agent: its fields, and then what the write does beside. -/
def writeThen (s : State) (by_ : Agent) (off v : Nat) (f : State → State) : State :=
  s.accept by_ off (fun s => f (s.writeFields by_ off v))

end State
end Sys2Proof.Machine
end

