-- ==== Sys2Proof/Machine/Lines.lean ====
section
/-! DEFINITION. The line side's arithmetic: rates, framing, transmit slots and the time a frame needs (R79, R88, R90,
R241, R506). -/
namespace Sys2Proof.Machine
namespace State

/-! ## PHY types (Table PORT-2, Table PORT-4) -/

/-- PRT_CFG(p).PHY. -/
def phyOf (s : State) (p : Nat) : Nat := s.fld (Reg.PRT_CFG p) F.PRT_CFG.PHY
/-- PRT_CFG(p).FEC. -/
def fecOf (s : State) (p : Nat) : Nat := s.fld (Reg.PRT_CFG p) F.PRT_CFG.FEC

/-- A PHY type's port rate, Gbit/s; 0 for none. -/
def phyRate (phy : Nat) : Nat := [0, 10, 25, 50, 100, 200, 400, 800].getD phy 0
/-- A PHY type's number of lanes. -/
def phyLanes (phy : Nat) : Nat := [0, 1, 1, 1, 1, 2, 4, 8].getD phy 0
/-- The line rate of one lane, in 10^4 bit/s. -/
def laneRate (phy : Nat) : Nat := [0, 1031250, 2578125, 5312500, 10625000, 10625000, 10625000, 10625000].getD phy 0
/-- The symbol rate of one lane, in 10^4 Bd. -/
def symRate (phy : Nat) : Nat := [0, 1031250, 2578125, 2656250, 5312500, 5312500, 5312500, 5312500].getD phy 0
/-- The port's rate, Gbit/s. -/
def portRate (s : State) (p : Nat) : Nat := phyRate (s.phyOf p)

/-- The FEC settings a PHY type allows (Table PORT-2). -/
def fecAllowed (phy fec : Nat) : Bool :=
  if phy ≤ 1 then fec == 0 else if phy = 2 then fec == 0 || fec == 1 else fec == 2

/-- The PHY types an octet mode permits (Table PORT-1). -/
def phyInMode (mode phy : Nat) : Bool :=
  phy == 0 || (if mode = 0 then phy == 7 else if mode = 1 then phy == 6 else if mode = 2 then phy == 5 else decide (1 ≤ phy ∧ phy ≤ 4))

/-- Mean and longest transmit-slot spacing, ps (Table PORT-4). -/
def slotPs (phy fec : Nat) : Nat × Nat :=
  if phy = 2 ∧ fec = 1 then (2560, 7952)
  else [(0, 0), (6400, 6400), (2560, 2560), (1280, 6871), (640, 3436), (320, 3130), (160, 1565), (80, 1565)].getD phy (0, 0)

/-- AM_BITS, AM_PERIOD_CW and CW_BITS of a PHY type and FEC (R79; 100GBASE-R as Table PORT-14 states, the others PRESUMED
from IEEE 802.3, log entry 12). -/
def framingOf (phy fec : Nat) : Nat × Nat × Nat :=
  if phy = 2 ∧ fec = 1 then (257, 1024, 5280)
  else [(0, 0, 0), (0, 0, 0), (0, 0, 0), (257, 1024, 5440), (1285, 4096, 5440), (1028, 4096, 5440), (2056, 8192, 5440),
    (2056, 8192, 5440)].getD phy (0, 0, 0)

/-- The codewords that are interleaved on the line (Table PORT-3): pairs from 200GBASE-R on. -/
def cwPair (phy : Nat) : Nat := if 5 ≤ phy then 2 else 1

/-- What PRT_SLOT(p) reads (Table PORT-8). -/
def slotReg (s : State) (p : Nat) : Nat := let sl := slotPs (s.phyOf p) (s.fecOf p); sl.1 + 2 ^ 16 * sl.2

/-- What SER_FRAMING(l) reads (Table PORT-14). -/
def framingReg (s : State) (l : Nat) : Nat :=
  let p := s.portOfLane l
  let fr := framingOf (s.phyOf p) (s.fecOf p)
  fr.1 * 2 ^ 48 + fr.2.1 * 2 ^ 16 + fr.2.2

/-! ## Line positions (R90) -/

/-- `k` line bits at a rate given in 10^4 bit/s, as a numerator over that rate in 2^-16 ns. -/
def bitTime (k : Nat) : Nat := k * 65536 * 100000

/-- The line position, in bits from the start of an alignment-marker period, of data bit `d` of that period: sync or
transcoding headers, parity and the marker group counted where they lie. Interleaved codewords send their message bits
together and their parity after them. -/
def linePos (phy fec d : Nat) : Nat :=
  let (am, per, cw) := framingOf phy fec
  if cw = 0 then d + 2 * (d / 64 + 1)
  else
    let u := cwPair phy
    let data := (per * 5140 - am) / 257 * 256
    let m := am + d % data + (d % data) / 256 + 1
    (d / data) * (per * cw) + (m / (u * 5140)) * (u * cw) + m % (u * 5140)

/-- Where the bit of data index `d` of an 800GBASE-R port lies: its flow's line position, the 66-bit blocks being sent to
the two flows in turn (R506; the turn is PRESUMED, log entry 12). -/
def flowPos (d : Nat) : Nat := linePos 7 2 ((d / 64 / 2) * 64 + d % 64)

/-- The time from the stamped bit at data index `d0` to the first bit of byte `b`, in 2^-16 ns, rounded to nearest after
adding `base` (R90, R506). -/
def byteTime (phy fec d0 b : Nat) (base : Int) : Stamp :=
  let (n, r) : Int × Nat :=
    if phy = 7 then ((flowPos (d0 + 8 * b) : Int) - (flowPos d0 : Int), 42500000)
    else ((linePos phy fec (d0 + 8 * b) : Int) - (linePos phy fec d0 : Int), laneRate phy * phyLanes phy)
  if r = 0 then base.toNat else (roundDivInt (base * (r : Int) + n * ((bitTime 1 : Nat) : Int)) r).toNat

/-! ## The time a frame needs (R241) -/

/-- The longest span in line bits, over all slots, from a slot to the end of the `n`-th data bit: it begins with the last 64 bits
of an alignment-marker period, so that a parity field and the marker group come at once and the first codeword set behind
them, which holds the group, is the shortest. -/
def needBits (phy fec n : Nat) : Nat :=
  let (am, _, cw) := framingOf phy fec
  let u := cwPair phy
  if cw = 0 then n + 2 * ((n + 63) / 64 - 1)
  else n + (n + 191) / 256 + u * (cw - 5140) * ((n + 5120 * u + am / 257 * 256 - 65) / (5120 * u)) + am

/-- The data bits of one 400G flow from an 800GBASE-R slot to the end of an `l`-byte frame, over the slots of both flows the most
there can be: blocks go to the flows in turn, and the frame's last block may lie in either (R506). -/
def flowBits (l : Nat) : Nat := 64 * (ceilDiv l 8 / 2) + 8 * l - 64 * (ceilDiv l 8 - 1)

/-- t_need(L) of port `p`, 2^-16 ns rounded up (R241, R506): without FEC every 64 bits take the same time. -/
def tNeed (s : State) (p l : Nat) : Nat :=
  let phy := s.phyOf p
  let fec := s.fecOf p
  if phy = 0 then 0
  else if fec = 0 then ceilDiv (8 * l * 65536) (phyRate phy)
  else if phy = 7 then ceilDiv (bitTime (needBits 7 2 (flowBits l))) 42500000
  else ceilDiv (bitTime (needBits phy fec (8 * l))) (laneRate phy * phyLanes phy)

/-- The line time of `n` bytes at the port's rate, 2^-16 ns. -/
def byteSpan (s : State) (p n : Nat) : Nat := if s.portRate p = 0 then 0 else ceilDiv (8 * n * 65536) (s.portRate p)

/-- The least time an `l`-byte frame takes at the ball: its own bits at the port's line rate, without parity or markers, 2^-16 ns. -/
def leastSpan (s : State) (p l : Nat) : Nat :=
  let phy := s.phyOf p
  if phy = 0 then 0
  else if s.fecOf p = 0 then 8 * l * 65536 / phyRate phy
  else if phy = 7 then bitTime (8 * l) / 85000000
  else bitTime (8 * l) / (laneRate phy * phyLanes phy)

/-- Length of `n` pause quanta of 512 bit times, 2^-16 ns (R214, R234). -/
def quantaSpan (s : State) (p n : Nat) : Nat := if s.portRate p = 0 then 0 else 512 * n * 65536 / s.portRate p

/-- A stamp at the ball from the quad copy `c`, the phase `phi`, the symbol position `n` and the path constant `k`
(signed, added), rounded to 2^-6 ns (R56). -/
def ballStamp (phy : Nat) (c phi : Int) (n : Nat) (k : Int) : Stamp :=
  let r := symRate phy
  if r = 0 then roundStamp (c + phi + k)
  else ((roundDivInt ((c + phi + k) * (r : Int) + ((bitTime n : Nat) : Int)) (r * 1024)) * 1024).toNat

end State
end Sys2Proof.Machine
end

