-- ==== Sys2Proof/Machine/Operands.lean ====
section
/-! DEFINITION. The fields of a microword and its operands: registers, the immediate, the window field, the special
sources, the manifest bytes it may write and the successors (R105 to R110, Tables PARSE-2, PARSE-3 and PARSE-5). -/
namespace Sys2Proof.Machine
namespace Word

/-! ## Fields (Table PARSE-2) -/

/-- Bits `[hi:lo]` of a microword. -/
def at_ (w : Microword) (hi lo : Nat) : Nat := bits w.toNat hi lo
/-- The word's length in engine cycles, CLEN + 1. -/
def cycles (w : Microword) : Nat := at_ w 191 190 + 1
/-- NEXT. -/
def next (w : Microword) : Nat := at_ w 189 176
/-- ALT. -/
def alt (w : Microword) : Nat := at_ w 175 162
/-- COND. -/
def cond (w : Microword) : Nat := at_ w 161 158
/-- OP. -/
def op (w : Microword) : Nat := at_ w 157 152
/-- DST. -/
def dst (w : Microword) : Nat := at_ w 151 148
/-- SRCA. -/
def srcA (w : Microword) : Nat := at_ w 147 144
/-- SRCB. -/
def srcB (w : Microword) : Nat := at_ w 143 140
/-- BSEL. -/
def bsel (w : Microword) : Nat := at_ w 139 138
/-- MOFF. -/
def moff (w : Microword) : Nat := at_ w 119 114
/-- The manifest write size in bytes (MSZ). -/
def msize (w : Microword) : Nat := 2 ^ at_ w 113 112
/-- IMM. -/
def imm (w : Microword) : Word64 := BitVec.ofNat 64 w.toNat

/-- The filler word: reserved opcode 0x3F with every other field zero (R125, R130). -/
def filler : Microword := BitVec.ofNat 192 (0x3F * 2 ^ 152)

/-- The control opcodes: those whose successor Table PARSE-4 states itself. -/
def control (o : Nat) : Bool := [0x13, 0x14, 0x16, 0x17, 0x18, 0x19, 0x1A].contains o

/-- The opcodes that read operand A. -/
def usesA (o : Nat) : Bool := [0x02, 0x03, 0x04, 0x05, 0x06, 0x07, 0x08, 0x09, 0x0A, 0x0F, 0x10, 0x11, 0x17].contains o

/-- The opcodes that read operand B. -/
def usesB (o : Nat) : Bool :=
  [0x01, 0x02, 0x03, 0x04, 0x05, 0x06, 0x07, 0x08, 0x09, 0x0A, 0x0B, 0x0D, 0x0E, 0x10, 0x11, 0x15, 0x19].contains o

/-- The least word length of an opcode (Table PARSE-4). -/
def minCycles (o : Nat) : Nat := if o = 0x0F ∨ o = 0x10 ∨ o = 0x11 then 3 else if o = 0x12 then 4 else if o = 0x1A then 2 else 1

end Word

namespace State

/-! ## Operands (R107, Table PARSE-3) -/

/-- Register g`i` of a barge. -/
def greg (b : Barge) (i : Nat) : Word64 := b.g.getD i 0

/-- Register g`i` written. -/
def setGreg (b : Barge) (i : Nat) (v : Word64) : Barge := { b with g := b.g.set i v }

/-- The received extent of the frame a barge parses: min(DEPTH, frame length) bytes (R107). -/
def extent (p : Packet) : Nat := if p.ended then min p.depth p.bytes.length else p.depth

/-- Bit `k` of the frame, the most significant bit of byte 0 being bit 0; zero at and beyond the extent. -/
def frameBit (p : Packet) (k : Nat) : Nat :=
  if k / 8 < extent p then bits (byteAt p.bytes (k / 8)) (7 - k % 8) (7 - k % 8) else 0

/-- The `n`-bit value that begins at frame bit `k`, first bit most significant. -/
def frameBits (p : Packet) (k n : Nat) : Nat := (List.range n).foldl (fun a i => 2 * a + frameBit p (k + i)) 0

/-- The byte a window field begins at. -/
def windowByte (b : Barge) (w : Microword) : Nat := Word.at_ w 137 130 + (if Word.at_ w 129 129 = 1 then 0 else b.cursor)

/-- The window field of a word: its value and whether it reaches the extent (R107). -/
def window (p : Packet) (b : Barge) (w : Microword) : Nat × Bool :=
  let k := 8 * windowByte b w + Word.at_ w 122 120
  let n := Word.at_ w 128 123 + 1
  (frameBits p k n, decide (8 * extent p < k + n))

/-- The special source `c` (Table PARSE-3). -/
def special (p : Packet) (b : Barge) (c : Nat) : Nat :=
  if c = 0 then b.cursor
  else if c = 1 then (if p.ended then p.bytes.length else 0)
  else if c = 2 then p.port
  else if c = 3 then p.profile
  else if c = 4 then bits (leNat b.man) 35 32
  else if c = 5 then b.loopN
  else if c = 6 then b2n b.z + 2 * b2n b.c + 4 * b2n b.wend
  else if c = 7 then p.depth
  else (b.frame.getD (c - 8) 0).toNat

/-- Operand B of a word and what WEND becomes (R107). -/
def operandB (p : Packet) (b : Barge) (w : Microword) : Word64 × Bool :=
  let o := Word.bsel w
  if o = 0 then (greg b (Word.srcB w), b.wend)
  else if o = 1 then (Word.imm w, b.wend)
  else if o = 2 then
    let (v, e) := window p b w
    (BitVec.ofNat 64 v, e)
  else (BitVec.ofNat 64 (special p b (Word.srcB w)), b.wend)

/-- The pending register a word would read, if any (R113). -/
def pendingRead (b : Barge) (w : Microword) : Option Nat :=
  let o := Word.op w
  let a := if Word.usesA o || Word.at_ w 103 103 == 1 then [Word.srcA w] else []
  let r := if Word.usesB o && Word.bsel w == 0 then [Word.srcB w] else []
  (a ++ r).find? (fun i => (mfind b.lkups i).isSome)

/-- The bytes an MWR may write (R110). -/
def mwrMay (i : Nat) : Bool := i == 5 || i == 6 || i == 7 || decide (16 ≤ i ∧ i < 64)

/-- The bits of manifest byte `i` that an MWR stores: bits [55:52], of byte 6, stay zero (Table PARSE-11). -/
def mwrBits (i : Nat) : BitVec 8 := if i = 6 then 0x0F else 0xFF

/-- The manifest after an MWR of the low `n` bytes of `v` from byte `m` (R110). -/
def manWrite (man : Bytes) (m n v : Nat) : Bytes :=
  (man.zipIdx).map (fun e =>
    if mwrMay e.2 && decide (m ≤ e.2 ∧ e.2 < m + n) then BitVec.ofNat 8 (v >>> (8 * (e.2 - m))) &&& mwrBits e.2 else e.1)

/-- The manifest with bits `[hi:lo]` replaced. -/
def manPut (man : Bytes) (hi lo v : Nat) : Bytes := le 64 (putBits (leNat man) hi lo v)

/-- Bits `[hi:lo]` of the manifest. -/
def manGet (man : Bytes) (hi lo : Nat) : Nat := bits (leNat man) hi lo

/-- The cursor at the end of a word (R108). -/
def advance (b : Barge) (w : Microword) : Barge :=
  let n := if Word.at_ w 103 103 = 1 then (greg b (Word.srcA w)).toNat else Word.at_ w 111 104
  { b with cursor := min 256 (b.cursor + n) }

end State
end Sys2Proof.Machine
end

