-- ==== Sys2Proof/Machine/Flags.lean ====
section
/-! DEFINITION. The results and flags of the arithmetic opcodes and the conditions (R109, Tables PARSE-4 and PARSE-5). -/
namespace Sys2Proof.Machine
namespace State

/-- A result with its flags: Z and C. -/
structure Alu where
  value : Word64
  z : Bool
  c : Bool
  deriving DecidableEq, Repr

/-- ADD: C is the carry out. -/
def aluAdd (a b : Word64) : Alu := ⟨a + b, a + b == 0, decide (2 ^ 64 ≤ a.toNat + b.toNat)⟩
/-- SUB and CMP: C is the borrow. -/
def aluSub (a b : Word64) : Alu := ⟨a - b, a - b == 0, decide (a.toNat < b.toNat)⟩
/-- AND, OR and XOR and the shifts leave C 0. -/
def aluLogic (r : Word64) : Alu := ⟨r, r == 0, false⟩
/-- SHL by B mod 64. -/
def aluShl (a b : Word64) : Alu := aluLogic (a <<< (b.toNat % 64))
/-- SHR by B mod 64, zero fill. -/
def aluShr (a b : Word64) : Alu := aluLogic (a >>> (b.toNat % 64))
/-- CMPM: Z is set when (A AND B) equals CVAL zero-extended. -/
def cmpmZ (a b : Word64) (w : Microword) : Bool := (a &&& b).toNat == Word.at_ w 95 64

/-- A 16-bit ones' complement sum. -/
def onesSum (ws : List Nat) : Nat :=
  ws.foldl (fun a x => let t := a + x; if t < 65536 then t else t - 65535) 0

/-- Whether condition `n` holds on a barge's flags (Table PARSE-5). -/
def condHolds (b : Barge) (n : Nat) : Bool :=
  if n = 1 then true
  else if n = 2 then b.z
  else if n = 3 then !b.z
  else if n = 4 then b.c
  else if n = 5 then !b.c
  else if n = 6 then b.c || b.z
  else if n = 7 then !b.c && !b.z
  else if n = 8 then b.wend
  else if n = 9 then manGet b.man 35 32 == 8
  else false

end State
end Sys2Proof.Machine
end

