-- ==== Sys2Proof/Machine/Lookup.lean ====
section
/-! DEFINITION. Searching the lookup tables: version ranges, exact-match partitions, ternary groups and prefixes
(R136, R143 to R145, R151 to R153, R158, R172). -/
namespace Sys2Proof.Machine
namespace State

/-! ## Frame headers the device itself finds -/

/-- Whether a tag begins at byte `i` (R140). -/
def tagAt (bs : Bytes) (i : Nat) : Bool :=
  let t := beNat (sub bs i 2)
  t == 0x8100 || t == 0x88A8

/-- The byte at which a frame's L3 header begins, after at most two tags. -/
def l3At (bs : Bytes) : Nat := if tagAt bs 12 then (if tagAt bs 16 then 22 else 18) else 14

/-- The TTL or hop limit of a frame that carries IPv4 or IPv6, and the byte it is in. -/
def ttlOf (bs : Bytes) : Option (Nat × Nat) :=
  let l := l3At bs
  let t := beNat (sub bs (l - 2) 2)
  if t = 0x0800 then some (l + 8, byteAt bs (l + 8))
  else if t = 0x86DD then some (l + 7, byteAt bs (l + 7))
  else none

/-! ## Versions (R172) -/

/-- Whether the range [VFROM, VUNTIL) holds version `p`. -/
def inRange (s : State) (vfrom vuntil p : Nat) : Bool :=
  decide (s.verDist vfrom ≤ s.verDist p) && (vuntil == 0 || decide (s.verDist p < s.verDist vuntil))

/-- Whether two ranges hold a version in common. -/
def rangesMeet (s : State) (f1 u1 f2 u2 : Nat) : Bool :=
  let lo := max (s.verDist f1) (s.verDist f2)
  (u1 == 0 || decide (lo < s.verDist u1)) && (u2 == 0 || decide (lo < s.verDist u2))

/-! ## Exact match (R142 to R145) -/

/-- XMT_PART(i) in force: its first bucket and the number of its buckets. -/
def partBase (s : State) (i : Nat) : Nat := s.cfgFld (Reg.XMT_PART i) F.XMT_PART.BASE
/-- The number of buckets of partition `i` in force: none before it is configured. -/
def partSize (s : State) (i : Nat) : Nat :=
  let l := s.cfgFld (Reg.XMT_PART i) F.XMT_PART.SIZE_LOG2
  if l < 10 then 0 else 2 ^ l
/-- Partition `i` is in use. -/
def partOn (s : State) (i : Nat) : Bool := decide (i < 16) && s.cfgFlag (Reg.XMT_PART i) F.XMT_PART.EN

/-- The bucket index a key gives with seed `x` in a partition of `n` buckets. -/
def bucketHash (x n : Nat) (key : Bytes) : Nat := (crc32c x key) % n

/-- The two buckets of a key in partition `i`, as bucket numbers of the store (R144). -/
def bucketsOf (s : State) (i key : Nat) : Nat × Nat :=
  let n := s.partSize i
  let kb := le 16 key
  let b0 := bucketHash (s.fld Reg.XMT_SEED F.XMT_SEED.SEED0) n kb
  let b1 := bucketHash (s.fld Reg.XMT_SEED F.XMT_SEED.SEED1) n kb
  let b1 := if b1 = b0 then Nat.xor b0 1 else b1
  (s.partBase i + b0, s.partBase i + b1)

/-- Where an entry lies: slot 0–3 of a bucket, as 4 × bucket + slot, or the stash, as 256 × partition + index. -/
inductive EmLoc where
  | slot (i : Nat)
  | stash (i : Nat)
  deriving DecidableEq, Repr

/-- The entry at a place. -/
def emAt (s : State) : EmLoc → EmEntry
  | .slot i => mget {} s.tab.em i
  | .stash i => mget {} s.tab.stash i

/-- A place written. -/
def emPut (s : State) (l : EmLoc) (e : EmEntry) : State :=
  match l with
  | .slot i => { s with tab := { s.tab with em := mset {} s.tab.em i e } }
  | .stash i => { s with tab := { s.tab with stash := mset {} s.tab.stash i e } }

/-- The four places of a bucket. -/
def bucketSlots (b : Nat) : List EmLoc := (List.range 4).map (fun k => .slot (4 * b + k))

/-- The 256 places of a stash. -/
def stashSlots (i : Nat) : List EmLoc := (List.range 256).map (fun k => .stash (256 * i + k))

/-- The places in which a key of partition `i` may lie, in the order they are compared. -/
def keyPlaces (s : State) (i key : Nat) : List EmLoc :=
  let (b0, b1) := s.bucketsOf i key
  (if s.partSize i = 0 then [] else bucketSlots b0 ++ bucketSlots b1) ++ stashSlots i

/-- A place whose memory has a double-bit error not yet restored does not match (R149). -/
def emBad (s : State) : EmLoc → Bool
  | .slot i => s.tab.bad.contains ⟨0, i⟩
  | .stash i => s.tab.bad.contains ⟨1, i⟩

/-- A read meets a double-bit error at index `i` of memory `m`, 0 bucket entry, 1 stash entry, 2 ternary action, 3 next hop (R149).
The bucket of a stash entry the spec does not state. -/
def meetBad (s : State) (m i : Nat) : State :=
  let s := { s with tab := { s.tab with bad := s.tab.bad.filter (· != BadCell.mk m i) ++ [BadCell.mk m i] } }
  if m = 0 then s.raise Src.XMT_ECC (i / 4)
  else if m = 1 then
    let (x, s) := s.takeFree 19
    s.raise Src.XMT_ECC x
  else s.raise Src.FWD_ECC i

/-- The places that hold entries of a key. -/
def emHolding (s : State) (i key : Nat) : List EmLoc :=
  (s.keyPlaces i key).filter (fun l => (s.emAt l).valid && (s.emAt l).key == key)

/-- The place that matches a key under version `ver` (R145). -/
def emMatch (s : State) (i key ver : Nat) : Option EmLoc :=
  if !(s.partOn i) then none else
  (s.emHolding i key).find? (fun l =>
    !(s.emBad l) && ((s.emAt l).immediate || s.inRange (s.emAt l).vfrom (s.emAt l).vuntil ver))

/-- A lookup of a packet of version `ver`, in the partitions as they govern it: the matching entry, with the counters and HIT
(R164, R185, Table LOOK-15). -/
def emLookup (s : State) (i key ver : Nat) : Option EmEntry × State :=
  let s := s.count (Ctr.XMT_LOOKUP i)
  match (s.viewAt 6 ver 0).emMatch i key ver with
  | none => (none, s)
  | some l =>
    let e := s.emAt l
    let s := s.count (Ctr.XMT_HIT i)
    let s := match l with
      | .stash _ => s.count (Ctr.XMT_STASH_HIT i)
      | .slot _ => s
    (some e, if e.immediate then s.emPut l { e with hit := true } else s)

/-! ## Ternary search (R151 to R153) -/

/-- A ternary group in force. -/
structure Group where
  en : Bool
  first : Nat
  count : Nat
  wide : Bool
  selOff : Nat
  selBits : Nat
  deriving DecidableEq, Repr

/-- A group read from a register value. -/
def groupFrom (v : Nat) : Group :=
  let f (x : Fld) := bits v x.hi x.lo
  ⟨f F.TCM_GROUP.EN == 1, f F.TCM_GROUP.FIRST, f F.TCM_GROUP.COUNT, f F.TCM_GROUP.WIDE == 1, f F.TCM_GROUP.SEL_OFF,
    f F.TCM_GROUP.SEL_BITS⟩

/-- TCM_GROUP(g) in force. -/
def groupOf (s : State) (g : Nat) : Group := groupFrom (s.cfg (Reg.TCM_GROUP g))

/-- The key length of a group in bits. -/
def keyBits (g : Group) : Nat := if g.wide then 320 else 160

/-- A row's value and care as a lookup of the group compares them: in a WIDE group, the even bank's row joined with the
odd bank's (R152). -/
def rowWord (s : State) (g : Group) (e : Nat) : Nat × Nat :=
  let r := mget {} s.tab.tc e
  if g.wide then
    let o := mget {} s.tab.tc (e + 2048)
    (r.value * 2 ^ 160 + o.value, r.care * 2 ^ 160 + o.care)
  else (r.value, r.care)

/-- The banks a lookup searches: the first bank and the number of banks, counted in the copy the slice uses; with the
TCM_SEL_RANGE count for a map entry that reaches beyond its group (R153). -/
def bankRange (s : State) (gi : Nat) (g : Group) (key slice : Nat) : Nat × Nat × Bool :=
  let units := if g.wide then g.count / 4 else g.count
  let per := if g.wide then 2 else 1
  let origin := if g.wide && decide (8 ≤ slice) then g.first + g.count / 2 else g.first
  if g.selBits = 0 then (origin, per * units, false)
  else
    let n := keyBits g
    let m := bits key (n - 1 - g.selOff) (n - g.selOff - g.selBits)
    let e := mget 0 s.tab.sel (4096 * gi + m)
    let first := bits e 7 0
    let cnt := bits e 12 8
    if cnt = 0 then (origin, 0, false)
    else if units < first + cnt ∨ (if g.wide then 8 else 16) < cnt then (origin, 0, true)
    else (origin + per * first, per * cnt, false)

/-- Whether a row matches a key under version `ver`. -/
def rowMatches (s : State) (g : Group) (key ver e : Nat) : Bool :=
  let r := mget {} s.tab.tc e
  let (v, c) := s.rowWord g e
  r.valid && !(s.tab.bad.contains ⟨2, e⟩) && (r.immediate || s.inRange r.vfrom r.vuntil ver) && (key &&& c) == v

/-- TCM_GROUP(g) as it governs a packet of version `ver` (R185). -/
def groupAt (s : State) (g ver : Nat) : Group := (s.viewAt 7 ver 0).groupOf g

/-- A ternary lookup: the row of lowest index that matches (R151), with the counters of Table LOOK-15. -/
def tcSearch (s : State) (gi key ver slice : Nat) : Option TcRow × State :=
  let g := s.groupAt gi ver
  if !g.en then (none, s) else
  let (b0, n, beyond) := s.bankRange gi g key slice
  let s := s.count (Ctr.TCM_SEARCH gi)
  let s := if beyond then s.count (Ctr.TCM_SEL_RANGE gi) else s
  let s := if n = 0 then s else s.count (Ctr.TCM_BANKS gi) n
  let hit := s.tab.tc.find? (fun r =>
    let bank := r.1 / 2048
    decide (b0 ≤ bank ∧ bank < b0 + n) && (!g.wide || (bank - b0) % 2 == 0) && s.rowMatches g key ver r.1)
  match hit with
  | none => (none, s)
  | some r => (some r.2, s.count (Ctr.TCM_HIT gi))

/-! ## Keys (R136, R158) -/

/-- `n` key bytes, most significant bit of byte 0 first. -/
def keyOf (bs : Bytes) (n : Nat) : Nat := beNat (sub bs 0 n)

/-- The TC key of a group from the manifest. -/
def tcKey (g : Group) (man : Bytes) (off : Nat) : Nat := let n := keyBits g / 8; keyOf (sub man off n) n

/-- The LPM key (Table LOOK-9). -/
def lpmKey (g : Group) (man : Bytes) (a b : Nat) : Nat :=
  let f (x : Fld) := bits a x.hi x.lo
  let six := f F.FWD_KEYSET_A.LPM_AF == 1
  let qual := if bits b F.FWD_KEYSET_B.QUAL_EN.hi F.FWD_KEYSET_B.QUAL_EN.lo = 1 then
      sub man (bits b F.FWD_KEYSET_B.QUAL_OFF.hi F.FWD_KEYSET_B.QUAL_OFF.lo) 4 else zeros 4
  let addr := sub man (f F.FWD_KEYSET_A.LPM_OFF) (if six then 16 else 4)
  keyOf (le 1 (f F.FWD_KEYSET_A.LPM_TABLE) ++ le 1 (if six then 6 else 4) ++ qual ++ addr) (keyBits g / 8)

/-! ## Actions (Table LOOK-1) -/

/-- KIND of an action; 6 and 7 are treated as 0. -/
def actKind (a : Nat) : Nat := if bits a 2 0 ≤ 5 then bits a 2 0 else 0
/-- CPU_COPY. -/
def actCpu (a : Nat) : Bool := bitOf a 3
/-- MIRROR. -/
def actMirror (a : Nat) : Bool := bitOf a 4
/-- MIRROR_SESSION. -/
def actSession (a : Nat) : Nat := bits a 8 5
/-- CLASS_SET. -/
def actClassSet (a : Nat) : Bool := bitOf a 9
/-- CLASS. -/
def actClass (a : Nat) : Nat := bits a 12 10
/-- METER_EN. -/
def actMeterEn (a : Nat) : Bool := bitOf a 13
/-- METER. -/
def actMeter (a : Nat) : Nat := bits a 33 14
/-- TARGET. -/
def actTarget (a : Nat) : Nat := bits a 53 34
/-- CPU_REASON. -/
def actReason (a : Nat) : Nat := bits a 61 54

end State
end Sys2Proof.Machine
end

