-- ==== Sys2Proof/Machine/Dma.lean ====
section
/-! DEFINITION. The shared operations of the DMA channels (R395 to R399) and of an APPLY register's write (R186, R187). -/
namespace Sys2Proof.Machine
namespace State

/-! ## DMA -/

/-- The function a channel serves. -/
def chanFn (s : State) (c : Nat) : Nat := s.fld (Reg.HIF_DMA_CFG c) F.HIF_DMA_CFG.FUNC

/-- Whether channel `c` may read (0) or write (1) its function's memory: the KIND 5 entry's Operator rights for PF0,
its Reader rights for the others (R359). -/
def dmaMay (s : State) (c r : Nat) : Bool := bitOf (s.rightsFrom 5 c (if s.chanFn c = 0 then 2 else 3) 256 0) r

/-- A channel that is enabled for `use` and not paused. -/
def chanOn (s : State) (c use : Nat) : Bool :=
  s.flag (Reg.HIF_DMA_CFG c) F.HIF_DMA_CFG.EN && s.fld (Reg.HIF_DMA_CFG c) F.HIF_DMA_CFG.USE == use &&
    !(s.flag (Reg.HIF_DMA_STAT c) F.HIF_DMA_STAT.PAUSED)

/-- HALTED reads 1 while EN is 0 and no transfer is outstanding (R395). -/
def syncChan (s : State) (c : Nat) : State :=
  s.setFld (Reg.HIF_DMA_STAT c) F.HIF_DMA_STAT.HALTED
    (b2n (!(s.flag (Reg.HIF_DMA_CFG c) F.HIF_DMA_CFG.EN) && (mget {} s.hif.chans c).waiting.isEmpty))

/-- The channel stops on error `code`: EN reads 0 and HIF_DMA_ERR is raised (R399). -/
def dmaStop (s : State) (c code : Nat) : State :=
  let s := s.setFld (Reg.HIF_DMA_CFG c) F.HIF_DMA_CFG.EN 0
  let st := Reg.HIF_DMA_STAT c
  let s := ((s.setFld st F.HIF_DMA_STAT.ERR 1).setFld st F.HIF_DMA_STAT.ERR_CODE code).syncChan c
  s.raise Src.HIF_DMA_ERR (c + 16 * code)

/-- A denied transfer is counted as a denial of KIND 5 and the channel stops with code 2 (R359, R399). -/
def dmaDenied (s : State) (c : Nat) : State :=
  (s.deny (if s.chanFn c = 0 then 2 else 3) 5 c).dmaStop c 2

/-- The descriptors posted and not yet consumed (R396). -/
def descsPosted (s : State) (c : Nat) : Nat :=
  (s.fld (Reg.HIF_DMA_TAIL c) F.HIF_DMA_TAIL.DESC_TAIL + 65536 - s.fld (Reg.HIF_DMA_IDX c) F.HIF_DMA_IDX.DESC_HEAD) % 65536

/-- The next descriptor is consumed. -/
def takeDesc (s : State) (c : Nat) : State :=
  s.setFld (Reg.HIF_DMA_IDX c) F.HIF_DMA_IDX.DESC_HEAD (s.fld (Reg.HIF_DMA_IDX c) F.HIF_DMA_IDX.DESC_HEAD + 1)

/-- The completion ring of `c` has room (R396). -/
def cplRoom (s : State) (c : Nat) : Bool :=
  let ix := Reg.HIF_DMA_IDX c
  decide ((s.fld ix F.HIF_DMA_IDX.CPL_TAIL + 65536 - s.fld ix F.HIF_DMA_IDX.CPL_HEAD) % 65536
    < 2 ^ s.fld (Reg.HIF_DMA_CPL_BASE c) F.HIF_DMA_CPL_BASE.SIZE_LOG2)

/-- A completion is written to its slot and CPL_TAIL advances; HIF_DMA_CPL is posted when the ring becomes non-empty
while armed (R396, Table HOST-12). -/
def writeCpl (s : State) (c : Nat) (cpl : Bytes) : State :=
  let ix := Reg.HIF_DMA_IDX c
  let base := Reg.HIF_DMA_CPL_BASE c
  let tail := s.fld ix F.HIF_DMA_IDX.CPL_TAIL
  let wasEmpty := tail == s.fld ix F.HIF_DMA_IDX.CPL_HEAD
  let addr := s.fld base F.HIF_DMA_CPL_BASE.ADDR * 4096 + 32 * (tail % 2 ^ s.fld base F.HIF_DMA_CPL_BASE.SIZE_LOG2)
  let s := (s.emit (.hostWrite (s.chanFn c) addr cpl)).setFld ix F.HIF_DMA_IDX.CPL_TAIL (tail + 1)
  let ch := mget {} s.hif.chans c
  if wasEmpty && ch.armed && s.flag (Reg.HIF_DMA_CFG c) F.HIF_DMA_CFG.CPL_EVT then
    let s := { s with hif := { s.hif with chans := mset {} s.hif.chans c { ch with armed := false } } }
    s.raise Src.HIF_DMA_CPL (c + 65536 * ((tail + 1) % 65536))
  else s

/-- A transfer is issued: its completion stays outstanding until it is written (R396). -/
def complete (s : State) (c : Nat) (cpl : Bytes) : State :=
  let ch := mget {} s.hif.chans c
  { s with hif := { s.hif with chans := mset {} s.hif.chans c { ch with waiting := ch.waiting ++ [cpl] } } }.syncChan c

/-- A completion's 32 bytes (Table HOST-5). -/
def cplBytes (t : Stamp) (tq ub ver inPort reason flags count idx status : Nat) : Bytes :=
  le 12 (d96 t) ++ le 1 tq ++ le 1 ub ++ le 2 ver ++ le 2 inPort ++ le 1 reason ++ le 1 flags ++ le 4 count ++ le 2 idx
    ++ le 1 status ++ zeros 5

/-! ## APPLY registers -/

/-- A write to an APPLY register of block `b`: unless held, the block's checks run over its shadows; they reject the
whole apply, raising the block's reject source as `check` names it, or every shadow takes effect at this instant, after
what `before` does, and `after` follows (R186, R187). -/
def applyWrite (s : State) (by_ : Agent) (off v b : Nat) (f : Fld) (check : State → Option (Nat × Nat)) (bd : State → Bound)
    (after : State → State) (before : State → State := id) : State :=
  s.accept by_ off (fun s =>
    let go := s.acts by_ off f v
    let s := s.writeFields by_ off v
    if go then
      match check s with
      | some (src, payload) => s.raise src payload
      | none => after ((before s).applyBlock b (bd s))
    else s)

end State
end Sys2Proof.Machine
end

