-- ==== Sys2Proof/Machine/Scratchpad.lean ====
section
/-! DEFINITION. The scratchpad (R427 to R432). -/
namespace Sys2Proof.Machine

/-- What an access does to its word (R427). -/
inductive ScpOp where
  | read
  | write (v : Nat)
  | add (v : Nat)
  | swap (v : Nat)
  deriving DecidableEq, Repr

/-- How an access ends (R428, R429, R431). -/
inductive ScpEnd where
  /-- the master does not own the bank -/
  | violation
  /-- a poisoned word -/
  | poison
  /-- the bank is under handover: the access waits -/
  | wait
  /-- the word's value before the access -/
  | value (old : Nat)
  deriving DecidableEq, Repr

namespace State

/-- The 64-bit word at byte address `a`. -/
def scpWord (s : State) (a : Nat) : Nat := leNat ((List.range 8).map (fun i => mget 0 s.scp.mem (a + i)))

/-- The word at byte address `a` written; a zero byte is not listed. -/
def scpPut (s : State) (a v : Nat) : State :=
  let m := (List.range 8).foldl (fun m i => mset 0 m (a + i) (BitVec.ofNat 8 (v >>> (8 * i)))) s.scp.mem
  { s with scp := { s.scp with mem := m } }

/-- The bank of a byte address. -/
def scpBank (a : Nat) : Nat := bits a 24 17

/-- Whether owner code `m` owns bank `b`, or a port of it (R428). -/
def scpOwns (s : State) (m b : Nat) : Bool :=
  let o := Reg.SCP_OWNER b
  m != 0 && (s.fld o F.SCP_OWNER.OWNER == m || (decide (240 ≤ b) && s.fld o F.SCP_OWNER.OWNER_B == m))

/-- One access of master `m` at the 8-byte aligned address `a`, `waits` core clocks behind others (R427 to R432); `ecc` is
1 for a single-bit and 2 for a double-bit error found in the word. -/
def scpAccess (s : State) (m a : Nat) (op : ScpOp) (waits ecc : Nat) : ScpEnd × State :=
  let b := scpBank a
  if !(s.scpOwns m b) then
    (.violation, (s.count (Ctr.SCP_VIOL (m - 1))).raise Src.SCP_OWN_VIOL (b + 256 * m))
  else if s.flag (Reg.SCP_OWNER b) F.SCP_OWNER.BUSY then (.wait, s)
  else
    let s := (s.count (Ctr.SCP_CONFLICT (m - 1)) waits).count (Ctr.SCP_ACCESSES b)
    let s := match op with
      | .add _ => s.count (Ctr.SCP_ATOMICS b)
      | .swap _ => s.count (Ctr.SCP_ATOMICS b)
      | _ => s
    let old := s.scpWord a
    let reads := match op with
      | .write _ => false
      | _ => true
    let s := if reads && ecc == 1 then s.count Ctr.SCP_CORRECTED else if reads && ecc == 2 then s.raise Src.SCP_ECC (a / 8) else s
    let poisoned := ecc == 2 || s.scp.bad.contains (2048 * b + bits a 16 0 / 64)
    match op with
    | .read => (if poisoned then .poison else .value old, s)
    | .write v => (.value old, s.scpPut a v)
    | .add v => if poisoned then (.poison, s) else (.value old, s.scpPut a ((old + v) % 2 ^ 64))
    | .swap v => if poisoned then (.poison, s) else (.value old, s.scpPut a v)

end State

open State

/-- A host write of a 64-bit word to the scratchpad window of BAR2 at byte address `a`, `waits` core clocks behind other accesses
(R428, R430, R502). During a handover to the host it waits for the bank (R429). -/
def scpHostWrite (fn a : Nat) (v : Word64) (waits : Nat) (s : State) : State :=
  let s := s.touch (.host fn)
  let off := 0x1000_0000 + a
  if !(s.permits (s.roleOf (.host fn)) 2 (off / 8) 1) then s.deny (s.roleOf (.host fn)) 2 (off / 8)
  else if a % 8 ≠ 0 ∨ 0x200_0000 ≤ a then s
  else match s.scpAccess 21 a (.write v.toNat) waits 0 with
    | (.wait, s) => { s with scp := { s.scp with waiting := s.scp.waiting ++ [(a, v.toNat)] } }
    | (_, s) => s

/-- A write to SCP_OWNER(b) hands the bank over at its device instant, unless a handover is under way or it names a
reserved owner (R428, R429). -/
def scpHandoverStart (by_ : Agent) (b : Nat) (v : Word64) (s : State) : State :=
  let o := Reg.SCP_OWNER b
  s.accept by_ o (fun s =>
    let f (x : Fld) := bits v.toNat x.hi x.lo
    if s.flag o F.SCP_OWNER.BUSY || decide (21 < f F.SCP_OWNER.OWNER) || (decide (240 ≤ b) && decide (21 < f F.SCP_OWNER.OWNER_B)) then s
    else
      let s := s.setFld o F.SCP_OWNER.OWNER (f F.SCP_OWNER.OWNER)
      let s := if 240 ≤ b then s.setFld o F.SCP_OWNER.OWNER_B (f F.SCP_OWNER.OWNER_B) else s
      let s := { s with scp := { s.scp with handing := mput s.scp.handing b (s.now, f F.SCP_OWNER.CLEAR == 1) } }
      s.setFld o F.SCP_OWNER.BUSY 1)

/-- The drain of bank `b` and its optional clear, of 1.28 µs, complete; the new owner's writes that wait are served in arrival order (R429). -/
def scpHandoverDone (b : Nat) (s : State) : State :=
  let o := Reg.SCP_OWNER b
  match mfind s.scp.handing b with
  | none => s
  | some (t, clear) =>
    if clear && decide (s.now < t + 1280 * 65536) then s else
    let mine := s.scp.waiting.filter (fun x => scpBank x.1 == b)
    let mem := if clear then s.scp.mem.filter (fun c => scpBank c.1 != b) else s.scp.mem
    let others := s.scp.waiting.filter (fun x => scpBank x.1 != b)
    let s := { s with scp := { s.scp with handing := mdel s.scp.handing b, mem := mem, waiting := others } }
    let s := mine.foldl (fun s x => (s.scpAccess 21 x.1 (.write x.2) 0 0).2) (s.setFld o F.SCP_OWNER.BUSY 0)
    s.raise Src.SCP_HANDOVER (b + 256 * s.fld o F.SCP_OWNER.OWNER)

/-- Each microsecond the background test covers the next region of every bank, and again the regions `retest` whose test was cut short;
the regions `fails` fail, and in the banks `taken` the owner asks for a word of the region under test, which is tested again later
(R432). Banks under handover and banks with owner 0 are skipped. -/
def marchTest (fails taken retest : List Nat) (s : State) : State :=
  let due := isDue s.scp.marchAt microsecond s.now
  if !due || !(s.flag Reg.SCP_MARCH_CFG F.SCP_MARCH_CFG.EN) then s else
  let r := s.scp.region
  let st := Reg.SCP_MARCH_STAT
  let tested (i : Nat) : Bool :=
    let b := i / 2048
    let o := Reg.SCP_OWNER b
    decide (b < 256) && !(s.flag o F.SCP_OWNER.BUSY) && (s.fld o F.SCP_OWNER.OWNER != 0 || s.fld o F.SCP_OWNER.OWNER_B != 0)
      && ((i % 2048 == r && !(taken.contains b)) || (s.scp.again.contains i && retest.contains i))
  let cut := (taken.filter (fun b => decide (b < 256))).map (fun b => 2048 * b + r)
  let again := s.scp.again.filter (fun i => !(retest.contains i)) ++ cut
  let s := (fails.filter tested).foldl (fun s i =>
    let o := Reg.SCP_OWNER (i / 2048)
    let s := if s.scp.bad.contains i then s else { s with scp := { s.scp with bad := s.scp.bad ++ [i] } }
    let s := (s.setFld o F.SCP_OWNER.BAD 1).setFld st F.SCP_MARCH_STAT.FAIL 1
    (s.setFld st F.SCP_MARCH_STAT.LAST_BAD i).raise Src.SCP_MARCH_FAIL i) s
  let s := { s with scp := { s.scp with region := (r + 1) % 2048, marchAt := some s.now, again := again.eraseDups } }
  if r = 2047 then s.setFld st F.SCP_MARCH_STAT.SWEEPS (s.fld st F.SCP_MARCH_STAT.SWEEPS + 1) else s

end Sys2Proof.Machine
end

