-- ==== Sys2Proof/Machine/Vendor.lean ====
section
/-! DEFINITION. The exported routines of the vendor microcode (R127, Table PARSE-13). The vendor region is sealed, so that each
routine is one operation here: it is run by the word at its address, RET, and the default routine at 0x0020 by its DONE. -/
namespace Sys2Proof.Machine
namespace State

/-- `n` bytes of the frame from byte `i`, zero at and beyond the extent. -/
def frameBytes (p : Packet) (i n : Nat) : Bytes := (List.range n).map (fun k => if i + k < extent p then BitVec.ofNat 8 (byteAt p.bytes (i + k)) else 0)

/-- The same bytes as one number, the first the most significant. -/
def frameNat (p : Packet) (i n : Nat) : Nat := beNat (frameBytes p i n)

/-- What an exported routine leaves: the registers and the manifest of the barge, and whether it found its header. -/
structure VendorEnd where
  barge : Barge
  found : Bool

/-- The EtherType field's place after up to two VLAN tags, and the outer tag's VLAN id, 0 without one. -/
def vlanScan (p : Packet) : Nat × Nat :=
  let tag (o : Nat) : Bool := frameNat p o 2 == 0x8100 || frameNat p o 2 == 0x88A8
  if tag 12 then (if tag 16 then 20 else 16, frameNat p 14 2 % 4096) else (12, 0)

/-- Manifest bytes from byte `i` replaced. -/
def keyPut (b : Barge) (i : Nat) (x : Bytes) : Barge := { b with man := patch b.man i x }

/-- g1 and the cursor. -/
def leaveAt (b : Barge) (g1 cursor : Nat) : Barge := { setGreg b 1 (BitVec.ofNat 64 g1) with cursor := min 256 cursor }

/-- SETLEN of a length taken from a header: one below 64 is declared as 64, one above 10,240 is not declared (R127). -/
def declare (b : Barge) (l : Nat) : Barge :=
  if l ≤ 10240 then { b with man := manPut (manPut b.man 29 16 (max 64 l)) 30 30 1 } else b

/-- Export 0, ETH: destination MAC and outer VLAN id into the key, the cursor at the L3 header. -/
def vendorEth (p : Packet) (b : Barge) : Barge :=
  let (o, vid) := vlanScan p
  leaveAt (keyPut (keyPut b 16 (frameBytes p 0 6)) 22 (le 2 vid)) (frameNat p o 2) (o + 2)

/-- Where the L3 header begins. -/
def vendorL3 (p : Packet) : Nat := (vlanScan p).1 + 2

/-- An IPv4 header without options, or an IPv6 header, begins at byte `l`. -/
def ip4At (p : Packet) (l : Nat) : Bool := frameNat p l 1 == 0x45

/-- An IPv6 header begins at byte `l`. -/
def ip6At (p : Packet) (l : Nat) : Bool := frameNat p l 1 / 16 == 6

/-- The check of ETH_IP4: version 4 and IHL 5 alone. -/
def isIp4 (p : Packet) : Bool := ip4At p (vendorL3 p)

/-- The check of ETH_IP6: version 6 alone. -/
def isIp6 (p : Packet) : Bool := ip6At p (vendorL3 p)

/-- IPv4 addresses of the header at `l` into the key, destination first. -/
def key4 (p : Packet) (b : Barge) (l : Nat) : Barge := keyPut b 24 (frameBytes p (l + 16) 4 ++ frameBytes p (l + 12) 4)

/-- IPv6 addresses of the header at `l` into the key, destination first. -/
def key6 (p : Packet) (b : Barge) (l : Nat) : Barge := keyPut b 24 (frameBytes p (l + 24) 16 ++ frameBytes p (l + 8) 16)

/-- L3_KIND. -/
def kindPut (b : Barge) (k : Nat) : Barge := { b with man := manPut b.man 47 44 k }

/-- Export 1, ETH_IP4. -/
def vendorIp4 (p : Packet) (b : Barge) : VendorEnd :=
  let b := vendorEth p b
  let l := vendorL3 p
  if isIp4 p then
    ⟨leaveAt (declare (key4 p (kindPut b 1) l) (l + frameNat p (l + 2) 2 + 4)) (frameNat p (l + 9) 1) (l + 20), true⟩
  else ⟨b, false⟩

/-- Export 2, ETH_IP6. -/
def vendorIp6 (p : Packet) (b : Barge) : VendorEnd :=
  let b := vendorEth p b
  let l := vendorL3 p
  if isIp6 p then
    ⟨leaveAt (declare (key6 p (kindPut b 2) l) (l + 40 + frameNat p (l + 4) 2 + 4)) (frameNat p (l + 6) 1) (l + 40), true⟩
  else ⟨b, false⟩

/-- UDP or TCP ports of the header at `l` into the key at byte `k`, destination first. -/
def keyPorts (p : Packet) (b : Barge) (l k : Nat) : Barge := keyPut b k (frameBytes p (l + 2) 2 ++ frameBytes p l 2)

/-- UDP over the header that `r` found, its protocol being `proto`, from byte `l`. -/
def overUdp (p : Packet) (r : VendorEnd) (proto l k : Nat) : VendorEnd :=
  if r.found && proto == 17 then ⟨leaveAt (keyPorts p r.barge l k) (frameNat p (l + 4) 2 + 2 ^ 64 - 8) (l + 8), true⟩ else ⟨r.barge, false⟩

/-- Export 5, ETH_IP4_TCP. -/
def vendorTcp (p : Packet) (b : Barge) : VendorEnd :=
  let r := vendorIp4 p b
  let l := vendorL3 p + 20
  let hl := 4 * (frameNat p (l + 12) 1 / 16)
  if r.found && frameNat p (vendorL3 p + 9) 1 == 6 then ⟨leaveAt (keyPorts p r.barge l 32) hl (l + hl), true⟩ else ⟨r.barge, false⟩

/-- Export 6, ETH_IPIP: the inner addresses of an IP header in one of the same family. -/
def vendorIpip (p : Packet) (b : Barge) : VendorEnd :=
  let l := vendorL3 p
  if isIp4 p && frameNat p (l + 9) 1 == 4 && ip4At p (l + 20) then ⟨kindPut (key4 p b (l + 20)) 3, true⟩
  else if isIp6 p && frameNat p (l + 6) 1 == 41 && ip6At p (l + 40) then ⟨kindPut (key6 p b (l + 40)) 4, true⟩
  else ⟨b, false⟩

/-- Where a PTP message begins, over Ethernet or over UDP. -/
def ptpAt (p : Packet) : Option Nat :=
  let l := vendorL3 p
  let port (u : Nat) : Bool := frameNat p (u + 2) 2 == 319 || frameNat p (u + 2) 2 == 320
  if frameNat p (l - 2) 2 = 0x88F7 then some l
  else if isIp4 p && frameNat p (l + 9) 1 == 17 && port (l + 20) then some (l + 28)
  else if isIp6 p && frameNat p (l + 6) 1 == 17 && port (l + 40) then some (l + 48)
  else none

/-- What the routines leave unstated of g0 to g7, the cursor and the flags, taken from the free value `x` (log entry 4). -/
def vendorFree (x : Nat) (b : Barge) : Barge :=
  let b := [0, 1, 2, 3, 4, 5, 6, 7].foldl (fun b i => setGreg b i (BitVec.ofNat 64 (x / 2 ^ (64 * i)))) b
  let y := x / 2 ^ 512
  { b with cursor := min 256 (bits y 8 0), z := bitOf y 9, c := bitOf y 10, wend := bitOf y 11 }

/-- Exported routine `i` as it is run on barge `b`; `x` gives what Table PARSE-13 does not state. -/
def vendorRun (i x : Nat) (p : Packet) (b : Barge) : Barge :=
  let b := vendorFree x b
  let z (r : VendorEnd) : Barge := { r.barge with z := !r.found }
  let l := vendorL3 p
  if i = 0 then vendorEth p b
  else if i = 1 then z (vendorIp4 p b)
  else if i = 2 then z (vendorIp6 p b)
  else if i = 3 then z (overUdp p (vendorIp4 p b) (frameNat p (l + 9) 1) (l + 20) 32)
  else if i = 4 then z (overUdp p (vendorIp6 p b) (frameNat p (l + 6) 1) (l + 40) 56)
  else if i = 5 then z (vendorTcp p b)
  else if i = 6 then z (vendorIpip p b)
  else if i = 7 then
    match ptpAt p with
    | some o => { setGreg b 1 (BitVec.ofNat 64 (frameNat p o 1 % 16)) with z := false }
    | none => { b with z := true }
  else b

/-- The export word (PRS_VEXPORT) of routine `i` of version 0x0001_0400 (Table PARSE-13). -/
def vexportWord (i : Nat) : Nat :=
  let w := [6, 10, 11, 12, 13, 12, 14, 10]
  if i < 8 then 2 ^ 31 + 2 ^ 16 * w.getD i 0 + (0x40 + 0x20 * i) else 0

end State
end Sys2Proof.Machine
end

