-- ==== Sys2Proof/Machine/Witness.lean ====
section
/-! DEFINITION. The witness (chapter "Witness Records and the Biurn Log"): epochs, seals, the ring and its export. -/
namespace Sys2Proof.Machine
namespace State

/-! ## Epochs (R294) -/

/-- WIT_EPOCH_LEN.LEN_MS in force, values outside 1–10,000 taken as the nearer limit (Table WIT-11). -/
def epochLen (s : State) : Nat := clamp 1 10000 (s.cfgFld Reg.WIT_EPOCH_LEN F.WIT_EPOCH_LEN.LEN_MS) * millisecond

/-- The first instant after `t` that is a whole multiple of the epoch length. -/
def nextBoundary (s : State) (t : Stamp) : Stamp := (t / s.epochLen + 1) * s.epochLen

/-- E of the epoch in force. -/
def epochNo (s : State) : Nat := s.fld Reg.WIT_EPOCH_STAT F.WIT_EPOCH_STAT.EPOCH

/-- The number of the epoch that contains `t` (R28): the one in force, or the one before or after it where `t` lies beyond its
bounds. While the witness does not run no epoch has bounds. -/
def epochOf (s : State) (t : Stamp) : Nat :=
  if !s.witOn then s.epochNo
  else if t < s.wit.epochStart then s.wit.lastE
  else if s.wit.epochEnd ≤ t then s.epochNo + 1
  else s.epochNo

/-- r of R28 at `t`. -/
def rotOf (s : State) (t : Stamp) : Nat := s.epochOf t % 512

/-- The rank of a port's events among events of equal device time, for the rotation `r`: line ports by R28, management ports
after them (R27, R28). -/
def portRank (r port : Nat) : Nat := if port < 512 then (port + 512 - r % 512) % 512 else port

/-- The system id carried outside: 0 when standalone. -/
def sysId (s : State) : Nat :=
  if s.fld Reg.TOW_STATE F.TOW_STATE.STATE = 0 then 0 else s.fld Reg.TOW_CFG F.TOW_CFG.SYSID

/-- The epoch in force has ADRIFT and the partition epoch in its seal: the member is Adrift, or was while the epoch ran (R183, R333). -/
def adriftSeal (s : State) : Bool := s.isAdrift || s.wit.adriftE

/-- The seal flags of this instant, without LATE, MERGED and UNSIGNED (Table WIT-6). -/
def sealFlagsNow (s : State) (stop : Bool) : Nat :=
  b2n s.wit.sealFirst + 8 * b2n s.adriftSeal + 16 * b2n (s.flag Reg.SEC_STATUS F.SEC_STATUS.APPROVED) + 32 * b2n stop

/-- Bytes 0–927 of the seal of the epoch [start, end) that closes now (Table WIT-6); PREV_SEAL is filled when the seal
is signed. -/
def sealBody (s : State) (start end_ : Stamp) (stop : Bool) : Bytes :=
  let head (st : Nat) : Bytes := if (s.recorder st).anyClosed then s.getBytes (Reg.WIT_HEAD st 0) 4 else zeros 32
  let seq (st : Nat) : Nat :=
    if (s.recorder st).anyClosed then s.fld (Reg.WIT_STREAM_STAT st) F.WIT_STREAM_STAT.NEXT_SEQ - 1
    else 0xFFFF_FFFF_FFFF_FFFF
  le 1 0x30 ++ le 1 (s.sealFlagsNow stop) ++ le 2 s.sysId
    ++ le 2 (if s.adriftSeal then s.fld Reg.TOW_STATE F.TOW_STATE.PEPOCH else 0)
    ++ le 2 (s.fld Reg.WIT_FLOW_KEY_ID F.WIT_FLOW_KEY_ID.KEY_ID) ++ le 8 s.epochNo
    ++ le 12 (d96 start) ++ le 12 (d96 end_) ++ le 1 s.tq ++ le 1 s.ubBase ++ le 2 (s.epochNo % 512) ++ zeros 4
    ++ zeros 32 ++ sub s.sec.certId 0 16
    ++ (List.range 16).flatMap head ++ (List.range 16).flatMap (fun st => le 8 (seq st))
    ++ (List.range 16).flatMap (fun st => le 4 (s.recorder st).epochRecs)
    ++ (List.range 5).flatMap (fun k => le 8 (mget 0 s.wit.epochGaps k)) ++ zeros 88

/-- Two bodies made one: the first one's E, START and flags with MERGED, the second one's END, heads and sequences, and
the sums of the counts (R297). ADRIFT, STOP and PARTITION cover both (R183). -/
def mergeBodies (a b : Bytes) : Bytes :=
  let add (i n : Nat) : Bytes := le n (leAt a i n + leAt b i n)
  let flags := byteAt a 1 ||| 4 ||| (byteAt b 1 &&& 0x28)
  let part := if leAt a 4 2 = 0 then sub b 4 2 else sub a 4 2
  sub a 0 1 ++ le 1 flags ++ sub a 2 2 ++ part ++ sub a 6 22 ++ sub b 28 14 ++ sub a 42 54 ++ sub b 96 640
    ++ (List.range 16).flatMap (fun i => add (736 + 4 * i) 4) ++ (List.range 5).flatMap (fun k => add (800 + 8 * k) 8)
    ++ zeros 88

/-- WIT_EPOCH_STAT.PENDING follows the bodies held (R297). -/
def syncPending (s : State) : State := s.setFld Reg.WIT_EPOCH_STAT F.WIT_EPOCH_STAT.PENDING (min s.wit.bodies.length 256)

/-- A request of rank `c` waits for the security module or is served by it (R348): 1 a seal body; 3 an image or a microcode package to be
verified; 4 a session or owner operation; 5 an attestation report. A group digest, rank 2, is made at the instant of its ARM. -/
def secPending (s : State) (c : Nat) : Bool :=
  if c = 1 then !s.wit.bodies.isEmpty
  else if c = 3 then s.prs.package.isSome || (s.boot.loading && !s.boot.header.isEmpty && !(s.boot.steps.contains 3))
  else if c = 4 then s.flag Reg.SEC_OP F.SEC_OP.BUSY
  else c == 5 && s.fld Reg.SEC_ATTEST_CTL F.SEC_ATTEST_CTL.STATUS == 1

/-- The request the module serves: the one in progress, else the pending one of the highest rank; none while it is not ready (R348). -/
def secServing (s : State) : Option Nat :=
  if !(s.flag Reg.SEC_STATUS F.SEC_STATUS.READY) then none
  else match s.sec.serving.filter s.secPending with
    | some c => some c
    | none => [1, 3, 4, 5].find? s.secPending

/-- The module goes on with the request it serves, or takes the next (R348). -/
def secTake (s : State) : State := { s with sec := { s.sec with serving := s.secServing } }

/-- The closing epoch's seal body is held for signature; with 256 held while the module is not ready, the last one is
extended instead (R295, R297). -/
def holdSeal (s : State) (start end_ : Stamp) (stop : Bool) : State :=
  let body := s.sealBody start end_ stop
  let late := !(s.flag Reg.SEC_STATUS F.SEC_STATUS.READY)
  if late && decide (256 ≤ s.wit.bodies.length) then
    match s.wit.bodies.getLast? with
    | some l =>
      let m : SealBody := { l with body := mergeBodies l.body body }
      ({ s with wit := { s.wit with bodies := s.wit.bodies.dropLast ++ [m] } }).raise Src.WIT_MERGED (l.e % 2 ^ 32)
    | none => s
  else
    let b : SealBody := ⟨s.epochNo, body, late⟩
    { s with wit := { s.wit with bodies := s.wit.bodies ++ [b], sealFirst := false } }.syncPending.secTake

/-- A change of the flow key takes effect at the start of an epoch (R284). -/
def startKey (s : State) : State :=
  match s.wit.keyPend with
  | none => s
  | some k =>
    let s := { s with wit := { s.wit with key := k, keyPend := none } }
    let id := (s.fld Reg.WIT_FLOW_KEY_ID F.WIT_FLOW_KEY_ID.KEY_ID + 1) % 65536
    let s := s.setFld Reg.WIT_FLOW_KEY_ID F.WIT_FLOW_KEY_ID.KEY_ID id
    s.control 0 0x0A (le 2 id ++ zeros 6 ++ le 8 s.epochNo) s.now

/-- TOW_SLACK(c) shows the least slack of the epoch that closes, and a slack below 100 ns is raised (R319). -/
def publishSlack (s : State) : State :=
  let s := (List.range 8).foldl (fun s c =>
    let v := mget 0x7FFFFFFF s.tow.slack c
    let s := s.setFld (Reg.TOW_SLACK c) F.TOW_SLACK.MIN_NS (ofIntW 32 (satInt 32 v))
    if v < 100 then s.raise Src.TOW_SYSD_SHORT c else s) s
  { s with tow := { s.tow with slack := [] } }

/-- A stream whose counts wait for a block opens one, unless recorders write no records (R288, R456). -/
def openForLoss (s : State) (st : Nat) : State :=
  if !s.witMuted && (List.range 5).any (fun k => decide (0 < (gapOf (s.recorder st) k).count)) then s.openBlock st else s

/-- The epoch in force closes at `end_`, and the next one starts at `next` unless the run stops; its number is `newE` where
a system gives one (R288, R294, R295, R326). -/
def closeEpoch (s : State) (end_ next : Stamp) (stop : Bool := false) (newE : Option Nat := none) : State :=
  let s := (List.range 16).foldl (fun s st => (s.openForLoss st).closeBlock st true) s
  let s := s.holdSeal s.wit.epochStart end_ stop
  let s := (List.range 16).foldl (fun s st =>
    let r := s.recorder st
    s.setRecorder st { r with epochRecs := 0 }) s
  let s := { s with wit := { s.wit with epochGaps := [], lastE := s.epochNo, epochStart := next, adriftE := s.isAdrift } }
  let s := s.publishSlack.setFld Reg.WIT_EPOCH_STAT F.WIT_EPOCH_STAT.EPOCH (newE.getD (s.epochNo + 1))
  let s := { s with wit := { s.wit with epochEnd := s.nextBoundary next } }
  if stop then s else s.startKey

/-- A log run begins (R289, R294): sequences from 0, E from 0 on a standalone device. -/
def startRun (s : State) : State :=
  let s := (List.range 16).foldl (fun s st =>
    (s.setRecorder st { gaps := (s.recorder st).gaps }).setFld (Reg.WIT_STREAM_STAT st) F.WIT_STREAM_STAT.NEXT_SEQ 0) s
  let s := if s.fld Reg.TOW_STATE F.TOW_STATE.STATE = 0 then s.setFld Reg.WIT_EPOCH_STAT F.WIT_EPOCH_STAT.EPOCH 0 else s
  let s := { s with wit := { s.wit with sealPrev := [], sealFirst := true, epochGaps := [], epochStart := s.now } }
  let s := { s with wit := { s.wit with epochEnd := s.nextBoundary s.now } }
  s.startKey

/-- The witness begins to run: a log run begins, CFG_READY.WIT is set, and what waited in the control staging is written first,
in order of event time (R289, R377, Table BOOT-6). -/
def runWitness (s : State) : State := (List.range 16).foldl drainCtl (s.startRun.setReady 7 true)

/-! ## The ring and its release (R298, R299, R304) -/

/-- The number of push rings and of export ports. -/
def pushRings (s : State) : Nat := 2 ^ s.fld Reg.WIT_EXP_CTL F.WIT_EXP_CTL.PUSH_RINGS_LOG2

/-- The number of export ports in use. -/
def exportPorts (s : State) : Nat := 2 ^ s.fld Reg.WIT_EXP_CTL F.WIT_EXP_CTL.PORTS_LOG2

/-- WIT_RING_REL: the lowest x that an enabled path still holds, or WIT_RING_WR (R304). -/
def syncRelease (s : State) : State :=
  let c := Reg.WIT_EXP_CTL
  let wr := s.rd Reg.WIT_RING_WR
  let push := if s.flag c F.WIT_EXP_CTL.PUSH_EN then (List.range s.pushRings).map (fun i => mget 0 s.wit.pushRel i) else []
  let pull := if s.flag c F.WIT_EXP_CTL.PULL_EN then [s.rd Reg.WIT_PULL_HEAD] else []
  let port := if s.flag c F.WIT_EXP_CTL.PORTS_EN then (List.range s.exportPorts).map (fun j => mget 0 s.wit.portRel j) else []
  let rel := (push ++ pull ++ port).foldl min wr
  let s := s.wr Reg.WIT_RING_REL rel
  if wr - rel < s.fld Reg.WIT_RING_CFG F.WIT_RING_CFG.SIZE then { s with wit := { s.wit with full := false } } else s

/-- The lowest x from `x0` on that falls to path `i` of `n`. -/
def firstFor (x0 n i : Nat) : Nat := x0 + (i + n - x0 % n) % n

/-- The export enables have been written: a path that is enabled begins at the current WIT_RING_REL, one that is
disabled holds nothing (R304). -/
def exportEnables (s : State) (old : Nat) : State :=
  let c := Reg.WIT_EXP_CTL
  let rel := s.rd Reg.WIT_RING_REL
  let rises (f : Fld) : Bool := s.flag c f && bits old f.hi f.lo == 0
  let s := if rises F.WIT_EXP_CTL.PUSH_EN then
      { s with wit := { s.wit with
        pushNextX := rel,
        pushRel := (List.range s.pushRings).foldl (fun m i => mput m i (firstFor rel s.pushRings i)) [] } } else s
  let s := if rises F.WIT_EXP_CTL.PULL_EN then s.wr Reg.WIT_PULL_HEAD rel else s
  let s := if rises F.WIT_EXP_CTL.PORTS_EN then
      { s with wit := { s.wit with
        portRel := (List.range s.exportPorts).foldl (fun m j => mput m j (firstFor rel s.exportPorts j)) [] } } else s
  s.syncRelease

/-- The SELECTION record of an apply (R305, Table WIT-4). -/
def selectionRecord (s : State) : State :=
  s.controlNow 0x0D (sha256 ((List.range 514).flatMap (fun p => le 8 (s.cfg (Reg.WIT_SEL p)))))

/-- The DRAM byte address of the ring slot of export sequence `x` (R298). -/
def ringAddr (s : State) (x : Nat) : Nat :=
  4096 * (s.fld Reg.WIT_RING_CFG F.WIT_RING_CFG.BASE + x % s.fld Reg.WIT_RING_CFG F.WIT_RING_CFG.SIZE)

/-- A unit's 4,096 bytes. -/
def unitBytes (u : WUnit) : Bytes := sub u.data 0 4096

end State

open State

/-! ## The commands -/

/-- WIT_APPLY (R305): every WIT shadow takes effect, and the apply of WIT_SEL is witnessed. -/
def witApply (by_ : Agent) (v : Word64) (s : State) : State :=
  s.applyWrite by_ Reg.WIT_APPLY v.toNat 14 F.WIT_APPLY.APPLY (fun _ => none) (fun _ => .pipeline) selectionRecord

/-- The end of the epoch in force arrives (R294, R295): where END has not come, nothing. -/
def epochEnd (s : State) : State :=
  if s.witOn && decide (s.wit.epochEnd ≤ s.now) then s.closeEpoch s.wit.epochEnd s.wit.epochEnd else s

/-- The module, serving it before any other request (R348), has signed the oldest held seal body, or failed to (R296, R297): the seal unit is complete and waits for
the ring. -/
def sealSigned (ok : Bool) (s : State) : State :=
  match s.wit.bodies with
  | [] => s
  | b :: rest =>
    if s.secServing != some 1 then s else
    let flags := byteAt b.body 1 ||| (if b.late then 2 else 0) ||| (if ok then 0 else 0x40)
    let prev := sub s.wit.sealPrev 0 32
    let body := patch (patch b.body 1 (le 1 flags)) 48 prev
    let sig := if ok then be 96 (Config.ecdsaSign 0 s.free (BitVec.ofNat 384 (beNat (sha384 body)))).toNat else zeros 96
    let s := if ok then { s with free := s.free + 1 }.count Ctr.SEC_SIGNATURES else s
    let bytes := body ++ sig
    let hash := sha256 bytes
    let u : WUnit := ⟨16, bytes⟩
    let s := { s with wit := { s.wit with bodies := rest, sealPrev := hash, staged := s.wit.staged ++ [u] }, tow := { s.tow with lastSealE := b.e } }
    let s := s.putBytes (Reg.WIT_HEAD 16 0) 4 hash
    let s := s.setFld (Reg.WIT_STREAM_STAT 16) F.WIT_STREAM_STAT.NEXT_SEQ (b.e + 1)
    let s := if ok then s else s.raise Src.WIT_SEAL_FAIL (b.e % 2 ^ 32)
    s.syncPending.syncStaging.secTake

/-- A write of WIT_CTL.EN 0: every block closes, a seal with STOP is formed, the run ends, and CFG_READY.WIT clears (R288,
Table WIT-10, Table BOOT-6). -/
def witStop (by_ : Agent) (s : State) : State :=
  s.accept by_ Reg.WIT_CTL (fun s =>
    let was := s.witOn
    let s' := if was && s.isWarden by_ then (s.closeEpoch s.now s.now true).setReady 7 false else s
    s'.writeFields by_ Reg.WIT_CTL 0)

/-- A write of WIT_CTL.EN 1 after 0: a new log run begins (R289). Where the loader writes it, the run begins once the block's
sections are loaded. -/
def witStart (by_ : Agent) (s : State) : State :=
  s.writeThen by_ Reg.WIT_CTL 1 (fun t =>
    if by_ != .loader && !(s.flag Reg.WIT_CTL F.WIT_CTL.EN) && t.flag Reg.WIT_CTL F.WIT_CTL.EN then t.runWitness else t)

/-- The oldest closed unit is written to the ring, while reads wait for the banks `reads`, or waits while the ring is full (R298, R299,
R417). Room in the staging lets in what the stream's control staging holds (R293). -/
def ringUnitWrite (reads : List Nat) (s : State) : State :=
  match s.wit.staged with
  | [] => s
  | u :: rest =>
    let x := s.rd Reg.WIT_RING_WR
    let size := s.fld Reg.WIT_RING_CFG F.WIT_RING_CFG.SIZE
    if x - s.rd Reg.WIT_RING_REL < size then
      let s := { s with wit := { s.wit with staged := rest, ring := mput s.wit.ring (x % size) u } }
      let s := s.wr Reg.WIT_RING_WR (x + 1)
      let s := if u.stream = 16 then (s.count Ctr.WIT_SEALS).raise Src.WIT_SEAL (leAt u.data 8 4) else s
      let s := if s.wit.panic.isSome then
          (s.panicWrites (4096 * s.fld Reg.WIT_RING_CFG F.WIT_RING_CFG.BASE) (4096 * size)).hbmWrite 1 (s.ringAddr x) 4096 reads
        else s.hbmWrite 4 (s.ringAddr x) 4096 reads
      (s.syncRelease.syncStaging).drainCtl u.stream
    else if s.wit.full then s
    else ({ s with wit := { s.wit with full := true } }).raise Src.WIT_RING_FULL

/-- The unit of export sequence `x` as the ring holds it. -/
def State.ringUnit (s : State) (x : Nat) : Bytes :=
  match mfind s.wit.ring (x % s.fld Reg.WIT_RING_CFG F.WIT_RING_CFG.SIZE) with
  | some u => unitBytes u
  | none => zeros 4096

/-- The export read of unit `x`, meeting in its 64-bit words the errors `errs` (word, 1 single-bit or 2 double-bit): the bytes as read,
a word with a double-bit error a free value, and the state after (R300, R422). -/
def State.exportRead (s : State) (x : Nat) (errs : List (Nat × Nat)) : Bytes × State :=
  let s := s.hbmRead 3 (s.ringAddr x) 4096
  let r := errs.foldl (fun (a : Bytes × State) e =>
    let s := a.2.hbmError (s.ringAddr x + 8 * e.1) e.2
    if e.2 = 2 then
      let (v, s) := s.takeFree 64
      (patch a.1 (8 * e.1) (le 8 v), s)
    else (a.1, s)) (s.ringUnit x, s)
  (r.1, if errs.any (fun e => e.2 == 2) then r.2.raise Src.WIT_RING_ECC (x % 2 ^ 32) else r.2)

/-- The next unit is pushed to its ring in host memory over the next USE 3 channel in rotation (R301, R400). -/
def pushExportUnit (errs : List (Nat × Nat)) (s : State) : State :=
  let x := s.wit.pushNextX
  let n := s.pushRings
  let i := x % n
  let base := Reg.WIT_EXP_RING_BASE i
  let size := 2 ^ s.fld base F.WIT_EXP_RING_BASE.SIZE_LOG2
  let tail := s.fld (Reg.WIT_EXP_RING_TAIL i) F.WIT_EXP_RING_TAIL.TAIL
  let head := s.fld (Reg.WIT_EXP_RING_HEAD i) F.WIT_EXP_RING_HEAD.HEAD
  let chan := ((List.range 16).map (fun k => (s.hif.pushNext + k) % 16)).find? (fun c => s.chanOn c 3)
  match chan with
  | none => s
  | some c =>
    if s.flag Reg.WIT_EXP_CTL F.WIT_EXP_CTL.PUSH_EN && s.ready 14 && decide (x < s.rd Reg.WIT_RING_WR) &&
        decide ((tail + 2 ^ 32 - head) % 2 ^ 32 < size) && !(mget {} s.hif.fns 1).d3hot then
      if !(s.dmaMay c 1) then s.dmaDenied c else
      let (data, s) := s.exportRead x errs
      let addr := s.fld base F.WIT_EXP_RING_BASE.ADDR * 4096 + 4096 * ((x / n) % size)
      let s := s.emit (.hostWrite 1 addr data)
      let s := s.setFld (Reg.WIT_EXP_RING_TAIL i) F.WIT_EXP_RING_TAIL.TAIL (tail + 1)
      let s := { s with wit := { s.wit with pushNextX := x + 1 }, hif := { s.hif with pushNext := (c + 1) % 16 } }
      (s.count (Ctr.HIF_DMA_BYTES c) 4096).raise Src.WIT_EXPORT (i + 8 * ((tail + 1) % 2 ^ 29))
    else s

/-- A host write of HEAD_i releases slots, and with them the units that the path has pushed since it was enabled (R304); one that moves HEAD_i backward or past TAIL_i is ignored (R301). -/
def pushHeadWrite (by_ : Agent) (i : Nat) (v : Word64) (s : State) : State :=
  let r := Reg.WIT_EXP_RING_HEAD i
  s.accept by_ r (fun s =>
    let head := s.fld r F.WIT_EXP_RING_HEAD.HEAD
    let tail := s.fld (Reg.WIT_EXP_RING_TAIL i) F.WIT_EXP_RING_TAIL.TAIL
    let d := (v.toNat % 2 ^ 32 + 2 ^ 32 - head) % 2 ^ 32
    if d ≤ (tail + 2 ^ 32 - head) % 2 ^ 32 then
      let s := s.setFld r F.WIT_EXP_RING_HEAD.HEAD (v.toNat % 2 ^ 32)
      let held := (tail + 2 ^ 32 - v.toNat % 2 ^ 32) % 2 ^ 32
      let old := mget 0 s.wit.pushRel i
      let rel := max old (firstFor s.wit.pushNextX s.pushRings i - s.pushRings * held)
      let s := { s with wit := { s.wit with pushRel := mput s.wit.pushRel i rel } }
      (s.count (Ctr.WIT_EXP_UNITS i) ((rel - old) / s.pushRings)).syncRelease
    else s)

/-- A host write of WIT_PULL_HEAD releases units; one below the current value or above WIT_RING_WR is ignored (R302). -/
def pullHeadWrite (by_ : Agent) (v : Word64) (s : State) : State :=
  s.accept by_ Reg.WIT_PULL_HEAD (fun s =>
    let cur := s.rd Reg.WIT_PULL_HEAD
    if cur ≤ v.toNat ∧ v.toNat ≤ s.rd Reg.WIT_RING_WR then
      let n := if s.flag Reg.WIT_EXP_CTL F.WIT_EXP_CTL.PULL_EN then v.toNat - cur else 0
      ((s.wr Reg.WIT_PULL_HEAD v.toNat).count (Ctr.WIT_EXP_UNITS 8) n).syncRelease
    else s)

end Sys2Proof.Machine
end

