-- ==== Sys2Proof/Machine/Parse.lean ====
section
/-! DEFINITION. The barges and their microcode (chapter "Parse Engines and Their Microcode"): dispatch, the words,
the traps and the end of a routine. -/
namespace Sys2Proof.Machine
namespace State

/-! ## Packets and barges -/

/-- Packet `id` replaced. -/
def setPkt (s : State) (id : Nat) (p : Packet) : State := { s with pkts := mput s.pkts id p }

/-- Packet `id` changed, where it exists. -/
def onPkt (s : State) (id : Nat) (f : Packet → Packet) : State :=
  match mfind s.pkts id with
  | some p => s.setPkt id (f p)
  | none => s

/-- Barge `n` (96 × slice + number) replaced. -/
def setBarge (s : State) (n : Nat) (b : Barge) : State := { s with prs := { s.prs with barges := mput s.prs.barges n b } }

/-- The slice that handles frames of a port: management ports belong to slice 0 (R96). -/
def parseSlice (port : Nat) : Nat := sliceOf port

/-- Packet `id` meets the blocks `bs`: those whose two held values are both later than it are counted, each once (R185). -/
def noteStale (s : State) (bs : List Nat) (id : Nat) : State :=
  match mfind s.pkts id with
  | none => s
  | some p =>
    let old := bs.filter (fun b => s.staleUse b p.ver p.stamp && !(p.stale.contains b))
    old.foldl (fun s _ => s.count Ctr.VER_STALE_USE) (s.setPkt id { p with stale := p.stale ++ old })

/-- How far a packet is past the release of its manifest: 1 at the lookups, 2 at the meters, 3 at admission. -/
def stageNo : Stage → Nat
  | .lookup => 1
  | .meter => 2
  | .accept => 3
  | _ => 0

/-- Every packet of its slice released before packet `id` has gone on from this stage, those in `beside` not counted (R100, R209,
R225). -/
def inTurn (s : State) (id : Nat) (beside : List Nat) : Bool :=
  match mfind s.pkts id with
  | none => false
  | some p => !(s.pkts.any (fun e =>
      !(beside.contains e.1) && parseSlice e.2.port == parseSlice p.port && decide (e.2.rel < p.rel)
        && decide (0 < stageNo e.2.stage ∧ stageNo e.2.stage ≤ stageNo p.stage)))

/-! ## Profiles (Table PARSE-20 to Table PARSE-24) -/

/-- The profile number of a frame of `port`. -/
def profileOf (s : State) (port ver : Nat) (t : Stamp) : Nat :=
  let sl := parseSlice port
  if port = 512 then s.cfgAtFld Reg.PRS_MGMT_PROF F.PRS_MGMT_PROF.PROF_512 ver t
  else if port = 513 then s.cfgAtFld Reg.PRS_MGMT_PROF F.PRS_MGMT_PROF.PROF_513 ver t
  else
    let j := port % 32
    if j < 16 then bits (s.cfgAt (Reg.PRS_PORT_PROF_LO sl) ver t) (4 * j + 3) (4 * j)
    else bits (s.cfgAt (Reg.PRS_PORT_PROF_HI sl) ver t) (4 * (j - 16) + 3) (4 * (j - 16))

/-- DEPTH of a profile register's value, in bytes. -/
def profDepth (v : Nat) : Nat := 16 * clamp 4 16 (bits v F.PRS_PROFILE.DEPTH.hi F.PRS_PROFILE.DEPTH.lo)

/-- MIN_LEN of a profile register's value. -/
def profMinLen (v : Nat) : Nat := clamp 64 256 (bits v F.PRS_PROFILE.MIN_LEN.hi F.PRS_PROFILE.MIN_LEN.lo)

/-- The cycle budget B(L) (R102). -/
def budget (l : Nat) : Nat := (l + 20) / 2

/-- The exported routine at address `a`, where there is one (R127). -/
def exportNo (s : State) (a : Nat) : Option Nat :=
  (List.range 32).find? (fun i =>
    s.flag (Reg.PRS_VEXPORT i) F.PRS_VEXPORT.VALID && s.fld (Reg.PRS_VEXPORT i) F.PRS_VEXPORT.ADDR == a)

/-- An exported routine's W, by its address (R127). -/
def exportAt (s : State) (a : Nat) : Option Nat := (s.exportNo a).map (fun i => s.fld (Reg.PRS_VEXPORT i) F.PRS_VEXPORT.W)

/-- An ENTRY a profile may name: the default routine, an exported address or the customer region (R127). -/
def entryOk (s : State) (a : Nat) : Bool := a == 0x20 || decide (12288 ≤ a) || (s.exportAt a).isSome

/-- The control-store word at address `a` with customer bank `bank` in force (R125). Of the sealed vendor region, the default
routine and the exported routines run as one word each: DONE and RET (R127). -/
def csWord (s : State) (bank a : Nat) : Microword :=
  if a < 12288 then
    if a = 0x20 then BitVec.ofNat 192 (0x18 * 2 ^ 152)
    else if (s.exportNo a).isSome then BitVec.ofNat 192 (0x14 * 2 ^ 152)
    else Word.filler
  else if bank = 0 then mget Word.filler s.prs.bank0 (a - 12288)
  else mget Word.filler s.prs.bank1 (a - 12288)

/-! ## The worst-case path (R103) -/

/-- The longest of the given path lengths; `none` where one of them is not finite. -/
def longest (xs : List (Option Nat)) : Option Nat :=
  xs.foldl (fun a x => match a, x with
    | some a, some x => some (max a x)
    | _, _ => none) (some 0)

/-- The successors of a word that its W counts: of a DJNZ only those above its own address, the loop itself being
counted at its LOOP word. -/
def wordSuccs (a : Nat) (w : Microword) : List Nat :=
  let o := Word.op w
  if o = 0x18 ∨ o = 0x19 ∨ o = 0x14 ∨ 0x1B ≤ o then []
  else if o = 0x13 then [Word.next w]
  else if o = 0x16 then (if a < Word.alt w then [Word.alt w, Word.next w] else [Word.next w])
  else if o = 0x17 then (List.range 16).map (fun i => Word.alt w + i)
  else
    let c := Word.cond w
    if c = 1 then [Word.alt w] else if c = 0 ∨ 10 ≤ c then [Word.next w] else [Word.alt w, Word.next w]

/-- The W of the address `t` from a word at `a`: of an exported routine as published, of a customer word as already found
for the higher addresses; `none` where it is not finite. -/
def wOf (s : State) (m : SMap Nat) (a t : Nat) : Option Nat :=
  if t < 12288 then s.exportAt t else if a < t then mfind m t else none

/-- The length of a word with the routine it calls. -/
def wordLen (s : State) (m : SMap Nat) (a : Nat) (w : Microword) : Option Nat :=
  if Word.op w = 0x13 then (s.wOf m a (Word.alt w)).map (Word.cycles w + ·) else some (Word.cycles w)

/-- The last DJNZ of the loop that the LOOP word at `x` begins: the highest one that branches back to a word above `x`
with no other LOOP between; `x` itself where there is none. -/
def loopEnd (word : Nat → Microword) (x : Nat) : Nat :=
  ((List.range (16383 - x)).filter (fun k =>
    let d := x + 1 + k
    let t := Word.alt (word d)
    Word.op (word d) == 0x16 && decide (x < t ∧ t ≤ d) &&
      (List.range (t - x - 1)).all (fun j => Word.op (word (x + 1 + j)) != 0x15))).foldl (fun _ k => x + 1 + k) x

/-- The longest paths from the words `x + 1` to `d` of a loop while its loop count is `k`; `prev` are those of count `k - 1`,
and `m` holds the paths of the words above `d` and of LOOP words, which set the count anew. -/
def loopLayer (s : State) (word : Nat → Microword) (m prev : SMap Nat) (x d k : Nat) : SMap Nat :=
  (List.range (d - x)).foldl (fun acc j =>
    let a := d - j
    let w := word a
    let path (t : Nat) : Option Nat := if t < 12288 ∨ d < t then s.wOf m a t else mfind acc t
    let again (t : Nat) : Option Nat := if t < 12288 ∨ d < t then s.wOf m a t else mfind prev t
    let rest :=
      if Word.op w = 0x16 then (if k ≤ 1 then path (Word.next w) else again (Word.alt w))
      else longest ((wordSuccs a w).map path)
    if Word.op w = 0x15 then (match mfind m a with
      | some v => mput acc a v
      | none => acc)
    else match rest, s.wordLen m a w with
      | some r, some l => mput acc a (l + r)
      | _, _ => acc) []

/-- The longest paths from the words of the loop that the LOOP word at `x` begins with count `lc`. -/
def loopPaths (s : State) (word : Nat → Microword) (m : SMap Nat) (x d lc : Nat) : SMap Nat :=
  (List.range lc).foldl (fun prev k => s.loopLayer word m prev x d (k + 1)) []

/-- W of every customer word whose paths are finite (R103), found from the highest address down: from a LOOP word on, a path
goes round its loop as often as the loop count says. -/
def wTable (s : State) (word : Nat → Microword) : SMap Nat :=
  (List.range 4096).foldl (fun m k =>
    let a := 16383 - k
    let w := word a
    let d := if Word.op w = 0x15 then loopEnd word a else a
    let u := if d = a then [] else s.loopPaths word m a d (Word.imm w).toNat
    let rest := longest ((wordSuccs a w).map (fun t => if a < t ∧ t ≤ d then mfind u t else s.wOf m a t))
    match rest, s.wordLen m a w with
    | some r, some l => mput m a (l + r)
    | _, _ => m) []

/-- W of a profile whose ENTRY is `e`, against customer bank `bank`; 0xFFFF where ENTRY is not analysable (R103, R127). -/
def profW (s : State) (e bank : Nat) : Nat :=
  if e = 0x20 then 8
  else if e < 12288 then (s.exportAt e).getD 0xFFFF
  else (mfind (s.wTable (s.csWord bank)) e).getD 0xFFFF

/-! ## The end of a routine (R101, R112, R115, R121) -/

/-- The sample that a sampler has asked a barge for is not taken: its request is withdrawn (R121). -/
def sampleGone (s : State) (counter : Nat) : State :=
  let ask (e : Nat × Sampler) : Bool := s.fld (Reg.PMC_SAMPLE_CFG e.1) F.PMC_SAMPLE_CFG.COUNTER == counter && e.2.asked
  match s.pmc.samplers.find? ask with
  | some (i, a) => { s with pmc := { s.pmc with samplers := mset {} s.pmc.samplers i { a with want := none, asked := false } } }
  | none => s

/-- Barge `n`'s routine ends with exception code `exc`, 0 for DONE: the manifest closes, UNITS is set, and what is still
pending for it is withdrawn. -/
def endRoutine (s : State) (n : Nat) (b : Barge) (exc : Nat) : State :=
  let sl := n / 96
  match mfind s.pkts b.pkt with
  | none => { s with prs := { s.prs with barges := mdel s.prs.barges n } }
  | some p =>
    let prof := s.cfgAt (Reg.PRS_PROFILE sl p.profile) p.ver p.stamp
    let f (x : Fld) := bits prof x.hi x.lo
    let man := manPut b.man 39 36 exc
    let units := byteAt man 7
    let man := if units ≠ 0 then man
      else manPut man 63 56 (if f F.PRS_PROFILE.UNIT_MSG = 1 ∧ b.mt ≠ 0 then b.mt else 1)
    let s := s.setPkt b.pkt { p with
      manifest := man, msgs := b.msgs, stage := .closed, heldBy := some n,
      excAction := if exc = 0 then 1 else f F.PRS_PROFILE.EXC_ACTION }
    let s := { s with prs := { s.prs with barges := mdel s.prs.barges n } }
    let s := match mfind b.traps 3 with
      | some c => (s.count (Ctr.PRS_SAMPLE_LOST sl)).sampleGone c
      | none => s
    if exc = 0 then s else (s.count (Ctr.PRS_EXC exc sl)).raise Src.PRS_EXCEPTION (p.port + 1024 * exc)

/-! ## Running a word (R106) -/

/-- What a word does to its barge. -/
inductive WordEnd where
  /-- it completes; a successor the opcode states itself, or none for the one COND selects -/
  | go (b : Barge) (succ : Option Nat) (s : State)
  /-- it ends the routine with an exception code, 0 for DONE -/
  | stop (b : Barge) (exc : Nat) (s : State)
  /-- it is abandoned after `cost` cycles and requests trap `prio` with the given detail -/
  | abandon (prio detail cost : Nat) (s : State)
  /-- its access still waits -/
  | wait

/-- A trap request reaches a barge (R116, R118); one that finds its priority pending already changes nothing (log entry 16). -/
def requestTrap (b : Barge) (prio detail : Nat) : Barge :=
  if (mfind b.traps prio).isSome then b
  else { b with traps := mput b.traps prio detail, wanted := true, skid := if prio = 3 then 0 else b.skid }

/-- Whether a pending trap is claimed before the next word runs: sampling may wait 6 words, but not for a vendor routine, whose
words the model does not count (R116, R122). -/
def trapFirst (b : Barge) : Bool :=
  b.wanted && ((mfind b.traps 0).isSome || (mfind b.traps 1).isSome || (mfind b.traps 2).isSome || b.traps.isEmpty
    || decide (6 ≤ b.skid ∨ b.pc < 12288))

/-- The word a barge runs next: the filler where its profile names no routine it may run (R127). -/
def fetch (s : State) (p : Packet) (b : Barge) : Microword := if b.routine then s.csWord p.bank b.pc else Word.filler

/-- The cycles a barge's word takes: of a vendor routine its W (Table PARSE-13). -/
def wordCycles (s : State) (b : Barge) (w : Microword) : Nat :=
  if b.pc = 0x20 then 8 else if b.pc < 12288 then (s.exportAt b.pc).getD 1 else Word.cycles w

/-- The vendor routine at the barge's address is run, before the DONE or the RET that ends it. -/
def runVendor (s : State) (p : Packet) (b : Barge) : Barge × State :=
  if 12288 ≤ b.pc then (b, s)
  else
    let (x, s) := s.takeFree 524
    (vendorRun ((s.exportNo b.pc).getD 0) x p b, s)

/-- RUN_LIMIT in force for a slice (Table PARSE-19). -/
def runLimit (s : State) (sl : Nat) (p : Packet) : Nat :=
  clamp 64 1024 (s.cfgAtFld (Reg.PRS_CFG sl) F.PRS_CFG.RUN_LIMIT p.ver p.stamp)

/-- Whether the word at `pc` has an uncorrected double-bit error in slice `sl` (R126). -/
def csBad (s : State) (sl : Nat) (p : Packet) (b : Barge) : Bool :=
  s.prs.ecc.contains (sl, if b.pc < 12288 then 2 else p.bank, b.pc)

/-- Barge `n` spends `c` engine cycles and goes on with `k`; where RUN_LIMIT comes first, its routine ends there with exception
code 2, trap time included (R101, Table PARSE-35). -/
def spend (s : State) (n : Nat) (p : Packet) (b : Barge) (c : Nat) (k : State → Barge → State) : State :=
  let most := s.runLimit (n / 96) p
  let used := min c (most - b.cycles)
  let s := s.count (Ctr.PRS_CYCLES (n / 96)) used
  let b := { b with cycles := b.cycles + used }
  if used < c then s.endRoutine n b 2 else k s b

/-- A fetch of the word at the barge's address meets `errors` bits in error: one is corrected and the word rewritten, two leave the
word bad until it is restored (R126). The second part says that the word is bad. -/
def csFetch (s : State) (sl : Nat) (p : Packet) (b : Barge) (errors : Nat) : Bool × State :=
  let s := if errors = 2 ∧ !(s.csBad sl p b) then
      { s with prs := { s.prs with ecc := s.prs.ecc ++ [(sl, if b.pc < 12288 then 2 else p.bank, b.pc)] } } else s
  if s.csBad sl p b then (true, s.raise Src.PRS_CS_ECC (b.pc + 2 ^ 14 * sl))
  else (false, if errors = 1 then s.count (Ctr.PRS_CS_CORRECTED sl) else s)

/-- The detail of a deferral trap (Table PARSE-9): the register, and the cycles since issue, of which the field holds 8 bits; what it
holds above 255 is not stated (log entry 4). -/
def deferral (s : State) (b : Barge) (r : Nat) : Nat × State :=
  let d := b.cycles - ((mfind b.lkups r).getD ⟨0, 0, 0⟩).issued
  if d < 256 then (r + 256 * d, s)
  else
    let (x, s) := s.takeFree 8
    (r + 256 * x, s)

/-- Barge `n` runs its next word, `held` cycles beyond its length, where that word satisfies `isOp`; `body` is the
opcode's own effect (R106, R108, R113), and `errors` what its fetch meets. A pending trap and a running handler come first. -/
def runWord (s : State) (n held errors : Nat) (isOp : Nat → Bool) (body : State → Packet → Barge → Microword → WordEnd) : State :=
  match mfind s.prs.barges n with
  | none => s
  | some b =>
    match mfind s.pkts b.pkt with
    | none => s
    | some p =>
      let w := s.fetch p b
      if b.serving.isSome || trapFirst b || decide (s.runLimit (n / 96) p ≤ b.cycles) || !(isOp (Word.op w)) then s
      else
        match s.csFetch (n / 96) p b errors with
        | (true, s) => s.endRoutine n b 7
        | (false, s) =>
          match pendingRead b w with
          | some r =>
            let (d, s) := s.deferral b r
            s.setBarge n (requestTrap b 2 d)
          | none =>
            let len := s.wordCycles b w
            let done (s : State) (b : Barge) (c : Nat) (k : State → Barge → State) : State :=
              s.spend n p { b with skid := b.skid + 1 } c k
            if s.runLimit (n / 96) p < b.cycles + len + min 8 held then s.spend n p b (len + min 8 held) (fun s b => s.setBarge n b)
            else
              match body s p b w with
              | .go b succ s =>
                done s b (len + held) (fun s b =>
                  let pc := match succ with
                    | some a => a
                    | none => if condHolds b (Word.cond w) then Word.alt w else Word.next w
                  s.setBarge n { advance b w with pc := pc % 2 ^ 14 })
              | .stop b exc s => done s b len (fun s b => s.endRoutine n b exc)
              | .abandon prio d cost s => s.spend n p b cost (fun s b => s.setBarge n (requestTrap b prio d))
              | .wait => s

/-- A word whose operation is a function of operand B and the barge alone. -/
def runB (s : State) (n errs op : Nat) (f : Packet → Barge → Microword → Word64 → Barge) : State :=
  s.runWord n 0 errs (· == op) (fun s p b w =>
    let (v, e) := operandB p b w
    .go (f p { b with wend := e } w v) none s)

/-- A word that writes an arithmetic result to DST and sets Z and C. -/
def runAlu (s : State) (n errs op : Nat) (f : Word64 → Word64 → Alu) : State :=
  s.runB n errs op (fun _ b w v =>
    let r := f (greg b (Word.srcA w)) v
    { setGreg b (Word.dst w) r.value with z := r.z, c := r.c })

/-- The scratchpad address of a word is aligned and lies in the scratchpad (R114). -/
def scpAddrOk (a : Nat) : Bool := decide (a % 8 = 0 ∧ a < 0x200_0000)

/-- A scratchpad word, held `held` cycles beyond its length: more than 8 and it is abandoned, its access not made (R114). -/
def runScp (s : State) (n errs op held waits ecc : Nat) (f : Word64 → ScpOp) (readsB : Bool) : State :=
  s.runWord n held errs (· == op) (fun s p b w =>
    let (v, e) := if readsB then operandB p b w else (0, b.wend)
    let a := (greg b (Word.srcA w)).toNat
    let len := s.wordCycles b w
    if !(scpAddrOk a) then .stop b 6 s
    else if s.scpOwns (n / 96 + 1) (scpBank a) && decide (8 < held) then .abandon 1 a (len + 8) s
    else
      match s.scpAccess (n / 96 + 1) a (f v) waits ecc with
      | (.violation, s) => .stop b 6 s
      | (.wait, _) => .wait
      | (.poison, s) => .abandon 0 (2 + 4 * Word.dst w) (len + held) s
      | (.value old, s) => .go (setGreg { b with wend := e } (Word.dst w) (BitVec.ofNat 64 old)) none s)

/-- The barges of a slice that run a routine. -/
def busyOf (s : State) (sl : Nat) : Nat := (s.prs.barges.filter (fun e => e.1 / 96 == sl)).length

/-- Barge `n` is free: it runs no routine and holds no frame whose manifest waits for its release (R97, R100). -/
def bargeFree (s : State) (n : Nat) : Bool :=
  (mfind s.prs.barges n).isNone && !(s.pkts.any (fun e => e.2.stage == .closed && e.2.heldBy == some n))

/-- The dispatch queue of a slice. -/
def dispatchQ (s : State) (sl : Nat) : List Nat := mget [] s.prs.queues sl

/-- The frames of one port that are between their first bit and the release of their manifest, oldest stamp first. -/
def portFrames (s : State) (port : Nat) : List (Nat × Packet) :=
  s.pkts.filter (fun e => e.2.port == port && (match e.2.stage with
    | .receiving => true
    | .dispatch => true
    | .barge _ => true
    | .closed => true
    | _ => false))

/-- Words of bank `b` of the customer region from a package (R130). -/
def setBank (s : State) (b : Nat) (m : SMap Microword) : State :=
  if b = 0 then { s with prs := { s.prs with bank0 := m } } else { s with prs := { s.prs with bank1 := m } }

end State

open State

/-! ## The microwords (Table PARSE-4); `n` is the barge, 96 × slice + number, and
`errs` the bits in error that the fetch of the word meets (R126) -/

/-- NOP. An operand B that its opcode does not take, or one of CALL, RET, MSG or SCPRD, is not read, so that a word of BSEL 2 leaves WEND
unchanged (log entry 16). -/
def mwNop (n errs : Nat) (s : State) : State := s.runWord n 0 errs (· == 0x00) (fun s _ b _ => .go b none s)
/-- MOV. -/
def mwMov (n errs : Nat) (s : State) : State := s.runB n errs 0x01 (fun _ b w v => setGreg b (Word.dst w) v)
/-- ADD. -/
def mwAdd (n errs : Nat) (s : State) : State := s.runAlu n errs 0x02 aluAdd
/-- SUB. -/
def mwSub (n errs : Nat) (s : State) : State := s.runAlu n errs 0x03 aluSub
/-- AND. -/
def mwAnd (n errs : Nat) (s : State) : State := s.runAlu n errs 0x04 (fun a b => aluLogic (a &&& b))
/-- OR. -/
def mwOr (n errs : Nat) (s : State) : State := s.runAlu n errs 0x05 (fun a b => aluLogic (a ||| b))
/-- XOR. -/
def mwXor (n errs : Nat) (s : State) : State := s.runAlu n errs 0x06 (fun a b => aluLogic (a ^^^ b))
/-- SHL. -/
def mwShl (n errs : Nat) (s : State) : State := s.runAlu n errs 0x07 aluShl
/-- SHR. -/
def mwShr (n errs : Nat) (s : State) : State := s.runAlu n errs 0x08 aluShr
/-- CMP. -/
def mwCmp (n errs : Nat) (s : State) : State :=
  s.runB n errs 0x09 (fun _ b w v => let r := aluSub (greg b (Word.srcA w)) v; { b with z := r.z, c := r.c })
/-- CMPM. -/
def mwCmpm (n errs : Nat) (s : State) : State :=
  s.runB n errs 0x0A (fun _ b w v => { b with z := cmpmZ (greg b (Word.srcA w)) v w, c := false })
/-- MWR (R110). -/
def mwMwr (n errs : Nat) (s : State) : State :=
  s.runB n errs 0x0B (fun _ b w v => { b with man := manWrite b.man (Word.moff w) (Word.msize w) v.toNat })

/-- MSG (R111); `lane` is the lane that carries the first bit at the cursor. -/
def mwMsg (n errs lane : Nat) (s : State) : State :=
  s.runWord n 0 errs (· == 0x0C) (fun s _ b _ =>
    let inOrder : Bool := match b.msgs.getLast? with
      | some m => decide (m.1 < b.cursor)
      | none => true
    if b.cursor < 256 ∧ inOrder = true then
      let k := manGet b.man 35 32
      let b := { b with mt := min 255 (b.mt + 1) }
      if k < 8 then
        let man := manPut (manPut b.man (64 + 8 * k + 7) (64 + 8 * k) b.cursor) 35 32 (k + 1)
        .go { b with man := man, msgs := b.msgs ++ [(b.cursor, lane)] } none s
      else .go { b with man := manPut b.man 31 31 1 } none s
    else .go b none (s.count (Ctr.PRS_MSG_ORDER (n / 96))))

/-- SETLEN. -/
def mwSetlen (n errs : Nat) (s : State) : State :=
  s.runB n errs 0x0D (fun _ b _ v =>
    if 64 ≤ v.toNat ∧ v.toNat ≤ 10240 then { b with man := manPut (manPut b.man 29 16 v.toNat) 30 30 1 } else b)

/-- LKUP (R113): the lookup is issued and DST is pending. Key bytes beyond manifest byte 63 are zero (log entry 16). -/
def mwLkup (n errs : Nat) (s : State) : State :=
  s.runB n errs 0x0E (fun _ b w v =>
    { b with lkups := mput b.lkups (Word.dst w) (PendLkup.mk (leNat (sub b.man (Word.moff w) 16)) (v.toNat % 16) b.cycles) })

/-- SCPRD. -/
def mwScprd (n errs held waits ecc : Nat) (s : State) : State := s.runScp n errs 0x0F held waits ecc (fun _ => .read) false
/-- SCPADD. -/
def mwScpadd (n errs held waits ecc : Nat) (s : State) : State := s.runScp n errs 0x10 held waits ecc (fun v => .add v.toNat) true
/-- SCPSWP. -/
def mwScpswp (n errs held waits ecc : Nat) (s : State) : State := s.runScp n errs 0x11 held waits ecc (fun v => .swap v.toNat) true

/-- CSUM: the ones' complement sum of IMM[5:0] + 1 16-bit words from window byte a. -/
def mwCsum (n errs : Nat) (s : State) : State :=
  s.runWord n 0 errs (· == 0x12) (fun s p b w =>
    let k := (Word.imm w).toNat % 64 + 1
    let a := windowByte b w
    let sum := onesSum ((List.range k).map (fun i => frameBits p (8 * a + 16 * i) 16))
    let b := { b with z := sum == 0xFFFF, wend := decide (extent p < a + 2 * k) }
    .go (setGreg b (Word.dst w) (BitVec.ofNat 64 sum)) none s)

/-- CALL: exception code 4 with the stack full. -/
def mwCall (n errs : Nat) (s : State) : State :=
  s.runWord n 0 errs (· == 0x13) (fun s _ b w =>
    if 4 ≤ b.stack.length then .stop b 4 s
    else .go { b with stack := b.stack ++ [Word.next w] } (some (Word.alt w)) s)

/-- RET: exception code 4 with the stack empty. At an exported address it ends that routine (R127). -/
def mwRet (n errs : Nat) (s : State) : State :=
  s.runWord n 0 errs (· == 0x14) (fun s p b _ =>
    let (b, s) := s.runVendor p b
    match b.stack.getLast? with
    | none => .stop b 4 s
    | some a => .go { b with stack := b.stack.dropLast } (some a) s)

/-- LOOP: exception code 4 with a count outside 1–8. -/
def mwLoop (n errs : Nat) (s : State) : State :=
  s.runWord n 0 errs (· == 0x15) (fun s p b w =>
    let (v, e) := operandB p b w
    let b := { b with wend := e }
    if 1 ≤ v.toNat ∧ v.toNat ≤ 8 then .go { b with loopN := v.toNat } none s else .stop b 4 s)

/-- DJNZ: exception code 4 with a loop count of zero. -/
def mwDjnz (n errs : Nat) (s : State) : State :=
  s.runWord n 0 errs (· == 0x16) (fun s _ b w =>
    if b.loopN = 0 then .stop b 4 s
    else .go { b with loopN := b.loopN - 1 } (some (if b.loopN = 1 then Word.next w else Word.alt w)) s)

/-- SWITCH. -/
def mwSwitch (n errs : Nat) (s : State) : State :=
  s.runWord n 0 errs (· == 0x17) (fun s _ b w =>
    .go b (some (Word.alt w + (greg b (Word.srcA w)).toNat % 16)) s)

/-- DONE (R112). At 0x0020 it ends the default routine, which calls ETH (R127). -/
def mwDone (n errs : Nat) (s : State) : State :=
  s.runWord n 0 errs (· == 0x18) (fun s p b _ =>
    let (b, s) := s.runVendor p b
    .stop b 0 s)

/-- ABORT: exception code 8 + (B AND 7). -/
def mwAbort (n errs : Nat) (s : State) : State :=
  s.runWord n 0 errs (· == 0x19) (fun s p b w =>
    let (v, e) := operandB p b w
    .stop { b with wend := e } (8 + v.toNat % 8) s)

/-- A reserved opcode: exception code 4 (R109). -/
def mwReserved (n errs : Nat) (s : State) : State := s.runWord n 0 errs (fun o => decide (0x1B ≤ o)) (fun s _ b _ => .stop b 4 s)

/-! ## Traps (R116 to R123) -/

/-- The trap frame of a barge that enters for `cause` with the given detail (Table PARSE-9). -/
def State.trapFrame (b : Barge) (cause detail : Nat) : List Word64 :=
  let w0 := b.pc + cause * 2 ^ 16 + b2n b.z * 2 ^ 28 + b2n b.c * 2 ^ 29 + b2n b.wend * 2 ^ 30 + b.cursor * 2 ^ 32
    + b.loopN * 2 ^ 41 + b.stack.length * 2 ^ 45 + (b.cycles % 65536) * 2 ^ 48
  let w1 := (b.stack.zipIdx).foldl (fun a e => a + e.1 * 2 ^ (14 * e.2)) 0
  [BitVec.ofNat 64 w0, BitVec.ofNat 64 w1, BitVec.ofNat 64 b.mt, greg b 12, greg b 13, greg b 14, greg b 15,
    BitVec.ofNat 64 detail]

/-- The vector of a cause (Table PARSE-8). -/
def State.vectorOf (cause : Nat) : Nat := if cause < 4 then 4 * cause else 0x10

/-- The deferral that a handler serves is still unanswered. -/
def State.awaits (b : Barge) : Bool :=
  b.serving == some 2 && (mfind b.lkups (bits (b.frame.getD 7 0).toNat 3 0)).isSome

/-- The sampling handler posts trap frame words 0 and 7 to the sample buffer of the counter block (Table PARSE-8). -/
def State.postSample (s : State) (p : Packet) (b : Barge) : State :=
  let w (i : Nat) : Word64 := b.frame.getD i 0
  { s with pmc := { s.pmc with posted := s.pmc.posted ++ [⟨(w 7).toNat, w 0, w 7, p.inPort, p.ver, p.stamp⟩] } }

/-- The vendor handler of `cause` runs up to its RTT (Table PARSE-8): `wait` is the cycles its retries of a scratchpad access take, of
which it makes four of 8, or those until a deferred lookup's result, which it awaits for fewer than 64. It ends the routine, or
leaves RTT to run. -/
def State.handle (s : State) (n : Nat) (p : Packet) (b : Barge) (cause wait : Nat) : State :=
  let b := { b with pc := State.vectorOf cause }
  let run (c : Nat) : State := s.spend n p b c (fun s b => s.setBarge n b)
  let fail (c exc : Nat) : State := s.spend n p b c (fun s b => s.endRoutine n b exc)
  if cause = 0 then fail 2 3
  else if cause = 1 then (if 32 < wait then fail 34 6 else run (2 + wait))
  else if cause = 2 then
    let wait := if State.awaits b then wait else 0
    if 64 ≤ wait then fail 64 5 else run (1 + wait)
  else if cause = 3 then s.spend n p b 4 (fun s b => (s.postSample p b).setBarge n b)
  else s.setBarge n b

/-- The traps of a barge with one that arrives while an entry or an exit is under way. -/
def State.withArrival (b : Barge) (arrives : Option (Nat × Nat)) : Barge :=
  match arrives with
  | some (prio, detail) => if prio < 4 then State.requestTrap b prio detail else b
  | none => b

/-- Barge `n` claims its pending trap of highest priority, saves the routine's state and runs the handler (R117); a claim
whose request has been withdrawn yields 0xFFF (R120). `arrives` is a trap, with its detail, that arrives during the entry: one of
higher priority is entered in place of the claimed one, which stays pending. -/
def trapEntry (n wait : Nat) (arrives : Option (Nat × Nat)) (s : State) : State :=
  match mfind s.prs.barges n with
  | none => s
  | some b =>
    match mfind s.pkts b.pkt with
    | none => s
    | some p =>
      if b.serving.isSome || !b.wanted then s
      else
        let sl := n / 96
        match b.traps with
        | [] =>
          let x := State.withArrival { b with wanted := false, serving := some 0xFFF, frame := State.trapFrame b 0xFFF 0 } arrives
          (s.count (Ctr.PRS_SPURIOUS sl)).spend n p x 2 (fun s b => s.handle n p b 0xFFF 0)
        | _ :: _ =>
          let x := State.withArrival b arrives
          let (prio, detail) := x.traps.headD (0, 0)
          let rest := x.traps.tail
          let x := { x with traps := rest, wanted := !rest.isEmpty, serving := some prio, frame := State.trapFrame b prio detail }
          (s.count (Ctr.PRS_TRAP prio sl)).spend n p x 2 (fun s b => s.handle n p b prio wait)

/-- A barge with the state its trap frame holds (R123, Table PARSE-9). -/
def State.restore (b : Barge) : Barge :=
  let f (i : Nat) : Word64 := b.frame.getD i 0
  let w0 := (f 0).toNat
  let b := State.setGreg (State.setGreg (State.setGreg (State.setGreg b 12 (f 3)) 13 (f 4)) 14 (f 5)) 15 (f 6)
  { b with
    pc := bits w0 13 0, z := bitOf w0 28, c := bitOf w0 29, wend := bitOf w0 30, cursor := bits w0 40 32,
    loopN := bits w0 44 41, mt := bits (f 2).toNat 7 0,
    stack := (List.range (bits w0 47 45)).map (fun i => bits (f 1).toNat (14 * i + 13) (14 * i)),
    serving := none, frame := [], wanted := false }

/-- RTT (R119, R123): the saved state is restored and the routine resumes; with a trap pending, or one that arrives meanwhile, that
trap is entered instead without a second save. The deferral handler runs it once the result has come. -/
def mwRtt (n errs wait : Nat) (arrives : Option (Nat × Nat)) (s : State) : State :=
  match mfind s.prs.barges n with
  | none => s
  | some b =>
    match mfind s.pkts b.pkt with
    | none => s
    | some p =>
      if b.serving.isNone || State.awaits b then s
      else
        match s.csFetch (n / 96) p b errs with
        | (true, s) => s.endRoutine n b 7
        | (false, s) =>
          let x := State.withArrival b arrives
          match x.traps with
          | (prio, detail) :: rest =>
            let w0 := BitVec.ofNat 64 (putBits (b.frame.getD 0 0).toNat 27 16 prio)
            let x := { x with
              traps := rest, wanted := !rest.isEmpty, serving := some prio,
              frame := (b.frame.set 0 w0).set 7 (BitVec.ofNat 64 detail) }
            (s.count (Ctr.PRS_TRAP prio (n / 96))).spend n p x 2 (fun s b => s.handle n p b prio wait)
          | [] => s.spend n p x 2 (fun s b => s.setBarge n (State.restore b))

/-- The result of barge `n`'s lookup for register `reg` arrives (R113): a deferral still unclaimed is withdrawn. `bad` is a memory in
which the lookup meets a double-bit error, 0 bucket entry or 1 stash entry, with its index (R149). -/
def lkupResult (n reg : Nat) (bad : Option (Nat × Nat)) (s : State) : State :=
  match mfind s.prs.barges n with
  | none => s
  | some b =>
    match mfind b.lkups reg, mfind s.pkts b.pkt with
    | some l, some p =>
      let s := match bad with
        | some (m, i) => if m < 2 then s.meetBad m i else s
        | none => s
      let (hit, s) := s.emLookup l.part l.key p.ver
      let v := match hit with
        | some e => 2 ^ 63 + e.action % 2 ^ 63
        | none => 0
      let mine := match mfind b.traps 2 with
        | some d => bits d 3 0 == reg
        | none => false
      let traps := if mine then mdel b.traps 2 else b.traps
      s.setBarge n { setGreg b reg (BitVec.ofNat 64 v) with lkups := mdel b.lkups reg, traps := traps }
    | _, _ => s

/-- A scratchpad word still held 8 cycles beyond its length is abandoned (R114). -/
def scpStallTimeout (n : Nat) (s : State) : State :=
  s.runWord n 9 0 (fun o => o == 0x0F || o == 0x10 || o == 0x11) (fun s _ b w =>
    let a := (greg b (Word.srcA w)).toNat
    if !(scpAddrOk a) then .stop b 6 s
    else if s.scpOwns (n / 96 + 1) (scpBank a) then .abandon 1 a (s.wordCycles b w + 8) s
    else .stop b 6 ((s.count (Ctr.SCP_VIOL (n / 96))).raise Src.SCP_OWN_VIOL (scpBank a + 256 * (n / 96 + 1))))

/-- A poison-tagged value arrives at barge `n`: `origin` as Table PARSE-9 codes it, `reg` its register (R116). -/
def poisonArrival (n origin reg : Nat) (s : State) : State :=
  match mfind s.prs.barges n with
  | none => s
  | some b => s.setBarge n (requestTrap b 0 (origin % 4 + 4 * (reg % 16)))

/-- The counter block requests a sampling trap of barge `n` for counter `counter`, one of its slice's that a sampler wants sampled
(R116, R122, R477). -/
def samplingRequest (n counter : Nat) (s : State) : State :=
  match mfind s.prs.barges n with
  | none => s
  | some b =>
    let wants (e : Nat × Sampler) : Bool :=
      s.fld (Reg.PMC_SAMPLE_CFG e.1) F.PMC_SAMPLE_CFG.COUNTER == counter && e.2.want.isSome && !e.2.asked
    match s.pmc.samplers.find? wants with
    | none => s
    | some (i, a) =>
      if counter / 2 ^ 19 ≠ 5 ∨ counter % 16 ≠ n / 96 ∨ (mfind b.traps 3).isSome then s
      else
        ({ s with pmc := { s.pmc with samplers := mset {} s.pmc.samplers i { a with asked := true } } }).setBarge n (requestTrap b 3 counter)

/-- Barge `n`'s routine has run RUN_LIMIT cycles (R101). -/
def runLimitReached (n : Nat) (s : State) : State :=
  match mfind s.prs.barges n with
  | none => s
  | some b =>
    match mfind s.pkts b.pkt with
    | none => s
    | some p => if s.runLimit (n / 96) p ≤ b.cycles then s.endRoutine n b 2 else s

/-! ## Dispatch (R97 to R99) -/

/-- The head of slice `sl`'s dispatch queue is given to the next free barge in rotation (R97, R99), which begins at barge 0 (log
entry 16). -/
def bargeDispatch (sl : Nat) (s : State) : State :=
  match s.dispatchQ sl with
  | [] => s
  | id :: rest =>
    let last := mget 95 s.prs.lastBarge sl
    let free := ((List.range 96).map (fun k => (last + 1 + k) % 96)).find? (fun i => s.bargeFree (96 * sl + i))
    match free, mfind s.pkts id with
    | some i, some p =>
      let n := 96 * sl + i
      let s := s.noteStale [3, 5] id
      let bank := s.cfgAtFld Reg.PRS_CS_BANK F.PRS_CS_BANK.ACTIVE p.ver p.stamp
      let prof := s.cfgAt (Reg.PRS_PROFILE sl p.profile) p.ver p.stamp
      let entry := bits prof F.PRS_PROFILE.ENTRY.hi F.PRS_PROFILE.ENTRY.lo
      let b : Barge := { pkt := id, pc := entry, routine := s.entryOk entry, man := le 64 (p.port + 1024 * p.profile) }
      let s := s.onPkt id (fun p => { p with stage := .barge n, bank := bank })
      let s := s.setBarge n b
      let s := { s with prs := { s.prs with
        queues := mset [] s.prs.queues sl rest, lastBarge := mput s.prs.lastBarge sl i } }
      s.count (Ctr.PRS_DISPATCHED sl)
    | _, _ => s

/-! ## Profiles and banks -/

/-- The device computes W of a profile's shadow against the bank the profile will use once applied (R103). -/
def State.shadowW (s : State) (sl i : Nat) : State :=
  let w := s.profW (s.fld (Reg.PRS_PROFILE sl i) F.PRS_PROFILE.ENTRY) (s.fld Reg.PRS_CS_BANK F.PRS_CS_BANK.ACTIVE)
  s.setFld (Reg.PRS_PROFILE_STAT sl i) F.PRS_PROFILE_STAT.W_SHADOW w

/-- A write to a profile shadow (R103). -/
def prsProfileWrite (by_ : Agent) (sl i : Nat) (v : Word64) (s : State) : State :=
  s.writeThen by_ (Reg.PRS_PROFILE sl i) v.toNat (fun s => s.shadowW sl i)

/-- A write of PRS_CS_BANK.ACTIVE: ignored with PRS_UCODE_REJECT where it names a bank that is not valid (Table
PARSE-27). -/
def prsCsBankWrite (by_ : Agent) (v : Word64) (s : State) : State :=
  s.accept by_ Reg.PRS_CS_BANK (fun s =>
    let ok := if bitOf v.toNat 0 then s.flag Reg.PRS_CS_BANK F.PRS_CS_BANK.VALID1 else s.flag Reg.PRS_CS_BANK F.PRS_CS_BANK.VALID0
    let denied := !(s.isWarden by_) && v.toNat % 2 != s.fld Reg.PRS_CS_BANK F.PRS_CS_BANK.ACTIVE
    if denied || ok then s.writeFields by_ Reg.PRS_CS_BANK v.toNat else s.raise Src.PRS_UCODE_REJECT 0)

/-- W, BUDGET and OVER_BUDGET of every profile follow an apply (R103), and the previous bank stays in use while frames
need it (R128). -/
def State.afterPrs (old : Nat) (s : State) : State :=
  let bank := s.cfgFld Reg.PRS_CS_BANK F.PRS_CS_BANK.ACTIVE
  let s := if bank ≠ old then s.setFld Reg.PRS_CS_BANK F.PRS_CS_BANK.OLD_BUSY 1 else s
  let m := s.wTable (s.csWord bank)
  let wOf (e : Nat) : Nat :=
    if e = 0x20 then 8 else if e < 12288 then (s.exportAt e).getD 0xFFFF else (mfind m e).getD 0xFFFF
  (List.range 16).foldl (fun s sl => (List.range 16).foldl (fun s i =>
    let v := s.cfg (Reg.PRS_PROFILE sl i)
    let st := Reg.PRS_PROFILE_STAT sl i
    let w := wOf (bits v F.PRS_PROFILE.ENTRY.hi F.PRS_PROFILE.ENTRY.lo)
    let b := State.budget (State.profMinLen v)
    let over_ := decide (b < w)
    let s := ((s.setFld st F.PRS_PROFILE_STAT.W_IN_FORCE w).setFld st F.PRS_PROFILE_STAT.BUDGET b).setFld st
      F.PRS_PROFILE_STAT.OVER_BUDGET (b2n over_)
    if over_ then s.raise Src.PRS_OVER_BUDGET (i + 16 * sl) else s) s) s

/-- A write to PRS_APPLY: the new values are bound to the ingress stamp (R128, R132). -/
def prsApply (by_ : Agent) (v : Word64) (s : State) : State :=
  s.applyWrite by_ Reg.PRS_APPLY v.toNat 5 F.PRS_APPLY.APPLY (fun _ => none) (fun s => .stamp s.now)
    (State.afterPrs (s.cfgFld Reg.PRS_CS_BANK F.PRS_CS_BANK.ACTIVE))

/-- No frame uses the previous customer bank any longer (R128). -/
def oldBankDrained (s : State) : State :=
  let bank := s.cfgFld Reg.PRS_CS_BANK F.PRS_CS_BANK.ACTIVE
  let uses (p : Packet) : Bool :=
    match p.stage with
    | .receiving => s.cfgAtFld Reg.PRS_CS_BANK F.PRS_CS_BANK.ACTIVE p.ver p.stamp != bank
    | .dispatch => s.cfgAtFld Reg.PRS_CS_BANK F.PRS_CS_BANK.ACTIVE p.ver p.stamp != bank
    | .barge _ => p.bank != bank
    | _ => false
  if s.pkts.all (fun e => !(uses e.2)) then s.setFld Reg.PRS_CS_BANK F.PRS_CS_BANK.OLD_BUSY 0 else s

end Sys2Proof.Machine
end

