-- ==== Sys2Proof/Machine/Tables.lean ====
section
/-! DEFINITION. The write path of the lookup tables: the command rings, the claims, and the commands on exact-match
entries, ternary rows and the small tables (R146, R147, R151 to R162, R173). -/
namespace Sys2Proof.Machine
namespace State

/-! ## Commands (R159) -/

/-- How a command ends: its status (Table LOOK-8) with the bytes written back at 16–47, or not yet, a move having begun. -/
structure CmdEnd where
  status : Option Nat
  reply : Option Bytes := none
  st : State
  deriving DecidableEq, Repr

/-- A command that completes with a status and changes nothing else. -/
def cmdEnd (s : State) (status : Nat) : CmdEnd := { status := some status, st := s }

/-- TARGET of a command image (Table LOOK-6). -/
def cmdTarget (c : Bytes) : Nat := leAt c 4 4
/-- AUX of a command image. -/
def cmdAux (c : Bytes) : Nat := leAt c 8 4

/-- The host ring's size in commands. -/
def ringSize (s : State) : Nat := 2 ^ clamp 4 16 (s.fld Reg.FWD_RING_CTL F.FWD_RING_CTL.SIZE_LOG2)

/-- Commands pending in the host ring. -/
def ringPending (s : State) : Nat :=
  (s.fld Reg.FWD_RING_CTL F.FWD_RING_CTL.TAIL + 65536 - s.fld Reg.FWD_RING_CTL F.FWD_RING_CTL.HEAD) % 65536

/-- The move in progress is a ring's own, so that its next command waits. -/
def ringBusy (s : State) (keeper : Bool) : Bool :=
  match s.tab.move with
  | some m => m.keeper == keeper
  | none => false

/-- The host ring has a command to execute. -/
def hostReady (s : State) : Bool :=
  !(s.ringBusy false) && s.flag Reg.FWD_RING_CTL F.FWD_RING_CTL.EN && decide (0 < s.ringPending)

/-- A ring that may execute its next command (R160): the host ring enabled with a command pending, or the keeper ring, unless
it was served last and the host ring's turn has come; neither while its TC_INSERT_SHIFT is under way; the loader's only once
the blocks are loaded (Table BOOT-5, step 13). -/
def ringReady (s : State) (keeper : Bool) : Bool :=
  if keeper then
    !(s.ringBusy true) && !(s.tab.lastKeeper && s.hostReady)
      && (!s.boot.loading || s.fld Reg.CFG_LOAD_STAT F.CFG_LOAD_STAT.PHASE == 7)
  else s.hostReady

/-- The holder code of a ring's agent: the image loader is the agent of the keeper ring during a load (R161, R375). -/
def ringAgent (s : State) (keeper : Bool) : Nat := if !keeper then 1 else if s.boot.loading then 3 else 2

/-- A command completes (R159): the status and reply are written back, HEAD advances and the sources are raised. A
command of the load that does not complete with OK is noted for the loader (R375). -/
def finishCmd (s : State) (keeper : Bool) (cmd : Bytes) (status : Nat) (reply : Option Bytes) : State :=
  let ix := if keeper then s.tab.keeperHead % 65536 else s.fld Reg.FWD_RING_CTL F.FWD_RING_CTL.HEAD
  let s :=
    if keeper then
      let s := s.emit (.cmdReply ix status (reply.getD []))
      let s := { s with tab := { s.tab with keeperHead := s.tab.keeperHead + 1 } }
      if s.boot.loading && status != 1 && s.boot.cmdFail.isNone then
        { s with boot := { s.boot with cmdFail := some (s.boot.cmds.length - 1) } }
      else s
    else
      let addr := s.fld Reg.FWD_RING_BASE F.FWD_RING_BASE.ADDR * 128 + 128 * (ix % s.ringSize)
      let s := match reply with
        | some r => s.emit (.hostWrite 0 (addr + 16) r)
        | none => s
      (s.emit (.hostWrite 0 (addr + 1) (le 1 status))).setFld Reg.FWD_RING_CTL F.FWD_RING_CTL.HEAD (ix + 1)
  let p := ix + 65536 * status
  let s := if byteAt cmd 2 % 2 = 1 then s.raise Src.FWD_CMD_DONE p else s
  if 1 < status then s.raise Src.FWD_CMD_ERR p else s

/-- The ring's next command, whose 128-byte image is `cmd`, is executed where its opcode is `op` (R159, R160). -/
def runCmd (s : State) (keeper : Bool) (op : Nat → Bool) (cmd : Bytes) (body : State → CmdEnd) : State :=
  if !(s.ringReady keeper) || !(op (byteAt cmd 0)) then s
  else
    let s := { s with tab := { s.tab with lastKeeper := keeper } }
    let s := if s.boot.loading && keeper then { s with boot := { s.boot with cmds := s.boot.cmds ++ [cmd] } } else s
    let r := body s
    match r.status with
    | some st => r.st.finishCmd keeper cmd st r.reply
    | none => r.st

/-- FWD_CLAIM(r).HOLDER. -/
def holder (s : State) (r : Nat) : Nat := s.fld (Reg.FWD_CLAIM r) F.FWD_CLAIM.HOLDER

/-- A command on region `r` goes on only where its role has the CMD right and, unless it only reads, its ring's agent
holds the region (R161, R359). -/
def claimed (s : State) (keeper : Bool) (r : Nat) (reads : Bool) (f : State → CmdEnd) : CmdEnd :=
  if !keeper && !(s.permits (s.roleOf (.host 0)) 4 r 2) then (s.deny (s.roleOf (.host 0)) 4 r).cmdEnd 5
  else if reads || s.holder r == s.ringAgent keeper then f s
  else (s.raise Src.FWD_CLAIM_VIOL (r + 64 * s.ringAgent keeper)).cmdEnd 5

/-- The version of the open group, of the load's internal group while the image is loaded (R375); 0 for none. -/
def openVer (s : State) : Nat := if s.boot.loading then 1 else s.fld Reg.VER_STATE F.VER_STATE.OPEN

/-- A command enters the open group's digest (R176). -/
def noteCmd (s : State) (cmd : Bytes) : State :=
  let s := { s with ver := { s.ver with openCmds := s.ver.openCmds ++ [patch (sub cmd 0 128) 1 (le 1 1)] } }
  s.setFld Reg.VER_STATUS F.VER_STATUS.GROUP_CMDS s.ver.openCmds.length

/-- The digest's part of an accepted command: entered where it concerns versions. -/
def noteIf (s : State) (b : Bool) (cmd : Bytes) : State := if b then s.noteCmd cmd else s

/-- A VUNTIL that has retired (R173). -/
def retired (s : State) (v : Nat) : Bool := v != 0 && s.verDist v == 0

/-! ## Exact match: insert (R145, R146) -/

/-- The free place of a bucket. -/
def freeSlot (s : State) (b : Nat) : Option EmLoc := (bucketSlots b).find? (fun l => !(s.emAt l).valid)

/-- An insert of a key with a given range would conflict (R145). -/
def conflicts (s : State) (i : Nat) (e : EmEntry) : Bool :=
  match s.emHolding i e.key with
  | [] => false
  | [l] =>
    let x := s.emAt l
    e.immediate || x.immediate || s.rangesMeet x.vfrom x.vuntil e.vfrom e.vuntil
  | _ => true

/-- The bucket of a key other than `b`. -/
def otherBucket (s : State) (i b key : Nat) : Nat := let (b0, b1) := s.bucketsOf i key; if b0 = b then b1 else b0

/-- One bucket's slots are examined: a move that ends in a free slot, or the queue and count that go on (R146). -/
def examine (s : State) (i : Nat) (b : Nat) (path : List (EmLoc × Nat)) :
    List EmLoc → List (Nat × List (EmLoc × Nat)) → List Nat → Nat →
      Option (List (EmLoc × Nat)) × List (Nat × List (EmLoc × Nat)) × List Nat × Nat
  | [], q, seen, n => (none, q, seen, n)
  | l :: ls, q, seen, n =>
    if 128 ≤ n then (none, q, seen, n)
    else
      let a := s.otherBucket i b (s.emAt l).key
      let path' := path ++ [(l, a)]
      if (s.freeSlot a).isSome then (some path', q, seen, n + 1)
      else if seen.contains a then s.examine i b path ls q seen (n + 1)
      else s.examine i b path ls (q ++ [(a, path')]) (seen ++ [a]) (n + 1)

/-- The search for a path of displacements (R146): each move is an entry's place and the bucket it moves to. -/
def searchPath (s : State) (i : Nat) : Nat → List (Nat × List (EmLoc × Nat)) → List Nat → Nat → Option (List (EmLoc × Nat))
  | 0, _, _, _ => none
  | _, [], _, _ => none
  | f + 1, (b, path) :: q, seen, n =>
    if 128 ≤ n then none
    else
      match s.examine i b path (bucketSlots b) q seen n with
      | (some p, _, _, _) => some p
      | (none, q, seen, n) => s.searchPath i f q seen n

/-- A path's moves, last first: each entry is written to its other bucket before its old place is cleared. -/
def movePath (s : State) (i : Nat) : List (EmLoc × Nat) → State
  | [] => s
  | (l, a) :: rest =>
    match s.freeSlot a with
    | none => s.movePath i rest
    | some f =>
      let s := ((s.emPut f (s.emAt l)).emPut l {}).count (Ctr.XMT_MOVES i)
      s.movePath i rest

/-- LOAD_PM of a partition: bucket entries per 1,000 slots. -/
def loadPm (s : State) (i : Nat) : Nat :=
  let b := s.partBase i
  let n := s.partSize i
  1000 * (s.tab.em.filter (fun e => decide (4 * b ≤ e.1 ∧ e.1 < 4 * (b + n)) && e.2.valid)).length / (4 * n)

/-- XMT_LOAD_HIGH is raised when LOAD_PM passes LOAD_WARN_PM. -/
def loadCheck (s : State) (i before : Nat) : State :=
  let warn := s.cfgFld Reg.XMT_LEARN_CFG F.XMT_LEARN_CFG.LOAD_WARN_PM
  if before ≤ warn ∧ warn < s.loadPm i then s.raise Src.XMT_LOAD_HIGH i else s

/-- The insert of R146 into partition `i`: its status and the tables after it. -/
def emInsertAt (s : State) (i : Nat) (e : EmEntry) : Nat × State :=
  if s.conflicts i e then (2, s.count (Ctr.XMT_EXISTS i))
  else
    let before := s.loadPm i
    let (b0, b1) := s.bucketsOf i e.key
    let put (s : State) (l : EmLoc) : Nat × State := (1, ((s.emPut l e).count (Ctr.XMT_INSERT_OK i)).loadCheck i before)
    match s.freeSlot b0 with
    | some l => put s l
    | none =>
      match s.freeSlot b1 with
      | some l => put s l
      | none =>
        match s.searchPath i 128 [(b0, []), (b1, [])] [b0, b1] 0 with
        | some (m :: ms) => put (s.movePath i (m :: ms).reverse) m.1
        | _ =>
          match (stashSlots i).find? (fun l => !(s.emAt l).valid) with
          | some l => put s l
          | none => (3, (s.count (Ctr.XMT_INSERT_FAIL i)).raise Src.XMT_FULL i)

/-- A slot of bucket `b` that has become free takes the lowest-numbered stash entry that belongs there (R147). -/
def drainStash (s : State) (i : Nat) (l : EmLoc) : State :=
  match l with
  | .stash _ => s
  | .slot k =>
    let b := k / 4
    match (stashSlots i).find? (fun x =>
      (s.emAt x).valid && (let (b0, b1) := s.bucketsOf i (s.emAt x).key; b0 == b || b1 == b)) with
    | some x => ((s.emPut l (s.emAt x)).emPut x {}).count (Ctr.XMT_MOVES i)
    | none => s

/-- The place of the entry a delete, update or lookup command names: its key with its VFROM, 0 for an immediate one. -/
def emNamed (s : State) (i key vfrom : Nat) : Option EmLoc :=
  (s.emHolding i key).find? (fun l => let e := s.emAt l; if vfrom = 0 then e.immediate else !e.immediate && e.vfrom == vfrom)

/-- An entry's 32 bytes (Table LOOK-4). -/
def emBytes (e : EmEntry) : Bytes :=
  le 16 e.key ++ le 8 e.action ++ le 2 e.vfrom ++ le 2 e.vuntil ++ le 1 (b2n e.valid + 2 * b2n e.immediate + 4 * b2n e.hit)
    ++ zeros 3

/-! ## Ternary rows (R151, R152, R155) -/

/-- The group in force whose banks hold row `e`, where commands may name the row (R152). -/
def rowGroup (s : State) (e : Nat) : Option (Nat × Group) :=
  let bank := e / 2048
  ((List.range 16).map (fun g => (g, s.groupOf g))).find? (fun x =>
    let g := x.2
    g.en && (if g.wide then decide (g.first ≤ bank ∧ bank < g.first + g.count / 2) && (bank - g.first) % 2 == 0
      else decide (g.first ≤ bank ∧ bank < g.first + g.count)))

/-- The row after `e` in its group. -/
def nextRow (g : Group) (e : Nat) : Nat := if g.wide && e % 2048 == 2047 then e + 2049 else e + 1
/-- The row before `e` in its group. -/
def prevRow (g : Group) (e : Nat) : Nat := if g.wide && e % 2048 == 0 then e - 2049 else e - 1

/-- The physical rows a group's row `e` stands in: copy A and copy B, even and odd bank (R152). -/
def physRows (g : Group) (e : Nat) : List Nat :=
  if g.wide then [e, e + 2048, e + 1024 * g.count, e + 1024 * g.count + 2048] else [e]

/-- One row of one bank written, and its DRAM copy with it (R149, R157). -/
def putRow (s : State) (e : Nat) (r : TcRow) : State :=
  { s with tab := { s.tab with
    tc := mset {} s.tab.tc e r, tcDram := mset {} s.tab.tcDram e r, copyBad := s.tab.copyBad.filter (· != e),
    bad := s.tab.bad.filter (· != BadCell.mk 2 e) } }

/-- A group's row written: in a WIDE group the even bank holds the first 20 bytes with the action and versions, and the
odd bank the other 20, in both copies in the same step (R152). -/
def tcPut (s : State) (g : Group) (e : Nat) (r : TcRow) : State :=
  if g.wide then
    let hi : TcRow := { r with value := r.value / 2 ^ 160, care := r.care / 2 ^ 160 }
    let lo : TcRow := { value := r.value % 2 ^ 160, care := r.care % 2 ^ 160 }
    let b := e + 1024 * g.count
    (((s.putRow e hi).putRow (e + 2048) lo).putRow b hi).putRow (b + 2048) lo
  else s.putRow e r

/-- A group's row as a whole: value and care of its full width. -/
def tcGet (s : State) (g : Group) (e : Nat) : TcRow :=
  let r := mget {} s.tab.tc e
  let (v, c) := s.rowWord g e
  { r with value := v, care := c }

/-- The row a TC_WRITE or TC_INSERT_SHIFT command carries (Table LOOK-7). -/
def cmdRow (g : Group) (cmd : Bytes) : TcRow :=
  let n := keyBits g / 8
  let care := keyOf (sub cmd 56 n) n
  let flags := byteAt cmd 108
  { value := keyOf (sub cmd 16 n) n &&& care, care := care, action := leAt cmd 96 8, vfrom := leAt cmd 104 2,
    vuntil := leAt cmd 106 2, valid := bitOf flags 0, immediate := bitOf flags 1, hit := bitOf flags 2 }

/-- Whether the fields of a ternary command that are to be zero are. -/
def cmdRowOk (g : Group) (cmd : Bytes) : Bool :=
  (g.wide || (allZero (sub cmd 36 20) && allZero (sub cmd 76 20))) && byteAt cmd 108 / 8 == 0

/-- The group in force whose banks, of either copy, hold row `e`. -/
def bankGroup (s : State) (e : Nat) : Option (Nat × Group) :=
  ((List.range 16).map (fun g => (g, s.groupOf g))).find? (fun x =>
    x.2.en && decide (x.2.first ≤ e / 2048 ∧ e / 2048 < x.2.first + x.2.count))

/-- The row of copy A's even bank that the row `e` of a group's bank is a part of (R152). -/
def logicalRow (g : Group) (e : Nat) : Nat :=
  if g.wide then
    let b := (e / 2048 - g.first) % (g.count / 2)
    2048 * (g.first + b - b % 2) + e % 2048
  else e

/-- Whether row `e` lies in the range of the move in progress (R156). -/
def underMove (s : State) (e : Nat) : Bool :=
  match s.tab.move with
  | some m => decide (m.a ≤ e ∧ e ≤ nextRow (s.groupOf m.group) m.b)
  | none => false

/-- Whether a row may be written as a new one (R172, R173). -/
def newRowOk (s : State) (r : TcRow) : Bool :=
  if r.immediate then r.vfrom == 0 && r.vuntil == 0
  else (!r.valid && r.vfrom == 0 && r.vuntil == 0) || (s.openVer != 0 && r.vfrom == s.openVer && r.vuntil == 0)

/-- A row image that writes VFROM or VUNTIL (R176). -/
def setsVersion (r : TcRow) : Bool := !r.immediate && (r.valid || r.vfrom != 0 || r.vuntil != 0)

/-- Whether TC_WRITE may turn the old row into the new one (R173). -/
def rowChangeOk (s : State) (old new : TcRow) : Bool :=
  if !old.valid || old.immediate then s.newRowOk new
  else if s.openVer ≠ 0 ∧ old.vfrom = s.openVer then !new.immediate || (new.vfrom == 0 && new.vuntil == 0)
  else s.openVer != 0 && old.vuntil == 0 && new == { old with vuntil := s.openVer }

/-- TCM_MOVE_STAT follows the move. -/
def syncMove (s : State) : State :=
  let r := Reg.TCM_MOVE_STAT
  match s.tab.move with
  | none => s.setFld r F.TCM_MOVE_STAT.ACTIVE 0
  | some m =>
    ((s.setFld r F.TCM_MOVE_STAT.ACTIVE 1).setFld r F.TCM_MOVE_STAT.NEXT (m.next.getD m.a)).setFld r F.TCM_MOVE_STAT.LAST m.b

/-- A write to one of the small tables, with a claim on region `r` (R159, R160). -/
def smallWrite (s : State) (keeper : Bool) (op : Nat) (cmd : Bytes) (ok : Bool) (r : Nat) (f : State → State) : State :=
  s.runCmd keeper (· == op) cmd (fun s => if !ok then s.cmdEnd 6 else s.claimed keeper r false (fun s => (f s).cmdEnd 1))

end State

open State

/-! ## Exact-match commands -/

/-- EM_INSERT (R146, R173). -/
def emInsert (keeper : Bool) (cmd : Bytes) (s : State) : State :=
  s.runCmd keeper (· == 0x01) cmd (fun s =>
    let i := cmdTarget cmd
    if 16 ≤ i then s.cmdEnd 6 else
    s.claimed keeper i false (fun s =>
      let flags := byteAt cmd 44
      let e : EmEntry := { key := leAt cmd 16 16, action := leAt cmd 32 8, vfrom := leAt cmd 40 2, vuntil := leAt cmd 42 2,
                           valid := true, immediate := bitOf flags 1 }
      if !(s.partOn i) || flags % 2 == 0 || flags / 8 != 0 || !(allZero (sub cmd 45 3)) then s.cmdEnd 6
      else if (if e.immediate then e.vfrom != 0 || e.vuntil != 0 else s.openVer == 0 || e.vfrom != s.openVer || e.vuntil != 0) then
        s.cmdEnd 10
      else
        let (st, s) := s.emInsertAt i e
        (s.noteIf (st == 1 && !e.immediate) cmd).cmdEnd st))

/-- EM_DELETE (R147, R173). -/
def emDelete (keeper : Bool) (cmd : Bytes) (s : State) : State :=
  s.runCmd keeper (· == 0x02) cmd (fun s =>
    let i := cmdTarget cmd
    if 16 ≤ i then s.cmdEnd 6 else
    s.claimed keeper i false (fun s =>
      match s.emNamed i (leAt cmd 16 16) (leAt cmd 40 2) with
      | none => s.cmdEnd 4
      | some l =>
        let e := s.emAt l
        let mine := s.openVer != 0 && e.vfrom == s.openVer
        if !e.immediate && !mine && !(s.retired e.vuntil) then s.cmdEnd 10
        else (((s.emPut l {}).drainStash i l).noteIf (!e.immediate && mine) cmd).cmdEnd 1))

/-- EM_UPDATE (R173): ACTION and VUNTIL are replaced in place. -/
def emUpdate (keeper : Bool) (cmd : Bytes) (s : State) : State :=
  s.runCmd keeper (· == 0x03) cmd (fun s =>
    let i := cmdTarget cmd
    if 16 ≤ i then s.cmdEnd 6 else
    s.claimed keeper i false (fun s =>
      if !(s.partOn i) then s.cmdEnd 6 else
      let key := leAt cmd 16 16
      let action := leAt cmd 32 8
      let vuntil := leAt cmd 42 2
      match s.emNamed i key (leAt cmd 40 2) with
      | none => s.cmdEnd 4
      | some l =>
        let e := s.emAt l
        let new := { e with action := action, vuntil := vuntil }
        if e.immediate then (if vuntil = 0 then (s.emPut l new).cmdEnd 1 else s.cmdEnd 10)
        else if s.openVer ≠ 0 ∧ e.vfrom = s.openVer then
          if (s.emHolding i key).any (fun x => x != l && s.rangesMeet (s.emAt x).vfrom (s.emAt x).vuntil e.vfrom vuntil) then s.cmdEnd 2
          else ((s.emPut l new).noteCmd cmd).cmdEnd 1
        else if s.openVer ≠ 0 ∧ e.vuntil = 0 ∧ vuntil = s.openVer ∧ action = e.action then ((s.emPut l new).noteCmd cmd).cmdEnd 1
        else s.cmdEnd 10))

/-- EM_LOOKUP: the entry is returned without a claim (R161). -/
def emLookupCmd (keeper : Bool) (cmd : Bytes) (s : State) : State :=
  s.runCmd keeper (· == 0x04) cmd (fun s =>
    let i := cmdTarget cmd
    if 16 ≤ i then s.cmdEnd 6 else
    s.claimed keeper i true (fun s =>
      match s.emNamed i (leAt cmd 16 16) (leAt cmd 40 2) with
      | none => s.cmdEnd 4
      | some l => { status := some 1, reply := some (emBytes (s.emAt l)), st := s }))

/-! ## Ternary commands -/

/-- TC_WRITE (R151, R156, R173). -/
def tcWrite (keeper : Bool) (cmd : Bytes) (s : State) : State :=
  s.runCmd keeper (· == 0x10) cmd (fun s =>
    let e := cmdTarget cmd
    match s.rowGroup e with
    | none => s.cmdEnd 6
    | some (gi, g) =>
      s.claimed keeper (16 + gi) false (fun s =>
        if s.underMove e then s.cmdEnd 7
        else if !(cmdRowOk g cmd) then s.cmdEnd 6
        else
          let old := s.tcGet g e
          let new := cmdRow g cmd
          if !(s.rowChangeOk old new) then s.cmdEnd 10
          else ((s.tcPut g e new).noteIf (setsVersion new || (old.valid && !old.immediate)) cmd).cmdEnd 1))

/-- TC_INVALIDATE (R156, R173). -/
def tcInvalidate (keeper : Bool) (cmd : Bytes) (s : State) : State :=
  s.runCmd keeper (· == 0x11) cmd (fun s =>
    let e := cmdTarget cmd
    match s.rowGroup e with
    | none => s.cmdEnd 6
    | some (gi, g) =>
      s.claimed keeper (16 + gi) false (fun s =>
        let old := s.tcGet g e
        let mine := s.openVer != 0 && old.vfrom == s.openVer
        if s.underMove e then s.cmdEnd 7
        else if old.valid && !old.immediate && !mine && !(s.retired old.vuntil) then s.cmdEnd 10
        else ((s.tcPut g e {}).noteIf (old.valid && !old.immediate && mine) cmd).cmdEnd 1))

/-- TC_INSERT_SHIFT(a, b) (R155, R156, R173): the move begins, and the command enters the digest of the group open now (R176); it
completes with its last step. -/
def tcInsertShift (keeper : Bool) (cmd : Bytes) (s : State) : State :=
  s.runCmd keeper (· == 0x12) cmd (fun s =>
    let a := cmdTarget cmd
    let b := cmdAux cmd
    match s.rowGroup a with
    | none => s.cmdEnd 6
    | some (gi, g) =>
      s.claimed keeper (16 + gi) false (fun s =>
        let new := cmdRow g cmd
        if s.tab.move.isSome then s.cmdEnd 7
        else if b < a || decide (8192 ≤ b - a) || s.rowGroup b != some (gi, g) || !(cmdRowOk g cmd) then s.cmdEnd 6
        else if s.rowGroup (nextRow g b) != some (gi, g) || (s.tcGet g (nextRow g b)).valid then s.cmdEnd 9
        else if !(s.newRowOk new) then s.cmdEnd 10
        else
          let m : Move := ⟨gi, a, b, some b, cmd, keeper⟩
          let s := { s with tab := { s.tab with move := some m } }.syncMove
          { status := none, st := s.noteIf (setsVersion new) cmd }))

/-- A bank's move engine copies one row up, and after the last copy writes the new row (R155). -/
def tcMoveStep (s : State) : State :=
  match s.tab.move with
  | none => s
  | some m =>
    let g := s.groupOf m.group
    match m.next with
    | some r =>
      let s := s.tcPut g (nextRow g r) (s.tcGet g r)
      { s with tab := { s.tab with move := some { m with next := if r ≤ m.a then none else some (prevRow g r) } } }.syncMove
    | none =>
      let s := s.tcPut g m.a (cmdRow g m.cmd)
      ({ s with tab := { s.tab with move := none } }.syncMove).finishCmd m.keeper m.cmd 1 none

/-! ## Small tables -/

/-- NH_WRITE. -/
def nhWrite (keeper : Bool) (cmd : Bytes) (s : State) : State :=
  s.smallWrite keeper 0x20 cmd (decide (cmdTarget cmd < 262144)) 32 (fun s =>
    { s with tab := { s.tab with nh := mset 0 s.tab.nh (cmdTarget cmd) (leAt cmd 16 16) } })

/-- SEL_WRITE. -/
def selWrite (keeper : Bool) (cmd : Bytes) (s : State) : State :=
  s.smallWrite keeper 0x21 cmd (decide (cmdTarget cmd < 65536)) (16 + cmdTarget cmd / 4096) (fun s =>
    { s with tab := { s.tab with sel := mset 0 s.tab.sel (cmdTarget cmd) (leAt cmd 16 2) } })

/-- VLAN_WRITE. -/
def vlanWrite (keeper : Bool) (cmd : Bytes) (s : State) : State :=
  s.smallWrite keeper 0x22 cmd (decide (cmdTarget cmd < 4096)) 35 (fun s =>
    { s with tab := { s.tab with vlan := mset 0 s.tab.vlan (cmdTarget cmd) (leAt cmd 16 4 % 2 ^ 17) } })

/-- SMAC_WRITE. -/
def smacWrite (keeper : Bool) (cmd : Bytes) (s : State) : State :=
  s.smallWrite keeper 0x23 cmd (decide (cmdTarget cmd < 256)) 32 (fun s =>
    { s with tab := { s.tab with smac := mset 0 s.tab.smac (cmdTarget cmd) (leAt cmd 16 6) } })

/-- TUN_WRITE. -/
def tunWrite (keeper : Bool) (cmd : Bytes) (s : State) : State :=
  s.smallWrite keeper 0x24 cmd (decide (cmdTarget cmd < 256)) 32 (fun s =>
    { s with tab := { s.tab with tun := mset 0 s.tab.tun (cmdTarget cmd) (leAt cmd 16 64) } })

/-- The opcodes that are defined (Table LOOK-7 and the tables of the replication and meter commands). -/
def tableOps : List Nat :=
  [0x01, 0x02, 0x03, 0x04, 0x10, 0x11, 0x12, 0x20, 0x21, 0x22, 0x23, 0x24, 0x30, 0x31, 0x32, 0x40, 0x41, 0x42]

/-- A command with an undefined opcode completes with BAD_OP. -/
def tableCmdBadOp (keeper : Bool) (cmd : Bytes) (s : State) : State :=
  s.runCmd keeper (fun o => !(tableOps.contains o)) cmd (fun s => s.cmdEnd 8)

/-! ## The ring and the claims -/

/-- A write of FWD_RING_CTL (Table LOOK-12's ring registers): TAIL posts commands unless that overfills the ring, and
SIZE_LOG2 is written only while EN is 0. -/
def fwdRingTailWrite (by_ : Agent) (v : Word64) (s : State) : State :=
  s.accept by_ Reg.FWD_RING_CTL (fun s =>
    let c := Reg.FWD_RING_CTL
    let f (x : Fld) := bits v.toNat x.hi x.lo
    let s := if s.flag c F.FWD_RING_CTL.EN then s else s.setFld c F.FWD_RING_CTL.SIZE_LOG2 (f F.FWD_RING_CTL.SIZE_LOG2)
    let s := s.setFld c F.FWD_RING_CTL.EN (f F.FWD_RING_CTL.EN)
    if (f F.FWD_RING_CTL.TAIL + 65536 - s.fld c F.FWD_RING_CTL.HEAD) % 65536 ≤ s.ringSize - 1 then
      s.setFld c F.FWD_RING_CTL.TAIL (f F.FWD_RING_CTL.TAIL)
    else s)

/-- The holder code of an agent (R161). -/
def State.agentCode : Agent → Nat
  | .host _ => 1
  | .keeper _ => 2
  | .loader => 3

/-- A 64-bit Swap to FWD_CLAIM(r) (R161): its old holder is returned. Reserved regions return 0 and take nothing. -/
def claimSwap (by_ : Agent) (r : Nat) (v : Word64) (s : State) : State :=
  let reply (s : State) (old : Nat) : State := match by_ with
    | .host fn => s.emit (.swapCpl fn old)
    | _ => s
  let may := match by_ with
    | .host _ => s.ready 15 && s.permits (s.roleOf by_) 1 (Reg.FWD_CLAIM r / 8) 1
    | _ => true
  let old := if r < 36 then s.holder r else 0
  if !may then reply (s.accept by_ (Reg.FWD_CLAIM r) id) 0
  else
    let me := State.agentCode by_
    let s := s.touch by_
    let s :=
      if 36 ≤ r then s
      else if v.toNat = 0 then (if old = me then s.setFld (Reg.FWD_CLAIM r) F.FWD_CLAIM.HOLDER 0 else s)
      else if old = 0 then s.setFld (Reg.FWD_CLAIM r) F.FWD_CLAIM.HOLDER me else s
    reply s old

/-- A plain write to FWD_CLAIM(r): the holder's write of 0 releases the region, any other is ignored (R161). -/
def claimWrite (by_ : Agent) (r : Nat) (v : Word64) (s : State) : State :=
  s.accept by_ (Reg.FWD_CLAIM r) (fun s =>
    if r < 36 && bits v.toNat 1 0 == 0 && s.holder r == State.agentCode by_ then
      s.setFld (Reg.FWD_CLAIM r) F.FWD_CLAIM.HOLDER 0
    else s)

/-- A Warden write to FWD_CLAIM_FORCE (R162): a held region is released and the release witnessed. -/
def claimForce (by_ : Agent) (v : Word64) (s : State) : State :=
  s.accept by_ Reg.FWD_CLAIM_FORCE (fun s =>
    let r := bits v.toNat 5 0
    if !(s.isWarden by_) then s.writeFields by_ Reg.FWD_CLAIM_FORCE v.toNat
    else
      let h := s.holder r
      if 36 ≤ r ∨ h = 0 then s
      else
        let s := (s.setFld (Reg.FWD_CLAIM r) F.FWD_CLAIM.HOLDER 0).raise Src.FWD_CLAIM_FORCED (r + 64 * h)
        s.controlNow 0x09 (le 1 r ++ le 1 h))

/-! ## Repair (R149, R157) -/

/-- A bucket, stash entry, ternary action or next hop with a double-bit error has been restored from the DRAM copy; `index` of
memory 0 is the bucket (R149). -/
def tableRestoreDone (mem index : Nat) (s : State) : State :=
  let here (c : BadCell) : Bool := c.mem == mem && (if mem = 0 then c.index / 4 else c.index) == index
  let back (m : SMap TcRow) : SMap TcRow := if mem = 2 then mset {} m index (mget {} s.tab.tcDram index) else m
  if s.tab.bad.any here then
    let s := s.copyRead 2
    { s with tab := { s.tab with bad := s.tab.bad.filter (fun c => !(here c)), tc := back s.tab.tc } }
  else s

/-- TCM_SCRUB_CFG.PERIOD_MS in force, in its range (R157). -/
def State.scrubPeriod (s : State) : Stamp :=
  clamp 500 10000 (s.cfgFld Reg.TCM_SCRUB_CFG F.TCM_SCRUB_CFG.PERIOD_MS) * millisecond

/-- The scrubber compares ternary row `e`, its action and its metadata with their DRAM copy, a period after it last did (R157):
`result` 1 says that a bit of the row has been upset, 2 that the copy is uncorrectable. A row under move waits (R156). -/
def tcmScrub (e result : Nat) (s : State) : State :=
  let due := isDue (mfind s.tab.scrubbed e) s.scrubPeriod s.now
  let moving := match s.bankGroup e with
    | some (_, g) => s.underMove (logicalRow g e)
    | none => false
  if !due || moving then s else
  let s := s.copyRead 3
  let s := { s with tab := { s.tab with scrubbed := mput s.tab.scrubbed e s.now } }
  let st := Reg.TCM_SCRUB_STAT
  let copy := mget {} s.tab.tcDram e
  let s :=
    if result = 2 ∨ s.tab.copyBad.contains e then
      let s := { s with tab := { s.tab with copyBad := s.tab.copyBad.filter (· != e) ++ [e] } }
      ((s.setFld st F.TCM_SCRUB_STAT.UNCORR 1).setFld st F.TCM_SCRUB_STAT.UNCORR_ROW e).raise Src.TCM_SCRUB_UNCORR e
    else if result = 1 ∨ mget {} s.tab.tc e ≠ copy then
      let s := { s with tab := { s.tab with tc := mset {} s.tab.tc e copy } }
      let s := match s.bankGroup e with
        | some x => s.count (Ctr.TCM_SCRUB_FIX x.1)
        | none => s
      s.raise Src.TCM_SCRUB_FIX e
    else s
  if e = 524287 then s.setFld st F.TCM_SCRUB_STAT.SWEEPS (s.fld st F.TCM_SCRUB_STAT.SWEEPS + 1) else s

/-! ## APPLY checks -/

/-- The lowest partition for which the shadows of XMT would be rejected (R143). -/
def State.xmtCheck (s : State) : Option (Nat × Nat) :=
  let f (i : Nat) (x : Fld) := s.fld (Reg.XMT_PART i) x
  let base (i : Nat) := f i F.XMT_PART.BASE
  let log (i : Nat) := f i F.XMT_PART.SIZE_LOG2
  let en (i : Nat) := f i F.XMT_PART.EN == 1
  let holds (i : Nat) : Bool :=
    let b := s.partBase i
    let n := s.partSize i
    s.cfgFld (Reg.XMT_PART i) F.XMT_PART.SIZE_LOG2 != 0 && (s.tab.em.any (fun e => decide (4 * b ≤ e.1 ∧ e.1 < 4 * (b + n)) && e.2.valid)
      || s.tab.stash.any (fun e => e.1 / 256 == i && e.2.valid))
  let bad (i : Nat) : Bool :=
    (en i && !(decide (10 ≤ log i ∧ log i ≤ 19)))
    || decide (524288 < base i + 2 ^ log i)
    || (List.range 16).any (fun j => j != i && en i && en j && decide (base i < base j + 2 ^ log j ∧ base j < base i + 2 ^ log i))
    || (holds i && (base i != s.partBase i || 2 ^ log i != s.partSize i))
  ((List.range 16).find? bad).map (fun i => (Src.XMT_CFG_REJECT, i))

/-- A write to XMT_APPLY (R143, R165). -/
def xmtApply (by_ : Agent) (v : Word64) (s : State) : State :=
  s.applyWrite by_ Reg.XMT_APPLY v.toNat 6 F.XMT_APPLY.APPLY State.xmtCheck (fun _ => .pipeline) id

/-- The lowest group for which the shadows of TCM would be rejected (R152, R153). -/
def State.tcmCheck (s : State) : Option (Nat × Nat) :=
  let g (i : Nat) : Group := groupFrom (s.rd (Reg.TCM_GROUP i))
  let bad (i : Nat) : Bool :=
    let x := g i
    x.en && (x.count == 0 || decide (256 < x.first + x.count) || (x.wide && x.count % 4 != 0)
      || (x.selBits == 0 && decide ((if x.wide then 32 else 16) < x.count)) || decide (12 < x.selBits)
      || (List.range 16).any (fun j => j != i && (g j).en &&
        decide (x.first < (g j).first + (g j).count ∧ (g j).first < x.first + x.count)))
  ((List.range 16).find? bad).map (fun i => (Src.TCM_CFG_REJECT, i))

/-- A write to TCM_APPLY (R153, R165). -/
def tcmApply (by_ : Agent) (v : Word64) (s : State) : State :=
  s.applyWrite by_ Reg.TCM_APPLY v.toNat 7 F.TCM_APPLY.APPLY State.tcmCheck (fun _ => .pipeline) id

/-- A write to FWD_APPLY (R165). -/
def fwdApply (by_ : Agent) (v : Word64) (s : State) : State :=
  s.applyWrite by_ Reg.FWD_APPLY v.toNat 8 F.FWD_APPLY.APPLY (fun _ => none) (fun _ => .pipeline) id

end Sys2Proof.Machine
end

