-- ==== Sys2Proof/Machine/Meters.lean ====
section
/-! DEFINITION. Meters (R220 to R227). -/
namespace Sys2Proof.Machine
namespace State

/-- A meter's colour codes (R222). -/
def green : Nat := 0
/-- Yellow. -/
def yellow : Nat := 1
/-- Red. -/
def red : Nat := 2

/-- A meter profile's words 0 and 1. -/
def mtrProfile (s : State) (i : Nat) : Nat × Nat := mget (0, 0) s.mtr.profiles i
/-- CIR_INC. -/
def mCir (p : Nat × Nat) : Nat := bits p.1 38 0
/-- CBS in 2^-32 units. -/
def mCbs (p : Nat × Nat) : Nat := bits p.1 51 40 * 2 ^ 32
/-- MODE; 3 is treated as 0. -/
def mMode (p : Nat × Nat) : Nat := if bits p.1 53 52 = 3 then 0 else bits p.1 53 52
/-- PIR_INC. -/
def mPir (p : Nat × Nat) : Nat := bits p.2 38 0
/-- PBS, or EBS in MODE 2, in 2^-32 units. -/
def mPbs (p : Nat × Nat) : Nat := bits p.2 51 40 * 2 ^ 32

/-- Meter time of an instant (R222). -/
def meterTime (t : Stamp) : Nat := (t / 65536) % 2 ^ 28

/-- The refill of R222. -/
def refill (p : Nat × Nat) (m : Meter) (t : Nat) : Meter :=
  let d := (t + 2 ^ 28 - m.last) % 2 ^ 28
  if 2 ^ 27 ≤ d then m
  else
    let m := { m with last := t }
    let a := mCir p * d
    if mMode p = 1 then { m with tc := min (m.tc + a) (mCbs p), tp := min (m.tp + mPir p * d) (mPbs p) }
    else if mMode p = 2 then
      let x : Int := min (a : Int) ((mCbs p : Int) - (m.tc : Int))
      { m with tc := ((m.tc : Int) + x).toNat, tp := (min ((m.tp : Int) + (a : Int) - x) (mPbs p : Int)).toNat }
    else m

/-- The charge of R222: the colour and the meter after it. -/
def charge (p : Nat × Nat) (m : Meter) (t n cIn : Nat) : Nat × Meter :=
  let m := refill p m t
  let b := n * 2 ^ 32
  if mMode p = 1 then
    if cIn = red ∨ m.tp < b then (red, m)
    else if cIn = yellow ∨ m.tc < b then (yellow, { m with tp := m.tp - b })
    else (green, { m with tp := m.tp - b, tc := m.tc - b })
  else if mMode p = 2 then
    if cIn = green ∧ b ≤ m.tc then (green, { m with tc := m.tc - b })
    else if cIn ≠ red ∧ b ≤ m.tp then (yellow, { m with tp := m.tp - b })
    else (red, m)
  else (green, m)

/-- Meter `i`: one that is not listed holds what the sweeps have left in every such meter. -/
def meterAt (s : State) (i : Nat) : Meter := mget s.mtr.base s.mtr.meters i

/-- Meter `i` replaced. -/
def setMeter (s : State) (i : Nat) (m : Meter) : State :=
  { s with mtr := { s.mtr with meters := mset s.mtr.base s.mtr.meters i m } }

/-- Meter `i` charges `n` units at meter time `t` with input colour `cIn`; with a double-bit error in its state the packet
is green and the state is written full (R227). The counters are kept per profile (Table SCHED-24). -/
def chargeMeter (s : State) (i t n cIn : Nat) (ecc : Bool) : Nat × State :=
  let m := s.meterAt i
  let p := s.mtrProfile m.profile
  let (c, m', s) :=
    if ecc then (green, { m with tc := mCbs p, tp := mPbs p, last := t }, s.raise Src.MTR_ECC i)
    else let (c, m') := charge p m t n cIn; (c, m', s)
  let s := s.setMeter i m'
  let s := s.count (if c = green then Ctr.MTR_GREEN m.profile else if c = yellow then Ctr.MTR_YELLOW m.profile else Ctr.MTR_RED m.profile)
  (c, s.count (Ctr.MTR_UNITS m.profile) n)

/-- The input colour of a packet (R222). -/
def inColour (s : State) (p : Packet) (prof : Nat × Nat) : Nat :=
  let c := Reg.MTR_CFG
  if bitOf prof.1 54 && s.cfgAtFld c F.MTR_CFG.PRECOLOUR_EN p.ver p.stamp == 1 then
    let o := s.cfgAtFld c F.MTR_CFG.PRECOLOUR_OFF p.ver p.stamp
    let v := manGet p.manifest (o + 1) o
    if v = 3 then green else v
  else green

/-- Packet `p` meets its R138 meter, unless its decision is a drop or it was metered where it entered the system, and takes its
colour; a red packet is dropped where its profile says so (R220, R224). `ecc` are the meters with a double-bit error. -/
def chargePacket (s : State) (p : Packet) (ecc : List Nat) : Packet × State :=
  match p.meter with
  | none => (p, s)
  | some i =>
    if p.kind == 0 || p.tow then (p, s) else
    let prof := s.mtrProfile (s.meterAt i).profile
    let (c, s) := s.chargeMeter i (meterTime p.stamp) (byteAt p.manifest 7) (s.inColour p prof) (ecc.contains i)
    let p := { p with colour := c }
    let p := if c = yellow ∧ bitOf prof.1 56 then { p with cls := bits prof.1 59 57 } else p
    if c = red ∧ !(bitOf prof.1 55) then ({ p with dropped := true }, s.count Ctr.MTR_RED_DROP) else (p, s)

/-- Each processor copy meets its reason's meter, where it has one, and is sent where its reason says; a red copy is discarded
(R141, R220). -/
def chargeCopies (s : State) (p : Packet) (ecc : List Nat) : List CpuCopy → List CpuCopy × State
  | [] => ([], s)
  | c :: cs =>
    let r := Reg.FWD_REASON c.reason
    let i := s.fld r F.FWD_REASON.METER
    let (col, s) := if s.flag r F.FWD_REASON.METER_EN then
        s.chargeMeter i (meterTime p.stamp) 1 (s.inColour p (s.mtrProfile (s.meterAt i).profile)) (ecc.contains i)
      else (green, s)
    if col = red then (s.count (Ctr.FWD_CPU_RED c.reason)).chargeCopies p ecc cs
    else
      let (l, s) := s.chargeCopies p ecc cs
      ({ c with keeper := c.keeper || !(s.flag r F.FWD_REASON.DEST) } :: l, s)

/-- A meter with its buckets clipped to the bursts of its profile. -/
def clipMeter (p : Nat × Nat) (m : Meter) : Meter := { m with tc := min m.tc (mCbs p), tp := min m.tp (mPbs p) }

/-- Table SCHED-2: a meter's 16 bytes. -/
def meterBytes (m : Meter) : Bytes :=
  le 8 (m.tc + (m.last % 2 ^ 20) * 2 ^ 44) ++ le 8 (m.tp + (m.last / 2 ^ 20) * 2 ^ 44 + m.profile * 2 ^ 52)

/-- Whether a profile may be written (R221). -/
def profileOk (cmd : Bytes) : Bool :=
  let p := (leAt cmd 16 8, leAt cmd 24 8)
  let top := 0x4C_CCCC_CCCC
  let mode := bits p.1 53 52
  decide (mCir p ≤ top ∧ mPir p ≤ top) && !(mode == 1 && (decide (mPir p < mCir p) || mCbs p == 0 || mPbs p == 0))
    && !(mode == 2 && mCbs p == 0 && mPbs p == 0)
    && bitOf p.1 39 == false && bits p.1 63 60 == 0 && bitOf p.2 39 == false && bits p.2 63 52 == 0 && allZero (sub cmd 32 16)

end State

open State

/-- The next packet of the meter stage is charged to its meter and coloured, and then each of its processor copies (R220, R222,
R224, R225); `ecc` are the meters whose state has a double-bit error (R227). -/
def meterCharge (id : Nat) (ecc : List Nat) (s : State) : State :=
  match mfind s.pkts id with
  | none => s
  | some p =>
    if p.stage ≠ .meter || !(s.inTurn id []) then s else
    let s := s.noteStale [10] id
    let stale := ((mfind s.pkts id).map (·.stale)).getD []
    let (p, s) := s.chargePacket p ecc
    let (cpu, s) := s.chargeCopies p ecc p.cpu
    s.setPkt id { p with stage := .accept, cpu := cpu, stale := stale }

/-- The sweep of all meters at this instant (R223). -/
def meterSweep (s : State) : State :=
  let t := meterTime s.now
  let one (m : Meter) : Meter := refill (s.mtrProfile m.profile) m t
  let base := one s.mtr.base
  let ms := s.mtr.meters.foldl (fun m e => mset base m e.1 (one e.2)) []
  let s := { s with mtr := { s.mtr with base := base, meters := ms } }
  s.setFld Reg.MTR_SWEEP_STAT F.MTR_SWEEP_STAT.SWEEPS (s.fld Reg.MTR_SWEEP_STAT F.MTR_SWEEP_STAT.SWEEPS + 1)

/-- A write to MTR_APPLY: PRECOLOUR_OFF 511 is rejected (R244). -/
def mtrApply (by_ : Agent) (v : Word64) (s : State) : State :=
  s.applyWrite by_ Reg.MTR_APPLY v.toNat 10 F.MTR_APPLY.APPLY
    (fun s => if s.fld Reg.MTR_CFG F.MTR_CFG.PRECOLOUR_OFF = 511 then some (Src.MTR_CFG_REJECT, 0) else none)
    (fun _ => .pipeline) id

/-- MTR_PROF_WRITE (R221, R226). -/
def mtrProfWrite (keeper : Bool) (cmd : Bytes) (s : State) : State :=
  s.smallWrite keeper 0x40 cmd (decide (cmdTarget cmd < 4096) && profileOk cmd) 34 (fun s =>
    { s with mtr := { s.mtr with profiles := mset (0, 0) s.mtr.profiles (cmdTarget cmd) (leAt cmd 16 8, leAt cmd 24 8) } })

/-- MTR_SET (R226). -/
def mtrSet (keeper : Bool) (cmd : Bytes) (s : State) : State :=
  s.smallWrite keeper 0x41 cmd (decide (cmdTarget cmd < 1048576)) 34 (fun s =>
    let i := cmdTarget cmd
    let n := leAt cmd 16 2 % 4096
    let p := s.mtrProfile n
    let m := s.meterAt i
    if bitOf (byteAt cmd 18) 0 then s.setMeter i ⟨mCbs p, mPbs p, meterTime s.now, n⟩
    else s.setMeter i { clipMeter p m with profile := n })

/-- MTR_READ (R161, R226). -/
def mtrRead (keeper : Bool) (cmd : Bytes) (s : State) : State :=
  s.runCmd keeper (· == 0x42) cmd (fun s =>
    let i := cmdTarget cmd
    if 1048576 ≤ i then s.cmdEnd 6 else
    s.claimed keeper 34 true (fun s => { status := some 1, reply := some (meterBytes (s.meterAt i)), st := s }))

end Sys2Proof.Machine
end

