-- ==== Sys2Proof/Machine/Microcode.lean ====
section
/-! DEFINITION. Customer microcode: the control store's check bits, the checks of a package and its load (R126,
R129, R130). -/
namespace Sys2Proof.Machine
namespace State

/-! ## Check bits (R126) -/

/-- The codeword positions of the 192 word bits: those of 1–200 that are not powers of two. -/
def eccPositions : List Nat := (List.range 201).filter (fun i => i != 0 && !([1, 2, 4, 8, 16, 32, 64, 128].contains i))

/-- The nine check bits of a control-store word (R126). -/
def csCheck (w : Microword) : Nat :=
  let ps := (eccPositions.zipIdx).filter (fun e => bitOf w.toNat e.2)
  let low := (List.range 8).foldl (fun a i => a + (ps.filter (fun e => bitOf e.1 i)).length % 2 * 2 ^ i) 0
  low + 256 * ((popCount 192 w.toNat + popCount 8 low) % 2)

/-! ## The checks on each word (R130) -/

/-- The successors of a word at address `a` that R130 looks at: those the word can take. -/
def allSuccs (w : Microword) : List Nat :=
  let o := Word.op w
  if o = 0x18 ∨ o = 0x19 ∨ o = 0x14 then []
  else if o = 0x13 then [Word.next w]
  else if o = 0x17 then (List.range 16).map (fun i => Word.alt w + i)
  else if o = 0x16 then [Word.next w, Word.alt w]
  else
    let c := Word.cond w
    if c = 1 then [Word.alt w] else if c = 0 ∨ 10 ≤ c then [Word.next w] else [Word.next w, Word.alt w]

/-- Whether address `t` lies in the customer region. -/
def inRegion (t : Nat) : Bool := decide (12288 ≤ t ∧ t < 16384)

/-- A DJNZ at `a` that branches back to `t`: `t` lies after its LOOP word with no other LOOP between them (R130). -/
def djnzBack (word : Nat → Microword) (t a : Nat) : Bool :=
  let loops := (List.range (t - 12288)).any (fun j => Word.op (word (12288 + j)) == 0x15)
  let inner := (List.range (a - t)).any (fun j => Word.op (word (t + j)) == 0x15)
  loops && !inner

/-- Whether the word at `a` meets the checks of R130 that concern it alone. -/
def wordOk (s : State) (word : Nat → Microword) (a : Nat) : Bool :=
  let w := word a
  let o := Word.op w
  let back (t : Nat) : Bool := decide (t ≤ a)
  decide (o < 0x1B) && o != 0x1A && Word.at_ w 102 96 == 0 && decide (Word.minCycles o ≤ Word.cycles w)
    && (!(Word.control o) || Word.cond w == 0)
    && (allSuccs w).all inRegion
    && (o != 0x13 || (inRegion (Word.alt w) && !(back (Word.alt w))) || (s.exportAt (Word.alt w)).isSome)
    && decide (Word.moff w + Word.msize w ≤ 64)
    && (o != 0x15 || (Word.bsel w == 1 && decide (1 ≤ (Word.imm w).toNat ∧ (Word.imm w).toNat ≤ 8)))
    && (if o = 0x16 then !(back (Word.next w)) && (!(back (Word.alt w)) || djnzBack word (Word.alt w) a)
        else (allSuccs w).all (fun t => !(back t)))

/-- The deepest chain of calls from each customer word, found from the highest address down. -/
def depthTable (word : Nat → Microword) : SMap Nat :=
  (List.range 4096).foldl (fun m k =>
    let a := 16383 - k
    let w := word a
    let onward := ((allSuccs w).map (fun t => if a < t then mget 0 m t else 0)).foldl max 0
    let call := if Word.op w = 0x13 then 1 + (if a < Word.alt w then mget 0 m (Word.alt w) else 0) else 0
    mput m a (max onward call)) []

/-- The first word of a package that fails the checks of R130, as its region offset. -/
def firstBad (s : State) (m : SMap Microword) (first count : Nat) : Option Nat :=
  let word (a : Nat) : Microword := if a < 12288 then Word.filler else mget Word.filler m (a - 12288)
  let w := s.wTable word
  let d := depthTable word
  ((List.range count).map (first + ·)).find? (fun o =>
    let a := 12288 + o
    !(s.wordOk word a) || (mfind w a).isNone || decide (4 < mget 0 d a))

/-! ## A load -/

/-- The bank a load writes: neither in force nor named by ACTIVE's shadow, and with no frame using it (R130). -/
def loadTarget (s : State) : Option Nat :=
  let a := s.cfgFld Reg.PRS_CS_BANK F.PRS_CS_BANK.ACTIVE
  let b := s.fld Reg.PRS_CS_BANK F.PRS_CS_BANK.ACTIVE
  if a = b ∧ s.fld Reg.PRS_CS_BANK F.PRS_CS_BANK.OLD_BUSY = 0 then some (1 - a) else none

/-- PRS_CS_LOAD_CTL.STATUS (Table PARSE-15). -/
def loadStatus (s : State) (v : Nat) : State := s.setFld Reg.PRS_CS_LOAD_CTL F.PRS_CS_LOAD_CTL.STATUS v

/-- A load fails: the target bank stays as it was (R130). -/
def loadFail (s : State) (status failWord : Nat) : State :=
  let s := { s with prs := { s.prs with package := none, fetched := false } }
  let s := (s.loadStatus status).setFld Reg.PRS_CS_LOAD_CTL F.PRS_CS_LOAD_CTL.FAIL_WORD failWord
  (s.raise Src.PRS_LOAD_DONE (status + 16 * failWord)).raise Src.PRS_UCODE_REJECT status

/-- The words of a package, by region offset. -/
def packageWords (pkg : Bytes) (first count : Nat) : SMap Microword :=
  (List.range count).map (fun i => (first + i, BitVec.ofNat 192 (leAt pkg (192 + 24 * i) 24)))

end State

open State

/-- A Warden write of PRS_CS_LOAD_CTL.GO (R130): ignored while a load is in progress. -/
def ucodeLoadGo (by_ : Agent) (v : Word64) (s : State) : State :=
  s.accept by_ Reg.PRS_CS_LOAD_CTL (fun s =>
    let go := s.acts by_ Reg.PRS_CS_LOAD_CTL F.PRS_CS_LOAD_CTL.GO v.toNat
    let s := s.writeFields by_ Reg.PRS_CS_LOAD_CTL v.toNat
    if !go || s.fld Reg.PRS_CS_LOAD_CTL F.PRS_CS_LOAD_CTL.STATUS == 1 then s
    else
      match s.loadTarget with
      | none => s.loadFail 6 0xFFFF
      | some _ =>
        let s := { s with prs := { s.prs with package := none, fetched := false } }
        (s.loadStatus 1).setFld Reg.PRS_CS_LOAD_CTL F.PRS_CS_LOAD_CTL.FAIL_WORD 0xFFFF)

/-- The fetch over the host link ends: `ok` says without error, `package` is what was read (R130). -/
def ucodePackageFetched (ok : Bool) (package : Bytes) (s : State) : State :=
  if s.fld Reg.PRS_CS_LOAD_CTL F.PRS_CS_LOAD_CTL.STATUS ≠ 1 then s
  else if ok then { s with prs := { s.prs with package := some package, fetched := true } }.secTake
  else s.loadFail 8 0xFFFF

/-- A package is verified, checked and written to bank `target` (R129, R130); `sigOk` is the outcome of the check of its
signature. -/
def State.installPackage (s : State) (target : Option Nat) (sigOk : Bool) (pkg : Bytes) : State :=
  let count := leAt pkg 12 2
  let first := leAt pkg 14 2
  let header := sub pkg 0 4 == ascii "DLUC" && leAt pkg 4 2 == 1 && leAt pkg 6 2 == 0 && allZero (sub pkg 20 12)
    && decide (1 ≤ count ∧ count ≤ 4096 ∧ first + count ≤ 4096)
  let words := sub pkg 192 (24 * count)
  let signed := !s.sec.ownerKey.isEmpty && sub pkg 80 16 == sub s.sec.ownerId 0 16 && sub pkg 32 48 == sha384 words && sigOk
  if !header then s.loadFail 4 0xFFFF
  else
    let s := (s.count Ctr.SEC_VERIFICATIONS).emit (.verify s.sec.ownerKey (sha384 (sub pkg 0 96)) (sub pkg 96 96) sigOk)
    if !signed then s.loadFail 3 0xFFFF
    else if s.fld Reg.PRS_UCODE_VENDOR_VER F.PRS_UCODE_VENDOR_VER.VER < leAt pkg 16 4 then s.loadFail 7 0xFFFF
    else
      let m := packageWords pkg first count
      match s.firstBad m first count with
      | some o => s.loadFail 5 o
      | none =>
        match target with
        | none => s.loadFail 6 0xFFFF
        | some b =>
          let ver := leAt pkg 8 4
          let s := { s with prs := { s.prs with package := none, fetched := false } }
          let s := s.setBank b m
          let s := { s with prs := if b = 0 then { s.prs with digest0 := sub pkg 32 48 } else { s.prs with digest1 := sub pkg 32 48 } }
          let s := if b = 0 then
              (s.setFld Reg.PRS_CS_BANK F.PRS_CS_BANK.VALID0 1).setFld Reg.PRS_UCODE_CUSTOMER_VER F.PRS_UCODE_CUSTOMER_VER.BANK0_VER ver
            else
              (s.setFld Reg.PRS_CS_BANK F.PRS_CS_BANK.VALID1 1).setFld Reg.PRS_UCODE_CUSTOMER_VER F.PRS_UCODE_CUSTOMER_VER.BANK1_VER ver
          let s := (s.loadStatus 2).raise Src.PRS_LOAD_DONE (2 + 16 * 0xFFFF)
          s.controlNow 0x08 (le 4 b ++ le 4 ver ++ sub pkg 32 8)

/-- Verification completes: the package's words are checked and written to the target bank (R129, R130). It waits for the
security module (R347, R348), whose check of the signature `sigOk` gives. -/
def ucodeLoadComplete (sigOk : Bool) (s : State) : State :=
  match s.prs.package with
  | none => s
  | some pkg => if s.secServing == some 3 then (s.installPackage s.loadTarget sigOk pkg).secTake else s

/-- The background read meets word `w` of slice `sl`, of customer bank `bank` or, with 2, of the vendor region, with
`errors` bits in error: 1 is corrected and counted, 2 leaves the word bad until it is restored (R126). -/
def csBackgroundCheck (sl bank w errors : Nat) (s : State) : State :=
  if errors = 1 then s.count (Ctr.PRS_CS_CORRECTED sl)
  else if errors = 2 then
    let s := if s.prs.ecc.contains (sl, bank, w) then s else { s with prs := { s.prs with ecc := s.prs.ecc ++ [(sl, bank, w)] } }
    s.raise Src.PRS_CS_ECC (w + 2 ^ 14 * sl)
  else s

/-- A word with a double-bit error has been restored from the DRAM copy (R126). -/
def csRestoreDone (sl bank w : Nat) (s : State) : State :=
  let s := if s.prs.ecc.contains (sl, bank, w) then s.copyRead 2 else s
  { s with prs := { s.prs with ecc := s.prs.ecc.filter (· != (sl, bank, w)) } }

end Sys2Proof.Machine
end

