-- ==== Sys2Proof/Machine/Rewrite.lean ====
section
/-! DEFINITION. What a frame's bytes become on their way out: the next-hop rewrite (R140), the stamp (R272, R273), the
mirror's truncation (R141) and the frame check sequence. -/
namespace Sys2Proof.Machine
namespace State

/-! ## The next-hop rewrite (R140, Table LOOK-3) -/

/-- An IPv4 header's checksum, its own field taken as zero. -/
def ipSum (h : Bytes) : Nat :=
  65535 - onesSum ((List.range (h.length / 2)).map (fun i => if i = 5 then 0 else beNat (sub h (2 * i) 2)))

/-- The IPv4 header that begins at byte `l`, with its checksum made right. -/
def fixSum (bs : Bytes) (l : Nat) : Bytes :=
  patch bs (l + 10) (be 2 (ipSum (sub bs l (4 * (byteAt bs l % 16)))))

/-- The VLAN operation of a next hop's word 0 on a frame without its frame check sequence, for a packet of class `cls`. -/
def rewriteVlan (w0 cls : Nat) (bs : Bytes) : Bytes :=
  let op := bits w0 21 20
  let vid := bits w0 33 22
  if op = 1 then (if tagAt bs 12 then patch bs 14 (be 2 ((beNat (sub bs 14 2) / 4096) * 4096 + vid)) else bs)
  else if op = 2 then bs.take 12 ++ be 2 0x8100 ++ be 2 (cls * 8192 + vid) ++ bs.drop 12
  else if op = 3 then
    (if tagAt bs 12 then
      let r := bs.take 12 ++ bs.drop 16
      r ++ zeros (60 - r.length)
    else bs)
  else bs

/-- The checksum of the IPv4 header at byte `l` after its word `i` changed from `m` to its present value, updated
incrementally. -/
def incrSum (bs : Bytes) (l i m : Nat) : Bytes :=
  let h := beNat (sub bs (l + 10) 2)
  patch bs (l + 10) (be 2 (65535 - onesSum [65535 - h, 65535 - m, beNat (sub bs (l + 2 * i) 2)]))

/-- TTL_DEC. -/
def rewriteTtl (w0 : Nat) (bs : Bytes) : Bytes :=
  if bitOf w0 34 then
    match ttlOf bs with
    | some (i, t) =>
      let r := patch bs i (le 1 (t - 1))
      if beNat (sub bs (l3At bs - 2) 2) = 0x0800 then incrSum r (l3At bs) 4 (beNat (sub bs (l3At bs + 8) 2)) else r
    | none => bs
  else bs

/-- The length of the IP packet that begins at byte `l`, by its own header. -/
def ipLen (bs : Bytes) (l : Nat) : Nat :=
  if byteAt bs l / 16 = 4 then beNat (sub bs (l + 2) 2) else 40 + beNat (sub bs (l + 4) 2)

/-- Removing an outer IP-in-IP header: the bytes it has, where the frame carries one. -/
def outerLen (bs : Bytes) : Nat :=
  let l := l3At bs
  let t := beNat (sub bs (l - 2) 2)
  if t = 0x0800 then
    let p := byteAt bs (l + 9)
    if p = 4 ∨ p = 41 then 4 * (byteAt bs l % 16) else 0
  else if t = 0x86DD then
    let p := byteAt bs (l + 6)
    if p = 4 ∨ p = 41 then 40 else 0
  else 0

/-- The EtherType of an IP packet by its version. -/
def etherOf (b : Nat) : Bytes := if b / 16 = 4 then be 2 0x0800 else be 2 0x86DD

/-- TUN_OP (R140): IP-in-IP is the only encapsulation added or removed. -/
def rewriteTunnel (w0 tmpl : Nat) (bs : Bytes) : Bytes :=
  let op := bits w0 36 35
  let l := l3At bs
  if op = 1 then
    let n := outerLen bs
    if n = 0 then bs else bs.take (l - 2) ++ etherOf (byteAt bs (l + n)) ++ bs.drop (l + n)
  else if op = 2 then
    let n := bits tmpl 327 320
    let inner := ipLen bs l
    let h := le n tmpl
    let v4 := byteAt h 0 / 16 == 4
    let h := if bitOf tmpl 328 then
        (match ttlOf bs with
         | some (_, t) => patch h (if v4 then 8 else 7) (le 1 t)
         | none => h)
      else h
    let h := if v4 then fixSum (patch h 2 (be 2 (n + inner))) 0 else patch h 4 (be 2 inner)
    bs.take (l - 2) ++ etherOf (byteAt h 0) ++ h ++ bs.drop l
  else bs

/-- The MAC addresses: SMAC_SET, and DMAC where it is not 0. -/
def rewriteMac (w0 w1 smac : Nat) (bs : Bytes) : Bytes :=
  let bs := if bitOf w0 45 then patch bs 6 (le 6 smac) else bs
  if bits w1 47 0 = 0 then bs else patch bs 0 (le 6 (bits w1 47 0))

/-- A frame without its frame check sequence rewritten by next hop `i`. -/
def rewrite (s : State) (i cls : Nat) (bs : Bytes) : Bytes :=
  let e := mget 0 s.tab.nh i
  let w0 := e % 2 ^ 64
  let w1 := e / 2 ^ 64
  let tmpl := mget 0 s.tab.tun (bits w0 44 37)
  rewriteMac w0 w1 (mget 0 s.tab.smac (bits w1 55 48)) (rewriteTunnel w0 tmpl (rewriteTtl w0 (rewriteVlan w0 cls bs)))

/-- The bytes a next hop adds to a frame of length `l` or removes from it (R140, R196), its headers being those of the bytes
received so far. -/
def rewriteDelta (s : State) (i cls l : Nat) (bs : Bytes) : Int :=
  let b := (bs ++ zeros (l - bs.length)).take (l - 4)
  ((s.rewrite i cls b).length : Int) - (b.length : Int)

/-! ## Stamps (R272, R273) -/

/-- The stamp trailer (Table LOCK-8). -/
def trailer (t : Stamp) (tq ub sys port ver late bypassed ooo : Nat) : Bytes :=
  be 16 (((t / second) % 2 ^ 32) * 2 ^ 96 + ((t % second) / 65536) * 2 ^ 66 + ((t % 65536) / 1024) * 2 ^ 60 + (tq % 16) * 2 ^ 56
    + (ub % 256) * 2 ^ 48 + (sys % 512) * 2 ^ 39 + (port % 1024) * 2 ^ 29 + (ver % 65536) * 2 ^ 13 + late * 2 ^ 12
    + bypassed * 2 ^ 11 + ooo * 2 ^ 10 + 1 * 2 ^ 8)

/-- The in-header stamp (Table LOCK-9). -/
def headStamp (t : Stamp) (tq ub ver : Nat) : Bytes :=
  be 8 (((t % second) / 65536) * 2 ^ 34 + ((t % 65536) / 1024) * 2 ^ 28 + (tq % 16) * 2 ^ 24 + (ub % 256) * 2 ^ 16 + ver % 65536)

/-! ## The frame check sequence -/

/-- A frame with its check sequence; a stomped one carries its complement (R86). -/
def withFcs (bs : Bytes) (stomp : Bool) : Bytes := bs ++ (if stomp then (fcs bs).map (fun b => ~~~b) else fcs bs)

end State
end Sys2Proof.Machine
end

