-- ==== Sys2Proof/Machine/Ptp.lean ====
section
/-! DEFINITION. The PTP assists (R71 to R73, Table TIME-9): which frames carry a PTP message, what a port does to one at
transmit, and which go to keeper firmware. Where the fields of a message and of UDP lie is PRESUMED from IEEE 1588-2019 and
the protocols named (log entry 41). -/
namespace Sys2Proof.Machine
namespace State

/-- The PTP message of a frame: its transport, 0 Ethernet, 1 UDP over IPv4, 2 UDP over IPv6, and the byte it begins at. -/
def ptpFrameAt (bs : Bytes) : Option (Nat × Nat) :=
  let l := l3At bs
  let ty := beNat (sub bs (l - 2) 2)
  let port (u : Nat) : Bool := beNat (sub bs (u + 2) 2) == 319 || beNat (sub bs (u + 2) 2) == 320
  let u := l + 4 * (byteAt bs l % 16)
  if ty = 0x88F7 then some (0, l)
  else if ty = 0x0800 ∧ byteAt bs l / 16 = 4 ∧ byteAt bs (l + 9) = 17 ∧ beNat (sub bs (l + 6) 2) % 16384 = 0 ∧ port u then
    some (1, u + 8)
  else if ty = 0x86DD ∧ byteAt bs l / 16 = 6 ∧ byteAt bs (l + 6) = 17 ∧ port (l + 40) then some (2, l + 48)
  else none

/-- The PTP message of a frame over a transport that TIM_PTP_PORT(`p`) names, whole as far as its timestamp. -/
def ptpOn (s : State) (p : Nat) (bs : Bytes) : Option (Nat × Nat) :=
  let tr := s.fld (Reg.TIM_PTP_PORT p) F.TIM_PTP_PORT.TRANSPORT
  match ptpFrameAt bs with
  | some (x, k) => if (tr = 3 ∨ tr = x) ∧ k + 44 ≤ bs.length then some (x, k) else none
  | none => none

/-- messageType: 0 Sync, 1 Delay_Req, 2 Pdelay_Req, 3 Pdelay_Resp, 10 Pdelay_Resp_Follow_Up. -/
def ptpType (bs : Bytes) (k : Nat) : Nat := byteAt bs k % 16

/-- The 16-bit words of a byte string, a last odd byte taken with a zero behind it. -/
def words16 (bs : Bytes) : List Nat := (List.range ((bs.length + 1) / 2)).map (fun i => beNat (sub bs (2 * i) 2))

/-- The UDP checksum before the message at byte `k` after an in-frame update of `old` to `bs` (R72): zero over IPv4, updated
incrementally over IPv6. -/
def ptpChecksum (x k : Nat) (old bs : Bytes) : Bytes :=
  if x = 1 then patch bs (k - 2) (be 2 0)
  else if x = 2 then
    let h := beNat (sub bs (k - 2) 2)
    let sum := onesSum ((65535 - h) :: (words16 (old.drop k)).map (65535 - ·) ++ words16 (bs.drop k))
    patch bs (k - 2) (be 2 (if sum = 65535 then 65535 else 65535 - sum))
  else bs

/-- A frame without its frame check sequence as port `p` transmits it at `t`: a one-step message carries the stamp, and a
transparent clock adds the residence time of a message it forwards (R71, R72, Table TIME-9). -/
def ptpTransmit (s : State) (p : Nat) (pk : Packet) (t : Stamp) (bs : Bytes) : Bytes :=
  let r := Reg.TIM_PTP_PORT p
  match s.ptpOn p bs with
  | none => bs
  | some (x, k) =>
    let m := ptpType bs k
    let mode := s.fld r F.TIM_PTP_PORT.TC_MODE
    let one := s.flag r F.TIM_PTP_PORT.ONE_STEP && (m == 0 || m == 3)
    let through := pk.inPort != 0x3FF && ((mode == 1 && (m == 0 || m == 1)) || (mode == 2 && m == 0))
    if !one && !through then bs
    else
      let peer := if mode = 2 ∧ !pk.tow then s.fld (Reg.TIM_PTP_PORT pk.inPort) F.TIM_PTP_PORT.PEER_DELAY else 0
      let add : Int := (if one then ((t % 65536 : Nat) : Int) else 0) + (if through then (t : Int) - (pk.stamp : Int) + (peer : Int) else 0)
      let stamped := if one then patch bs (k + 34) (be 10 (d96 t / 65536)) else bs
      let new := patch stamped (k + 8) (be 8 (ofIntW 64 ((beNat (sub bs (k + 8) 8) : Int) + add)))
      ptpChecksum x k bs new

/-- A two-step message has been transmitted on port `p` at `t`: its stamp goes to an event record (R73). -/
def ptpTwoStep (s : State) (p : Nat) (t : Stamp) (bs : Bytes) : State :=
  match s.ptpOn p bs with
  | none => s
  | some (_, k) =>
    let m := ptpType bs k
    if s.flag (Reg.TIM_PTP_PORT p) F.TIM_PTP_PORT.TWO_STEP && decide (m ≤ 3) then
      s.raiseAt Src.TIM_PTP_TX (p + 1024 * beNat (sub bs (k + 30) 2) + 2 ^ 26 * m) t
    else s

/-- Whether a frame received on port `p` carries a message that goes to keeper firmware and is not forwarded: any on a
boundary-clock port, a Pdelay message on a peer-to-peer transparent one (Tables TIME-9 and TIME-32). -/
def ptpToKeeper (s : State) (p : Nat) (bs : Bytes) : Bool :=
  let r := Reg.TIM_PTP_PORT p
  match s.ptpOn p bs with
  | none => false
  | some (_, k) =>
    s.flag r F.TIM_PTP_PORT.BC_PORT || (s.fld r F.TIM_PTP_PORT.TC_MODE == 2 && [2, 3, 10].contains (ptpType bs k))

end State
end Sys2Proof.Machine
end

