-- ==== Sys2Proof/Machine/Snapshots.lean ====
section
/-! DEFINITION. Snapshots and sampling (chapter "Counters and Snapshots"). -/
namespace Sys2Proof.Machine
namespace State

/-- A counter's 64-bit count at `t`, a condition still in force counted up to `t` (R469, R470). -/
def counterAt (s : State) (n : Nat) (t : Stamp) : Nat :=
  let now := match mfind s.pmc.running n with
    | some t0 => t - t0
    | none => 0
  (mget 0 s.pmc.ctr n + (mget 0 s.pmc.spans n + now) / 65536) % 2 ^ 64

/-- The copy a block freezes: every counter that is not 0. -/
def frozenCopy (s : State) (t : Stamp) : SMap Nat :=
  (s.pmc.running.map (·.1) ++ s.pmc.spans.map (·.1)).foldl (fun m n => mset 0 m n (s.counterAt n t)) s.pmc.ctr

/-- PMC_SNAP_STAT.STATE. -/
def setSnapState (s : State) (v : Nat) : State := s.setFld Reg.PMC_SNAP_STAT F.PMC_SNAP_STAT.STATE v

/-- PMC_SNAP_STAT.LAST_STATUS (Table CNT-1). -/
def snapStatus (s : State) (v : Nat) : State := s.setFld Reg.PMC_SNAP_STAT F.PMC_SNAP_STAT.LAST_STATUS v

/-- The snapshot freezes now (R472): its instant, flags and the time state at T. `passed` says that a step of device
time passed over T, so that T becomes the time after the step (R475). -/
def freeze (s : State) (p : Snap) (passed : Bool) : State :=
  let t := if passed then s.now else p.t
  let q := s.tq
  let flags := 2 * b2n (q != 2 && q != 3) + 4 * b2n passed + 8 * b2n s.inFerry
  let p := { p with
    t := t, frozen := some (s.frozenCopy t), frozenAt := s.now, flags := flags, tq := q, ub := s.ubBase,
    sysid := s.sysId, epoch := s.epochNo }
  { s with pmc := { s.pmc with snap := some p } }.setSnapState 2

/-- Each periodic snapshot whose instant has arrived while the one before it is still being written is skipped and counted
(R474). -/
def skipDue (s : State) : State :=
  match s.pmc.snap, s.pmc.next with
  | some p, some n =>
    if p.frozen.isNone ∨ s.now < n.t then s
    else
      let k := (s.now - n.t) / (n.periodMs * millisecond) + 1
      { s with pmc := { s.pmc with
        next := some { n with t := n.t + k * n.periodMs * millisecond }, skipped := s.pmc.skipped + k } }.count Ctr.PMC_SKIPPED k
  | _, _ => s

/-- T arrives (R472): the armed snapshot freezes; periodic ones that come too early after it are skipped. -/
def snapDue (s : State) (passed : Bool) : State :=
  let s := match s.pmc.snap with
    | none => s
    | some p => if p.frozen.isNone ∧ p.t ≤ s.now then s.freeze p passed else s
  s.skipDue

/-- The bytes of the whole snapshot of the blocks in `mask` (Table CNT-2). -/
def snapSize (mask : Nat) : Nat :=
  64 + ((List.range 24).filter (fun b => bitOf mask b)).foldl (fun a b => a + 8 + 8 * Ctr.blockSize b) 0

/-- The written snapshot's bytes (Table CNT-2). -/
def snapBytes (s : State) (p : Snap) (len : Nat) : Bytes :=
  let copy := p.frozen.getD []
  let blocks := (List.range 24).filter (fun b => bitOf p.mask b)
  let section_ (b : Nat) : Bytes :=
    le 8 (b + 256 * Ctr.blockSize b) ++ (List.range (Ctr.blockSize b)).flatMap (fun i => le 8 (mget 0 copy (b * 2 ^ 19 + i)))
  let total := snapSize p.mask
  let flags := p.flags + b2n (decide (len < total))
  let head := ascii "DLPC" ++ le 2 1 ++ le 2 flags ++ le 4 s.pmc.seq ++ le 12 (d96 p.t) ++ le 1 p.tq ++ le 1 p.ub
    ++ le 2 p.sysid ++ le 4 p.mask ++ le 6 p.epoch ++ le 2 s.pmc.skipped ++ le 4 total ++ zeros 20
  (head ++ blocks.flatMap section_).take len

/-- The snapshot in progress ends with a status; a periodic one leaves the next armed (R474). -/
def endSnap (s : State) (status : Nat) : State :=
  let s := s.snapStatus status
  match s.pmc.next with
  | some n => { s with pmc := { s.pmc with snap := some n, next := some { n with t := n.t + n.periodMs * millisecond } } }.setSnapState 1
  | none => { s with pmc := { s.pmc with snap := none } }.setSnapState 0

end State

open State

/-- An armed snapshot not yet at T ends; one past T runs to completion, and no further periodic one is taken (R471, R474). -/
def State.cancelSnap (s : State) : State :=
  let s := { s with pmc := { s.pmc with next := none } }
  match s.pmc.snap with
  | some p =>
    match p.frozen with
    | none => ({ s with pmc := { s.pmc with snap := none } }.snapStatus 7).setSnapState 0
    | some _ => s
  | none => s

/-- A write of PMC_SNAP_CTL.ARM (R471): the snapshot is armed at T, or refused with a status and nothing changes. A CANCEL in
the same write acts first (log entry 38). -/
def snapArm (by_ : Agent) (v : Word64) (s : State) : State :=
  let c := Reg.PMC_SNAP_CTL
  s.accept by_ c (fun s =>
    let s := if bits v.toNat F.PMC_SNAP_CTL.CANCEL.hi F.PMC_SNAP_CTL.CANCEL.lo = 1 then s.cancelSnap else s
    let raw := s.rd Reg.PMC_SNAP_TIME + 2 ^ 64 * s.fld Reg.PMC_SNAP_TIME_HI F.PMC_SNAP_TIME_HI.T_HI
    let chan := bits v.toNat F.PMC_SNAP_CTL.CHANNEL.hi F.PMC_SNAP_CTL.CHANNEL.lo
    match ofD96 raw with
    | none => s.snapStatus 8
    | some t =>
      if t < s.now + 10 * microsecond then s.snapStatus 2
      else if s.pmc.snap.isSome then s.snapStatus 3
      else if !(s.flag (Reg.HIF_DMA_CFG chan) F.HIF_DMA_CFG.EN) || s.fld (Reg.HIF_DMA_CFG chan) F.HIF_DMA_CFG.USE != 4 then
        s.snapStatus 4
      else
        let s := s.writeFields by_ c v.toNat
        let period := min 10000 (s.fld c F.PMC_SNAP_CTL.PERIOD_MS)
        let s := s.setFld c F.PMC_SNAP_CTL.PERIOD_MS period
        let p : Snap := { t := t, mask := s.fld c F.PMC_SNAP_CTL.BLOCKS, channel := chan, periodMs := period }
        let n : Option Snap := if period = 0 then none else some { p with t := t + period * millisecond }
        { s with pmc := { s.pmc with snap := some p, next := n } }.setSnapState 1)

/-- A write of PMC_SNAP_CTL.CANCEL without ARM (R471, R474). -/
def snapCancel (by_ : Agent) (v : Word64) (s : State) : State :=
  s.writeThen by_ Reg.PMC_SNAP_CTL v.toNat (fun s => s.cancelSnap)

/-- The instant T of the armed snapshot arrives (R472). -/
def snapInstant (s : State) : State := s.snapDue false

/-- Every block's copy has closed and the snapshot goes into the channel's next descriptor, whose buffer lies at `addr`
with `len` bytes, at 12.5 bytes a nanosecond at most, and not while the channel is paused (R393); `dmaError` is 0 or the code
of Table HOST-6 the transfer meets (R472, R473). -/
def snapWrite (addr len dmaError : Nat) (s : State) : State :=
  match s.pmc.snap with
  | none => s
  | some p =>
    match p.frozen with
    | none => s
    | some _ =>
      let c := p.channel
      let fail (s : State) (st : Nat) : State := (s.raise Src.PMC_SNAP_FAIL st).endSnap st
      if s.flag (Reg.HIF_DMA_STAT c) F.HIF_DMA_STAT.PAUSED then s
      else if !(s.chanOn c 4) then fail s 6
      else if s.descsPosted c = 0 then fail s 5
      else if !(s.dmaMay c 1) then fail (s.dmaDenied c) 6
      else if dmaError ≠ 0 then
        let s := s.complete c (cplBytes p.t p.tq p.ub 0 0x3FF 0 0 0 (s.fld (Reg.HIF_DMA_IDX c) F.HIF_DMA_IDX.DESC_HEAD) dmaError)
        fail (s.dmaStop c dmaError) 6
      else if s.now < p.frozenAt + min len (snapSize p.mask) * 131072 / 25 then s
      else
        let data := s.snapBytes p len
        let idx := s.fld (Reg.HIF_DMA_IDX c) F.HIF_DMA_IDX.DESC_HEAD
        let s := (s.emit (.hostWrite (s.chanFn c) addr data)).takeDesc c
        let s := s.count (Ctr.HIF_DMA_BYTES c) data.length
        let s := s.complete c (cplBytes p.t p.tq p.ub (s.fld Reg.VER_STATE F.VER_STATE.CURRENT) 0x3FF 0 (b2n (decide (len < snapSize p.mask))) data.length idx 1)
        let seq := s.pmc.seq
        let s := s.setFld Reg.PMC_SNAP_STAT F.PMC_SNAP_STAT.SEQ seq
        let s := { s with pmc := { s.pmc with seq := (seq + 1) % 2 ^ 32, skipped := 0 } }
        ((s.count Ctr.PMC_SNAPSHOTS).raise Src.PMC_SNAP_DONE seq).endSnap 1

/-- A sampler's count has reached PERIOD: a sample is requested (R477). One still wanted then is replaced. -/
def samplerOverflow (i : Nat) (s : State) : State :=
  let a := mget {} s.pmc.samplers i
  match a.hit with
  | some v =>
    if 8 ≤ i then s
    else { s with pmc := { s.pmc with samplers := mset {} s.pmc.samplers i { a with hit := none, want := some v, asked := false } } }
  | none => s

/-- A sample of counter `n` is written to the ring, or lost where the ring is full (R477, R478, Table CNT-4). -/
def State.putSample (s : State) (i n : Nat) (t : Stamp) (port ver w2 w3 : Nat) : State :=
  let ix := Reg.PMC_SAMPLE_IDX
  let tail := s.fld ix F.PMC_SAMPLE_IDX.TAIL
  if s.samplesHeld < 1024 then
    let j := tail % 1024
    let w1 := n + i * 2 ^ 24 + (port % 1024) * 2 ^ 32 + (ver % 65536) * 2 ^ 42
    let s := (((s.wr (Reg.PMC_SAMPLE_RING j 0) (d64 (eventBase t) t)).wr (Reg.PMC_SAMPLE_RING j 1) w1).wr
      (Reg.PMC_SAMPLE_RING j 2) w2).wr (Reg.PMC_SAMPLE_RING j 3) w3
    let s := s.setFld ix F.PMC_SAMPLE_IDX.TAIL (tail + 1)
    (s.count (Ctr.PMC_SAMPLES i)).raise Src.PMC_SAMPLE ((tail + 1) % 65536)
  else (s.count (Ctr.PMC_SAMPLE_LOST i)).raise Src.PMC_SAMPLE_OVF i

/-- The sample that sampler `i` wants is taken (R477): of a PRS counter what the barge's sampling handler has posted, of any other
that of packet `id`, whose event time is its ingress stamp. What a sample of a counter that counts no packet holds of one is not
stated (log entry 4). -/
def sampleTake (i : Nat) (id : Option Nat) (s : State) : State :=
  let a := mget {} s.pmc.samplers i
  let n := s.fld (Reg.PMC_SAMPLE_CFG i) F.PMC_SAMPLE_CFG.COUNTER
  match a.want with
  | none => s
  | some v =>
    let given (s : State) : State :=
      { s with pmc := { s.pmc with samplers := mset {} s.pmc.samplers i { a with want := none, asked := false } } }
    if 8 ≤ i then s
    else if n / 2 ^ 19 = 5 then
      match s.pmc.posted.find? (fun x => x.counter == n) with
      | none => s
      | some x =>
        let s := given s
        ({ s with pmc := { s.pmc with posted := s.pmc.posted.erase x } }).putSample i n x.stamp x.port x.ver x.w0.toNat x.w7.toNat
    else
      match id.bind (mfind s.pkts) with
      | some p => (given s).putSample i n p.stamp p.inPort p.ver (leAt p.manifest 0 8) v
      | none =>
        let (x, s) := (given s).takeFree 186
        s.putSample i n (bits x 95 0) (bits x 105 96) (bits x 121 106) (bits x 185 122) v

/-- A write to PMC_SAMPLE_CFG(i) restarts the sampler's count (Table CNT-9). -/
def samplerCfgWrite (by_ : Agent) (i : Nat) (v : Word64) (s : State) : State :=
  s.writeThen by_ (Reg.PMC_SAMPLE_CFG i) v.toNat (fun s =>
    { s with pmc := { s.pmc with samplers := mdel s.pmc.samplers i } })

end Sys2Proof.Machine
end

