-- ==== Sys2Proof/Machine/Time.lean ====
section
/-! DEFINITION. Device time: the counter, the servo and the time state, the references and outputs, the lamplighter and
the calibration of the path constants (chapter "Device Time, References and Timestamp Capture"). -/
namespace Sys2Proof.Machine
namespace State

/-! ## The counter (R42, R44) -/

/-- The slew rate in force, ns per second (R44). -/
def slewRate (s : State) : Nat :=
  let r := s.fld Reg.TIM_SLEW F.TIM_SLEW.RATE
  if r = 0 then 1000 else min r 10000

/-- One time-domain cycle: device time advances by TIM_INCR and by the cycle's share of the slew (R42, R44); the word clocks
run on by TIM_INCR (R50). -/
def tick (s : State) : State :=
  let incr := s.rd Reg.TIM_INCR
  let most : Int := ((incr * s.slewRate / 1000000000 : Nat) : Int)
  let d : Int := if s.tim.slew > most then most else if s.tim.slew < -most then -most else s.tim.slew
  { s with
    time := ((s.time : Int) + (incr : Int) + d).toNat,
    tim := { s.tim with slew := s.tim.slew - d, cycles := s.tim.cycles + 1, run := s.tim.run + incr } }

/-! ## The copies (R25, R50, R56) -/

/-- The quad of a lane (R76). -/
def quadOf (l : Nat) : Nat := if l < 512 then l / 4 else 128

/-- The lanes of a quad (R76). -/
def lanesOfQuad (q : Nat) : List Nat := if q = 128 then [512, 513] else [4 * q, 4 * q + 1, 4 * q + 2, 4 * q + 3]

/-- What has been added of the residual that a quad spreads over 256 ns (R52). -/
def spreadSoFar (s : State) (lq : LampQuad) : Int :=
  let gone : Nat := min ((s.tim.run - lq.runAt) / 2 ^ 32) (256 * 65536)
  lq.spread * (gone : Int) / (16777216 : Int)

/-- Quad `q`'s copy of device time (R50, R52). -/
def quadCopy (s : State) (q : Nat) : Int :=
  let lq := mget ({} : LampQuad) s.tim.lamps q
  s.tim.origin + ((s.tim.run / 2 ^ 32 : Nat) : Int) + lq.off + s.spreadSoFar lq

/-- How far into its time-domain cycle an edge lies, where it is given as `d` (2^-16 ns): a cycle is 1.25 ns. -/
def inCycle (d : Nat) : Nat := d % 81920

/-- The copy of lane `l`'s quad at an edge `d` into the cycle (R56). -/
def laneCopy (s : State) (l d : Nat) : Int := s.quadCopy (quadOf l) + (inCycle d : Nat)

/-- The receive stamp of a bit on `lane` of a port (R56): `d` how far into its cycle the transmit-clock edge nearest the word
boundary lies, `phi` the recovered-clock phase against that edge, and `n` the symbol position of the bit. -/
def rxStamp (s : State) (port lane d : Nat) (phi : Int) (n : Nat) : Stamp :=
  ballStamp (s.phyOf port) (s.laneCopy lane d) phi n (-(asInt 32 (bits (s.rd (Reg.TIM_CAL_RX lane)) 31 0)))

/-- The transmit stamp of a bit on `lane` of a port (R56). -/
def txStamp (s : State) (port lane d n : Nat) : Stamp :=
  ballStamp (s.phyOf port) (s.laneCopy lane d) 0 n (asInt 32 (s.fld (Reg.TIM_CAL_TX lane) F.TIM_CAL_TX.IN_FORCE))

/-! ## The time state (R63, R64, R17) -/

/-- What every change of the time state leaves: the TIME_STATE control event and TIM_TQ_CHANGE (R64, Table WIT-4,
Table TIME-10). -/
def noteTime (s : State) (old : Nat) (before : Stamp) (stepNs : Nat) (step : Bool) : State :=
  let ref := s.fld Reg.TIM_STATE F.TIM_STATE.REF_IN_USE
  let act := b2n s.lockActive
  let s := s.controlNow 0x01 (le 1 s.tq ++ le 1 old ++ le 1 ref ++ le 1 (act + 2 * b2n step) ++ le 12 (d96 before)
    ++ le 12 (d96 s.now) ++ le 8 stepNs)
  s.raise Src.TIM_TQ_CHANGE (s.tq + 16 * old + 256 * ref + 4096 * act + 8192 * b2n step)

/-- The framing of every aligned port loses its anchor: ALIGNED clears and PRT_ALIGN_LOST is raised once (R89). -/
def loseAlignment (s : State) : State :=
  (List.range 514).foldl (fun s p =>
    if s.flag (Reg.PRT_STATUS p) F.PRT_STATUS.ALIGNED then
      (s.setFld (Reg.PRT_STATUS p) F.PRT_STATUS.ALIGNED 0).raise Src.PRT_ALIGN_LOST p
    else s) s

/-- In TQ 3 the framing of every port that is up is anchored to device time (R89). -/
def anchorAll (s : State) : State :=
  (List.range 514).foldl (fun s p =>
    if s.flag (Reg.PRT_STATUS p) F.PRT_STATUS.LINK_UP then s.setFld (Reg.PRT_STATUS p) F.PRT_STATUS.ALIGNED 1 else s) s

/-- The lock returns to bypass: every frame held in a sort FIFO is released at once, in sort order, and carries the
lock-bypassed flag (R259). -/
def releaseLocks (s : State) : State :=
  let free (e : EgressPort) : EgressPort :=
    { e with due := e.due ++ e.fifo.map (fun c => { c with bypassed := true }), fifo := [] }
  { s with egr := { s.egr with ports := s.egr.ports.map (fun e => (e.1, free e.2)) } }

/-- What the device time state's change to `q` does beside being noted: the lock leaves bypass when it reaches 2 or 3 and
returns only in 0 or 1 (R17), and the holdover term starts (R61). The counts of the tracking test run on from 4 to 5. -/
def enterTq (s : State) (q : Nat) : State :=
  let old := s.tq
  let w := match s.wts s.now with
    | some (n, d) => ceilDiv n (65536 * d)
    | none => 0
  let s := s.setFld Reg.TIM_STATE F.TIM_STATE.TQ q
  let was := s.lockActive
  let s := if q = 2 ∨ q = 3 then s.setFld Reg.TIM_STATE F.TIM_STATE.LOCK_ACTIVE 1
    else if q ≤ 1 then s.setFld Reg.TIM_STATE F.TIM_STATE.LOCK_ACTIVE 0 else s
  let s := if s.lockActive && !was then { s with egr := { s.egr with lockSince := s.now } }
    else if was && !s.lockActive then s.releaseLocks else s
  let enters := (q = 4 ∨ q = 6) ∧ old ≠ q
  let on := old = 4 ∧ q = 5
  let s := { s with tim := { s.tim with
    inTrack := if on then s.tim.inTrack else 0,
    overThresh := if on then s.tim.overThresh else 0,
    holdEntry := if enters then s.now else s.tim.holdEntry,
    holdWts := if enters then w else s.tim.holdWts } }
  let s := s.setReady 6 (decide (2 ≤ q))
  if old = 3 then s.loseAlignment else if q = 3 then s.anchorAll else s

/-- The reference in use becomes `code`: its updates are counted afresh. -/
def bindRef (s : State) (code : Nat) : State :=
  let s := s.setFld Reg.TIM_STATE F.TIM_STATE.REF_IN_USE code
  { s with tim := { s.tim with inTrack := 0, overThresh := 0, lastUpdate := s.now } }

/-- The reference in use. -/
def refInUse (s : State) : Nat := s.fld Reg.TIM_STATE F.TIM_STATE.REF_IN_USE

/-- The device time state becomes `q` and the reference in use `code` at this instant: one change, raised and witnessed
(R49, R64). -/
def changeTime (s : State) (q code : Nat) : State :=
  let old := s.tq
  if q = old ∧ code = s.refInUse then s
  else
    let s := if q = old then s else s.enterTq q
    let s := if code = s.refInUse then s else s.bindRef code
    s.noteTime old s.now 0 false

/-- The device time state becomes `q` at this instant (R64). -/
def setTq (s : State) (q : Nat) : State := s.changeTime q s.refInUse

/-- The reference in use changes, a time-state change even when TQ does not (R49). -/
def setRef (s : State) (code : Nat) : State := s.changeTime s.tq code

/-! ## References (R46 to R49) -/

/-- The four references of TIM_REF_CFG in force, highest priority first. -/
def refPrios (s : State) : List Nat :=
  [F.TIM_REF_CFG.PRIO0, F.TIM_REF_CFG.PRIO1, F.TIM_REF_CFG.PRIO2, F.TIM_REF_CFG.PRIO3].map (s.cfgFld Reg.TIM_REF_CFG)

/-- A phase reference is valid. -/
def refValid (s : State) (code : Nat) : Bool := (mfind s.tim.refSince code).isSome

/-- The device is a member of a joined system (R309). -/
def isMember (s : State) : Bool := s.fld Reg.TOW_STATE F.TOW_STATE.STATE != 0

/-- The highest-priority valid phase reference (R49), system time of a member behind those named; 0 for none. -/
def bestRef (s : State) : Nat :=
  match (s.refPrios.filter (· != 0)).find? s.refValid with
  | some c => c
  | none => if s.isMember && s.refValid 4 then 4 else 0

/-- Whether the servo may use a reference: TIM_REF_CFG names it (R49), or it is the system time of a member (R324). -/
def refNamed (s : State) (code : Nat) : Bool := s.refPrios.contains code || (code == 4 && s.isMember)

/-- A reference becomes valid, from now if it was not. -/
def validate (s : State) (code : Nat) : State :=
  if s.refValid code then s else { s with tim := { s.tim with refSince := mput s.tim.refSince code s.now } }

/-- The reference in use is declared lost (Table TIME-8, R49): TIM_REF_LOST, holdover from 2 or 3, TQ 0 from 1 when no other
is valid, and the best valid reference in its place. A member goes on toward system time (R324). -/
def declareLost (s : State) : State :=
  let code := s.refInUse
  let s := s.raise Src.TIM_REF_LOST code
  let s := { s with tim := { s.tim with refSince := mdel s.tim.refSince code } }
  let next := if code = 4 ∧ s.isMember then 4 else s.bestRef
  s.changeTime (if s.tq = 2 ∨ s.tq = 3 then 4 else if s.tq = 1 ∧ next = 0 then 0 else s.tq) next

/-- The reference in use is still one the servo may use, and in TQ 1 some reference named in TIM_REF_CFG is valid; otherwise
the reference is lost, or the state falls to 0 (R49, Table TIME-8). -/
def refCheck (s : State) : State :=
  if s.refInUse ≠ 0 ∧ !(s.refNamed s.refInUse) then s.declareLost
  else if s.tq = 1 ∧ s.bestRef = 0 then s.setTq 0 else s

/-- A reference is valid no longer: in use, it is lost. -/
def invalidate (s : State) (code : Nat) : State :=
  if s.refInUse = code then s.declareLost
  else { s with tim := { s.tim with refSince := mdel s.tim.refSince code } }.refCheck

/-- In a joined system TQ 3 asks for a TIM_TS_UNC of at most 0.60 ns (R62). -/
def tsUncOk (s : State) : Bool := !s.isMember || decide (s.fld Reg.TIM_TS_UNC F.TIM_TS_UNC.W_TS_PS ≤ 600)

/-- A system time that is no longer to be followed: not valid, without a loss being declared. -/
def dropSystemTime (s : State) : State := { s with tim := { s.tim with refSince := mdel s.tim.refSince 4 } }

/-- A member in TQ 3 whose uncertainty has passed 0.60 ns declares its reference lost (R62, R325). -/
def tsUncCheck (s : State) : State := if s.tq = 3 ∧ !s.tsUncOk then s.declareLost else s

/-- The device is joining or authoritative: what Table TIME-8 calls admitted, since admission itself asks for TQ 3 (R331;
log entry 30). -/
def admitted (s : State) : Bool := s.fld Reg.TOW_STATE F.TOW_STATE.STATE == 1 || s.fld Reg.TOW_STATE F.TOW_STATE.STATE == 2

/-- The transition of Table TIME-8 that an accepted update of reference `code` makes, top row first. -/
def updateTq (s : State) (code : Nat) : State :=
  let c := Reg.TIM_TRACK_CFG
  let q := s.tq
  let loss := s.cfgFld c F.TIM_TRACK_CFG.LOSS_COUNT
  let track := decide (s.cfgFld c F.TIM_TRACK_CFG.TRACK_COUNT ≤ s.tim.inTrack) && s.tim.inTrack != 0
  if (2 ≤ q ∧ q ≤ 6) ∧ loss ≤ s.tim.overThresh ∧ s.tim.overThresh ≠ 0 then s.setTq 1
  else if (q = 1 ∨ q = 4 ∨ q = 5) ∧ track ∧ code ≠ 4 then s.setTq 2
  else if (q = 1 ∨ q = 4 ∨ q = 5) ∧ track ∧ s.tsUncOk then s.setTq 3
  else if q = 2 ∧ code = 4 ∧ s.admitted ∧ track ∧ s.tsUncOk then s.setTq 3
  else s

/-- A servo update with the measured offset `off` of device time from reference `code`, in 2^-16 ns (R46): accepted when
the reference is the one in use, one the servo may use, and valid; it counts for LOSS_COUNT and for the tests of Table
TIME-8. An Adrift member takes up no reference (R333). -/
def servoUpdate (s : State) (code : Nat) (off : Int) : State :=
  if !(s.refNamed code) then s else
  let s := s.validate code
  let s := if s.refInUse = 0 ∧ s.tq ≠ 6 then s.setRef s.bestRef else s
  if s.refInUse ≠ code then s else
  let c := Reg.TIM_TRACK_CFG
  let far := decide (s.cfgFld c F.TIM_TRACK_CFG.STEP_THRESH_NS * 65536 < off.natAbs)
  let within := decide (off.natAbs * 1000 ≤ s.cfgFld c F.TIM_TRACK_CFG.TRACK_PS * 65536)
  let s := if s.tq = 0 then s.setTq 1 else s
  let s := { s with tim := { s.tim with
    lastUpdate := s.now,
    overThresh := if far then s.tim.overThresh + 1 else 0,
    inTrack := if within then s.tim.inTrack + 1 else 0 } }
  s.updateTq code

/-- The nominal update interval of a reference (Table TIME-33). -/
def updateInterval (s : State) (code : Nat) : Nat :=
  if code = 3 then
    let e := asInt 8 (s.cfgFld Reg.TIM_TRACK_CFG F.TIM_TRACK_CFG.PTP_LOG_INT)
    let e := if e < -7 then -7 else if e > 4 then 4 else e
    if e < 0 then second / 2 ^ e.natAbs else second * 2 ^ e.natAbs
  else if code = 4 then clamp 10 1000 (s.cfgFld Reg.TOW_CFG F.TOW_CFG.TIME_PERIOD_US) * microsecond
  else second

/-- The servo is the agent TIM_CTRL.SERVO_HOST names (R45). -/
def servoOwner (s : State) (by_ : Agent) : Bool :=
  match by_ with
  | .host _ => s.flag Reg.TIM_CTRL F.TIM_CTRL.SERVO_HOST
  | .keeper _ => !(s.flag Reg.TIM_CTRL F.TIM_CTRL.SERVO_HOST)
  | .loader => true

/-- An instant moved by a step of `d` (2^-16 ns). -/
def moved (d : Int) (t : Stamp) : Stamp := ((t : Int) + d).toNat

/-- Device time steps by `ns` (R43): the epoch in force closes at the time before it and the next starts at the time after it
(R294), a snapshot it passes over is taken (R475), frames stamped after a backward step carry CURRENT (R508), and the step
is witnessed. Every copy takes it too. A PPS input's last stamp moves with it, and so do the instants from which the
intervals of this chapter are measured (log entry 13). A step below zero leaves device time 0 (log entry 13). -/
def stepTime (s : State) (ns : Int) : State :=
  let before := s.now
  let d := ns * 65536
  let pps := s.tim.pps.map (fun (e : Nat × PpsIn) => (e.1, { e.2 with last := e.2.last.map (moved d), since := moved d e.2.since }))
  let closing := s.witOn
  let s := { s with
    time := ((s.time : Int) + ns * (2 ^ 48 : Nat)).toNat,
    tim := { s.tim with
      pps := pps,
      origin := s.tim.origin + d,
      lampV := moved d s.tim.lampV,
      lamps := s.tim.lamps.map (fun (e : Nat × LampQuad) => (e.1, { e.2 with v := e.2.v.map (moved d) })),
      refSince := s.tim.refSince.map (fun (e : Nat × Stamp) => (e.1, moved d e.2)),
      lastUpdate := moved d s.tim.lastUpdate,
      cals := s.tim.cals.map (fun (e : Nat × LaneCal) => (e.1, { e.2 with measured := e.2.measured.map (moved d) })) } }
  let s := if s.now < before then { s with ver := { s.ver with commits := s.ver.commits.getLast?.toList.map (fun (c : Nat × Stamp) => (c.1, 0)) } } else s
  let s := s.setFld Reg.TIM_STATE F.TIM_STATE.STEP_COUNT (s.fld Reg.TIM_STATE F.TIM_STATE.STEP_COUNT + 1)
  let s := if closing then s.closeEpoch before s.now else s
  let s := s.noteTime s.tq before (ofIntW 64 ns) true
  if before < s.now then s.snapDue true else s

/-! ## Calibration (R58 to R60, R67 to R70) -/

/-- The seconds since a lane's last re-measurement. -/
def calAge (s : State) (l : Nat) : Nat := (s.now - ((mget {} s.tim.cals l).measured.getD 0)) / second

/-- The distance of one in-force constant from its target, 2^-16 ns. -/
def lagOf (s : State) (o : Nat) : Nat := (asInt 32 (bits (s.rd o) 63 32) - asInt 32 (bits (s.rd o) 31 0)).natAbs

/-- The larger distance of a lane's in-force constants from their targets. -/
def calLag (s : State) (l : Nat) : Nat := max (s.lagOf (Reg.TIM_CAL_RX l)) (s.lagOf (Reg.TIM_CAL_TX l))

/-- The factory calibration record is unverified (R66). -/
def calUnverified (s : State) : Bool := !(s.flag Reg.SEC_STATUS F.SEC_STATUS.CAL_OK)

/-- A lane's age or lag makes it stale (R70). -/
def calWorn (s : State) (l : Nat) : Bool :=
  decide (s.cfgFld Reg.TIM_CAL_CFG F.TIM_CAL_CFG.MAX_AGE_S < s.calAge l) ||
    decide (s.cfgFld Reg.TIM_CAL_CFG F.TIM_CAL_CFG.STALE_LAG_PS * 65536 < 1000 * s.calLag l)

/-- The condition of R70. -/
def calStaleNow (s : State) (l : Nat) : Bool := s.calUnverified || s.calWorn l

/-- TIM_CAL_STALE is asserted at the instant at which a lane's age or lag makes it stale (R74). -/
def syncStale (s : State) (l : Nat) : State :=
  let c := mget ({} : LaneCal) s.tim.cals l
  let w := s.calWorn l
  if w = c.stale then s
  else
    let s := { s with tim := { s.tim with cals := mput s.tim.cals l { c with stale := w } } }
    if w then s.raise Src.TIM_CAL_STALE l else s

/-- The same of every lane. -/
def syncAllStale (s : State) : State := (List.range 514).foldl syncStale s

/-- The calibration record is unverified from this instant: asserted once, with payload [10] (R66, R74). -/
def noteUnverified (s : State) : State := s.raise Src.TIM_CAL_STALE 1024

/-- The TQ a stamp from lane `l` carries (R63). -/
def stampTq (s : State) (l : Nat) : Nat := if s.calStaleNow l ∧ 2 ≤ s.tq then 7 else s.tq

/-- What follows an apply of TIM (R49, R70). -/
def timAfter (s : State) : State := s.refCheck.syncAllStale

/-- The UB a stamp from lane `l` carries now (R54, R60). -/
def stampUb (s : State) (l : Nat) : Nat :=
  if s.tq ≤ 1 ∨ (mget {} s.tim.lamps (quadOf l)).reload then 255
  else ubOf (mget {} s.tim.cals l).wcapSq (s.wts s.now)

/-- A CALIBRATION control event of lane `l` (R69, Table WIT-4). -/
def calEvent (s : State) (l : Nat) (tx reached : Bool) (old new force : Nat) : State :=
  s.control (sliceOf l) 0x02 (le 2 l ++ le 1 (b2n tx + 2 * b2n reached) ++ zeros 1 ++ le 4 old ++ le 4 new ++ le 4 force) s.now

/-- One constant gets the new target `new` (R67 to R69). -/
def newTarget (s : State) (l : Nat) (tx : Bool) (new : Int) : State :=
  let o := if tx then Reg.TIM_CAL_TX l else Reg.TIM_CAL_RX l
  let old := bits (s.rd o) 63 32
  let nw := ofIntW 32 new
  let s := s.wr o (putBits (s.rd o) 63 32 nw)
  if 65536 ≤ 1000 * (asInt 32 old - new).natAbs then s.calEvent l tx false old nw (bits (s.rd o) 31 0) else s

/-- One constant moves one unit toward its target, and reaching it is witnessed (R68, R69). -/
def moveConst (s : State) (l : Nat) (tx : Bool) : State :=
  let o := if tx then Reg.TIM_CAL_TX l else Reg.TIM_CAL_RX l
  let tg := asInt 32 (bits (s.rd o) 63 32)
  let cur := asInt 32 (bits (s.rd o) 31 0)
  if tg = cur then s else
  let nx := if cur < tg then cur + 1 else cur - 1
  let s := s.wr o (putBits (s.rd o) 31 0 (ofIntW 32 nx))
  if nx = tg then s.calEvent l tx true (ofIntW 32 tg) (ofIntW 32 tg) (ofIntW 32 nx) else s

end State

open State

/-! ## The servo owner's registers -/

/-- A write to TIM_STEP (R43): a step in TQ 0 or 1, refused with TIM_STEP_REFUSED otherwise; ignored from an agent that
does not own the servo (R45). -/
def timStep (by_ : Agent) (v : Word64) (s : State) : State :=
  s.accept by_ Reg.TIM_STEP (fun s =>
    if !(s.servoOwner by_) then s
    else if s.tq ≤ 1 then (s.wr Reg.TIM_STEP v.toNat).stepTime (asInt 64 v.toNat)
    else s.raise Src.TIM_STEP_REFUSED s.tq)

/-- A write to TIM_SLEW (R44): RATE takes the written value and OFFSET adds to the slew still to be applied. -/
def timSlew (by_ : Agent) (v : Word64) (s : State) : State :=
  s.accept by_ Reg.TIM_SLEW (fun s =>
    if !(s.servoOwner by_) then s else
    let s := s.setFld Reg.TIM_SLEW F.TIM_SLEW.RATE (bits v.toNat 63 48)
    { s with tim := { s.tim with slew := s.tim.slew + asInt 48 (bits v.toNat 47 0) * (2 ^ 32 : Nat) } })

/-- The nominal increment (Table TIME-15). -/
def nominalIncr : Nat := 0x0001_4000_0000_0000

/-- A write to TIM_INCR (R45): accepted within ±500 ppm of nominal; beyond, ignored with TIM_SERVO_LIMIT. -/
def timIncr (by_ : Agent) (v : Word64) (s : State) : State :=
  s.accept by_ Reg.TIM_INCR (fun s =>
    if !(s.servoOwner by_) then s
    else if ((v.toNat : Int) - (nominalIncr : Int)).natAbs * 2000 ≤ nominalIncr then s.wr Reg.TIM_INCR v.toNat
    else s.raise Src.TIM_SERVO_LIMIT)

/-- A write of TIM_PTP_OFS by the servo owner: one servo update while the PTP reference is in use (Table TIME-33). -/
def ptpServoUpdate (by_ : Agent) (v : Word64) (s : State) : State :=
  s.accept by_ Reg.TIM_PTP_OFS (fun s =>
    if !(s.servoOwner by_) then s else
    (s.setFld Reg.TIM_PTP_OFS F.TIM_PTP_OFS.OFFSET (bits v.toNat 47 0)).servoUpdate 3 (asInt 48 v.toNat))

/-- A Warden write of TIM_CTRL.FREE_RUN (Table TIME-8). -/
def freeRun (by_ : Agent) (v : Word64) (s : State) : State :=
  s.accept by_ Reg.TIM_CTRL (fun s =>
    let go := s.acts by_ Reg.TIM_CTRL F.TIM_CTRL.FREE_RUN v.toNat
    let s := s.writeFields by_ Reg.TIM_CTRL v.toNat
    if go then s.setTq 0 else s)

/-- A write to TIM_APPLY (R75): the references are judged by the new TIM_REF_CFG, the lanes by the new TIM_CAL_CFG. -/
def timApply (by_ : Agent) (v : Word64) (s : State) : State :=
  s.applyWrite by_ Reg.TIM_APPLY v.toNat 2 F.TIM_APPLY.APPLY (fun _ => none) (fun _ => .pipeline) timAfter

/-! ## References -/

/-- A rising edge of PPS input `i`, `d` into the time-domain cycle (R47, R48, R57): stamped against copy 128 with the input's
factory path constant; it forms a servo update, and the input in use then takes the time of day written for it. -/
def ppsEdge (i d : Nat) (s : State) : State :=
  let t := roundStamp (s.quadCopy 128 + (inCycle d : Nat) - mget 0 s.unit.pps i)
  let p := mget {} s.tim.pps i
  let ok := match p.last with
    | some l => decide (((t : Int) - (l : Int) - (second : Int)).natAbs ≤ 100 * microsecond)
    | none => false
  let code := i + 1
  let s := s.wr (if i = 0 then Reg.TIM_PPS_IN0 else Reg.TIM_PPS_IN1) (d96 t % 2 ^ 64)
  let s := { s with tim := { s.tim with pps := mput s.tim.pps i { p with last := some t, valid := ok, since := s.now, missing := false } } }
  let s := if ok then s.servoUpdate code ((t : Int) - (((t + second / 2) / second * second : Nat) : Int)) else s.invalidate code
  if s.flag Reg.TIM_TOD_NEXT F.TIM_TOD_NEXT.VALID && decide (s.tim.todWritten < t) && s.refInUse == code then
    let sec := s.fld Reg.TIM_TOD_NEXT F.TIM_TOD_NEXT.SEC
    { s.setFld Reg.TIM_TOD_NEXT F.TIM_TOD_NEXT.VALID 0 with
      tim := { s.tim with pps := mput s.tim.pps i { mget {} s.tim.pps i with tod := some (sec, t) } } }
  else s

/-- 1.1 s have passed without an edge on PPS input `i`, which TIM_REF_CFG names (R48). -/
def ppsMissing (i : Nat) (s : State) : State :=
  let p := mget {} s.tim.pps i
  if s.refPrios.contains (i + 1) ∧ p.since + 11 * second / 10 ≤ s.now ∧ !p.missing then
    let s := { s with tim := { s.tim with pps := mput s.tim.pps i { p with valid := false, missing := true } } }
    (s.invalidate (i + 1)).raise Src.TIM_PPS_MISSING i
  else s

/-- The comparison of the selected frequency input with device time, once in each 100 ms (R46): `ok` says the input is
valid, and `phase` is the result that the servo owner reads, 2^-16 ns. -/
def freqCompare (ok : Bool) (phase : Int) (s : State) : State :=
  let k := s.now / (100 * millisecond)
  if s.tim.freqAt = some k then s
  else
    let src := s.cfgFld Reg.TIM_CTRL F.TIM_CTRL.FREQ_SRC
    { s with tim := { s.tim with freqAt := some k, freqPhase := phase } }.setFld Reg.TIM_STATE F.TIM_STATE.FREQ_REF_OK
      (b2n (ok && (src == 1 || src == 2)))

/-- No servo update has been accepted for LOSS_COUNT update intervals: the reference is lost and the state falls
(Table TIME-8, R49). -/
def servoUpdateTimeout (s : State) : State :=
  let code := s.refInUse
  let loss := s.cfgFld Reg.TIM_TRACK_CFG F.TIM_TRACK_CFG.LOSS_COUNT
  if code ≠ 0 ∧ s.tim.lastUpdate + loss * s.updateInterval code ≤ s.now ∧ (s.tq = 1 ∨ s.tq = 2 ∨ s.tq = 3) then
    let s := s.raise Src.TIM_REF_LOST code
    let s := { s with tim := { s.tim with refSince := mdel s.tim.refSince code } }
    s.changeTime (if s.tq = 1 then 0 else 4) s.bestRef
  else s

/-- One second in TQ 4 has passed (Table TIME-8). -/
def holdoverSecond (s : State) : State :=
  if s.tq = 4 ∧ s.tim.holdEntry + second ≤ s.now then s.setTq 5 else s

/-- A revertive servo changes to a reference of higher priority than the one in use that has been valid for 10 s (R49). -/
def refRevert (s : State) : State :=
  let ahead := if s.refPrios.contains s.refInUse then s.refPrios.takeWhile (· != s.refInUse) else s.refPrios
  let ripe (c : Nat) : Bool := c != 0 && (match mfind s.tim.refSince c with
    | some t => decide (t + 10 * second ≤ s.now)
    | none => false)
  if s.cfgFlag Reg.TIM_REF_CFG F.TIM_REF_CFG.REVERTIVE && s.refInUse != 0 && s.refNamed s.refInUse then
    match ahead.find? ripe with
    | some c => s.setRef c
    | none => s
  else s

/-- The register of PPS output `i`. -/
def State.ppsOutReg (i : Nat) : Nat := if i = 0 then Reg.TIM_PPS_OUT0 else Reg.TIM_PPS_OUT1

/-- A write of a PPS output's register: an output that becomes enabled has its first edge at the next second (Table
TIME-22). -/
def State.ppsOutWrite (by_ : Agent) (i : Nat) (v : Word64) (s : State) : State :=
  s.accept by_ (State.ppsOutReg i) (fun s =>
    let was := bitOf (s.rd (State.ppsOutReg i)) 0
    let s := s.writeFields by_ (State.ppsOutReg i) v.toNat
    if bitOf (s.rd (State.ppsOutReg i)) 0 && !was then { s with tim := { s.tim with ppsOutOn := mput s.tim.ppsOutOn i s.now } } else s)

/-- An enabled PPS output drives its rising edge at the ball at the device-time second plus OFFSET_NS, once per second and
never before the second that follows its enabling, or ends its pulse after WIDTH_MS (R47, Table TIME-22). The edge lies on
a step of 2^-6 ns against copy 128 (R57). -/
def ppsOutEdge (i : Nat) (rising : Bool) (s : State) : State :=
  let reg := State.ppsOutReg i
  if rising then
    let ofs := asInt 32 (bits (s.rd reg) 39 8) * 65536
    let k := (((s.now : Int) - ofs) / (second : Int)).toNat
    let t := roundStamp (((k * second : Nat) : Int) + ofs)
    let first := match mfind s.tim.ppsOutOn i with
      | some w => w / second + 1
      | none => 0
    if bitOf (s.rd reg) 0 && decide (first ≤ k) && mfind s.tim.ppsOutLast i != some k then
      let w := bits (s.rd reg) 47 40
      let end_ := t + (if w = 0 then 100 else w) * millisecond
      { s with tim := { s.tim with ppsOutHigh := mput s.tim.ppsOutHigh i end_, ppsOutLast := mput s.tim.ppsOutLast i k } }.emit
        (.ppsOut i t true)
    else s
  else
    match mfind s.tim.ppsOutHigh i with
    | some t =>
      if t ≤ s.now then { s with tim := { s.tim with ppsOutHigh := mdel s.tim.ppsOutHigh i } }.emit (.ppsOut i t false) else s
    | none => s

/-! ## The lamplighter -/

/-- The device time `n` cycles from now, as the increment and the slew in force make it (R42, R44). -/
def State.ahead (s : State) (n : Nat) : Stamp :=
  let incr := s.rd Reg.TIM_INCR
  let most : Int := (n * (incr * s.slewRate / 1000000000) : Nat)
  let d : Int := if s.tim.slew > most then most else if s.tim.slew < -most then -most else s.tim.slew
  (((s.time + n * incr : Nat) : Int) + d).toNat / 2 ^ 32

/-- The interval in time-domain cycles from launch `k` to the next: 819 four times and then 820 (R51). -/
def State.lampCycles (k : Nat) : Nat := if k % 5 = 4 then 820 else 819

/-- The lamplighter launches a wick pulse at the cycle due, with the value published for it, and publishes the value of the
next one (R51). -/
def wickPulseLaunch (s : State) : State :=
  if s.tim.cycles < s.tim.lampNext then s
  else
    let n := State.lampCycles s.tim.lampLaunch
    let lamps := (List.range 129).foldl (fun m q => mput m q { (mget {} m q : LampQuad) with v := some s.tim.lampV }) s.tim.lamps
    { s with tim := { s.tim with
      lampLaunch := s.tim.lampLaunch + 1, lampNext := s.tim.lampNext + n,
      lampV := s.ahead (s.tim.lampNext + n - s.tim.cycles), lamps := lamps } }

/-- The square of a term given in 2^-16 ns, in (2^-16 ps)². -/
def sqNs (x : Nat) : Nat := (1000 * x) * (1000 * x)

/-- The square of a term given in ps, in (2^-16 ps)². -/
def sqPs (x : Nat) : Nat := (65536 * x) * (65536 * x)

/-- The square of a lane's capture half-width from the live values of Table TIME-5 (R59): `phase` is the lane's
phase-monitor term. -/
def State.wcapOf (s : State) (l phase : Nat) : Nat :=
  let q := mget ({} : LampQuad) s.tim.lamps (quadOf l)
  let res := if q.raised ≠ 0 then q.raised else q.residuals.foldl max 0
  let hi := q.samples.foldl max (q.samples.headD 0)
  let lo := q.samples.foldl min (q.samples.headD 0)
  let age := let a := 4 * s.calAge l; if s.calStaleNow l then a else min a 250
  phase * phase + sqPs 10 + sqNs res + sqNs (hi - lo).toNat + (mget {} s.unit.lanes l).termSq + sqPs age
    + sqPs (s.fld Reg.CND_PLAN F.CND_PLAN.AGE_PS) + sqNs (s.lagOf (Reg.TIM_CAL_RX l))

/-- The pulse under way arrives at quad `q`, `d` into the time-domain cycle (R52, R54, R59): the residual is spread over the
next 256 ns, or the copy reloaded; then each lane's half-width is recomputed. -/
def wickPulseArrival (q d : Nat) (phase : List Nat) (s : State) : State :=
  let lq := mget ({} : LampQuad) s.tim.lamps q
  match lq.v with
  | none => s
  | some v =>
    let delay := asInt 32 (s.fld (Reg.TIM_LAMP_DLY q) F.TIM_LAMP_DLY.DELAY)
    let e : Int := (v : Int) + delay - (s.quadCopy q + (inCycle d : Nat))
    let a := e.natAbs
    let r := Reg.TIM_LAMP_RES q
    let upd (s : State) (l : LampQuad) : State := { s with tim := { s.tim with lamps := mput s.tim.lamps q l } }
    let hist := (a :: lq.residuals).take 16
    let off := lq.off + s.spreadSoFar lq
    let s :=
      if lq.reload then
        upd (s.setFld r F.TIM_LAMP_RES.RELOADED 1)
          { lq with v := none, off := off + e, spread := 0, runAt := s.tim.run, reload := false, raised := 0, residuals := hist }
      else
        let s := s.setFld r F.TIM_LAMP_RES.RESIDUAL (ofIntW 16 (satInt 16 e))
        let s := s.setFld r F.TIM_LAMP_RES.RES_MAX (max (s.fld r F.TIM_LAMP_RES.RES_MAX) (min a 0xFFFF))
        let big := decide (65536 < a)
        let s := upd s { lq with
          v := none, off := off, spread := e, runAt := s.tim.run, reload := big, raised := if 16384 < a then a else 0, residuals := hist }
        if 16384 < a then s.raise Src.TIM_COPY_ERR (q + 256 * b2n big) else s
    ((lanesOfQuad q).zipIdx).foldl (fun s e =>
      let w := s.wcapOf e.1 (phase.getD e.2 0)
      let s := { s with tim := { s.tim with cals := mput s.tim.cals e.1 { (mget {} s.tim.cals e.1 : LaneCal) with wcapSq := w } } }
      s.setFld (Reg.TIM_CAL_STAT e.1) F.TIM_CAL_STAT.UB_LANE (ubOf w (some (0, 1)))) s

/-- A quad's echo returns after `roundTrip`, 2^-16 ns (R53). A sample within 0.5 ns of the factory value of L_q enters the mean
of the last 16, or of as many as there are (log entry 14). -/
def wickEcho (q : Nat) (roundTrip : Int) (s : State) : State :=
  let f := mget ({} : QuadRec) s.unit.quads q
  let x : Int := (roundTrip - f.turnaround) / 2 + f.asymmetry
  if 32768 < (x - f.delay).natAbs then s.raise Src.TIM_WICK_RANGE q else
  let lq := mget ({} : LampQuad) s.tim.lamps q
  let samples := (x :: lq.samples).take 16
  let mean := roundDivInt (samples.foldl (· + ·) 0) samples.length
  let d := Reg.TIM_LAMP_DLY q
  let s := { s with tim := { s.tim with lamps := mput s.tim.lamps q { lq with samples := samples } } }
  (s.setFld d F.TIM_LAMP_DLY.DELAY (ofIntW 32 mean)).setFld d F.TIM_LAMP_DLY.ECHO_COUNT (s.fld d F.TIM_LAMP_DLY.ECHO_COUNT + 1)

/-! ## Calibration -/

/-- The target of one direction of a lane whose record is `r` (R67): `dt` the change in die temperature from the factory point,
`setting` the equaliser's adaptation setting, and `replica` the octet replica's part. -/
def State.pathTarget (r : PathRec) (dt : Int) (setting : Nat) (replica : Int) : Int :=
  r.const + r.temp * dt + mget 0 r.eq setting + replica

/-- Lane `l` is re-measured (R67), PERIOD_S after it was measured last: `temp` is the die temperature in degrees, `rxSet` and
`txSet` the current adaptation settings. -/
def calRemeasure (l : Nat) (temp : Int) (rxSet txSet : Nat) (s : State) : State :=
  let due := isDue ((mget ({} : LaneCal) s.tim.cals l).measured) (s.cfgFld Reg.TIM_CAL_CFG F.TIM_CAL_CFG.PERIOD_S * second) s.now
  if !due then s
  else
    let f := mget ({} : LaneRec) s.unit.lanes l
    let rep := Reg.CND_REPLICA (if l < 512 then l / 8 else 0)
    let d : Int := asInt 32 (s.fld rep F.CND_REPLICA.DELAY) - asInt 32 (s.fld rep F.CND_REPLICA.FACTORY)
    let r := roundDivInt (f.scale * d) 65536
    let s := s.newTarget l false (State.pathTarget f.rx (temp - f.point) rxSet r)
    let s := s.newTarget l true (State.pathTarget f.tx (temp - f.point) txSet r)
    let s := { s with tim := { s.tim with cals := mput s.tim.cals l { (mget {} s.tim.cals l : LaneCal) with measured := some s.now } } }
    s.syncStale l

/-- A multiple of 15.625 ms after a second boundary has come: every in-force constant that differs from its target moves one
unit toward it (R68). -/
def calSlewStep (s : State) : State :=
  let k := s.now / (second / 64)
  if s.tim.slewedAt = some k then s
  else
    (List.range 514).foldl (fun s l =>
      if s.calLag l = 0 then s else (((s.moveConst l false).moveConst l true).syncStale l))
      { s with tim := { s.tim with slewedAt := some k } }

/-- A lane's calibration age has passed MAX_AGE_S (R70). -/
def calAgeStale (l : Nat) (s : State) : State := s.syncStale l

end Sys2Proof.Machine
end

