-- ==== Sys2Proof/Machine/Frames.lean ====
section
/-! DEFINITION. Received frames: the stamp, the head, the end, the release of the manifest and the forwarding decision
(R56, R82, R97, R100, R115, R138 to R141, R163, R379), and the witness of ingress events (R278 to R283). -/
namespace Sys2Proof.Machine
namespace State

/-! ## Witness of frames (R279 to R283) -/

/-- Whether the witness selection that governs packet `pk` records class `c` of port `p`, in its field EGR or ING (R279,
R185). Every event of the ferry path is counted as one while recorders write no records (R456). -/
def selects (s : State) (pk : Packet) (p c : Nat) (egress : Bool) : Bool :=
  (pk.ferry && s.witMuted) ||
    bitOf (s.cfgAtFld (Reg.WIT_SEL p) (if egress then F.WIT_SEL.EGR else F.WIT_SEL.ING) pk.ver pk.stamp) c

/-- The digest of a byte string under the flow key in force (R283). -/
def digest (s : State) (m : Bytes) : Nat := sipHash (s.wit.key % 2 ^ 64) (s.wit.key / 2 ^ 64) m

/-- The number of bytes a frame's digests cover (R283). -/
def digestLen (p : Packet) : Nat := min (if p.depth = 0 then p.bytes.length else p.depth) (p.bytes.length - 4)

/-- A frame digest. -/
def frameDigest (s : State) (p : Packet) : Nat := s.digest (le 1 1 ++ le 2 p.inPort ++ p.bytes.take (digestLen p))

/-- The digest of message `i` (R283). -/
def messageDigest (s : State) (p : Packet) (i : Nat) : Nat :=
  let m := digestLen p
  let b := (p.msgs.getD i (0, 0)).1
  let e := min (min (b + 64) m) (match p.msgs[i + 1]? with
    | some x => x.1
    | none => m)
  s.digest (le 1 2 ++ le 2 p.inPort ++ le 1 i ++ sub p.bytes b (e - b))

/-- A frame or message record without its INDEX (Table WIT-2). -/
def frameRec (base kind : Nat) (t : Stamp) (tq ub inPort outPort ver msg flags delta len digest : Nat) : WRec :=
  ⟨BitVec.ofNat 64 (d64 base t),
    BitVec.ofNat 64 (kind * 2 ^ 60 + (tq % 16) * 2 ^ 56 + (ub % 256) * 2 ^ 48 + (inPort % 1024) * 2 ^ 38
      + (outPort % 1024) * 2 ^ 28 + (ver % 65536) * 2 ^ 12 + (msg % 16) * 2 ^ 8 + flags % 256),
    BitVec.ofNat 64 (delta * 2 ^ 32 + (len % 65536) * 2 ^ 16), BitVec.ofNat 64 digest⟩

/-- A frame event is recorded in stream `st`, in gap class `k` where it is lost; `sel` is its selection (R279, R290). -/
def recordFrame (s : State) (st k : Nat) (t : Stamp) (sel : Bool) (r : Nat → WRec) : State :=
  if s.witMuted then s.gapCount st (if sel then k else 4) t
  else if !s.witOn then s
  else if sel then s.putRecs st k t [r (s.baseFor st 1)]
  else s.gapEvent st 4 t

/-- The stamp of message `i` of a frame (R90, R91). -/
def messageStamp (s : State) (p : Packet) (i : Nat) : Stamp :=
  let (b, lane) := p.msgs.getD i (0, p.lane)
  if b = 0 then p.stamp else
  let skew (l : Nat) : Int := asInt 32 (s.fld (Reg.SER_SKEW l) F.SER_SKEW.SKEW)
  byteTime (s.phyOf p.port) (s.fecOf p.port) p.d0 b ((p.stamp : Int) + skew lane - skew p.lane)

/-- The class a frame's ingress events are selected by (R279). -/
def ingressClass (s : State) (p : Packet) : Nat :=
  if p.clsKnown then p.cls else s.cfgAtFld (Reg.PRT_CFG p.port) F.PRT_CFG.DEF_CLASS p.ver p.stamp

/-- Where the record just written to stream `st` stands: its index and BLOCK_SEQ; index 0 where none was `written`
(Table TOW-1). -/
def lastIndex (s : State) (st : Nat) (written : Bool) : Nat × Nat :=
  if !written then (0, 0)
  else
    let seq := s.fld (Reg.WIT_STREAM_STAT st) F.WIT_STREAM_STAT.NEXT_SEQ
    let r := s.recorder st
    match r.blk with
    | some b => (1 + b.recs.length + (bigGaps r).length, seq)
    | none => (127, seq - 1)

/-- A frame's INGRESS record, with its MESSAGE records, is written once its fate and its length are known (R280, R282);
the ingress member alone records a frame of a towpath link. -/
def witnessIngress (s : State) (id : Nat) : State :=
  match mfind s.pkts id with
  | none => s
  | some p =>
    if p.witnessed || !p.decided || !p.ended || p.tow then s
    else
      let s := s.noteStale [14] id
      let st := sliceOf p.port
      let flags := 64 * b2n p.dropped + 16 * p.colour + 2 * b2n p.bypassed
      let sel := s.selects p p.port (s.ingressClass p) false
      let mk (base kind : Nat) (t : Stamp) (msg dig : Nat) : WRec :=
        frameRec base kind t p.tq p.ub p.port p.outPort p.ver msg flags 0 p.bytes.length dig
      let lost := mget 0 s.pmc.ctr (Ctr.WIT_LOST 0 st)
      let on := sel && s.witOn && !s.witMuted
      let s := s.recordFrame st 0 p.stamp sel (fun b => mk b 1 p.stamp p.msgs.length (s.frameDigest p))
      let (wi, ws) := s.lastIndex st (on && mget 0 s.pmc.ctr (Ctr.WIT_LOST 0 st) == lost)
      let msel := sel && s.cfgAtFld (Reg.WIT_SEL p.port) F.WIT_SEL.MSG p.ver p.stamp == 1
      let s := (List.range p.msgs.length).foldl (fun s i =>
        s.recordFrame st 2 (s.messageStamp p i) msel (fun b => mk b 2 (s.messageStamp p i) i (s.messageDigest p i))) s
      s.onPkt id (fun p => { p with witnessed := true, wIndex := wi, wSeq := ws })

/-- A packet with nothing left to do is forgotten: its fate is decided, its record written, its last byte in, and no
reference or processor copy of it is left. -/
def forget (s : State) (id : Nat) : State :=
  match mfind s.pkts id with
  | none => s
  | some p =>
    if p.decided && p.ended && (p.witnessed || p.tow) && p.refs == 0 && p.cpu.isEmpty && p.stage == .stored then
      { s with pkts := mdel s.pkts id }
    else s

/-- A frame is dropped on the ingress side, with the dropped flag where `flagged` (Table WIT-3). -/
def dropFrame (s : State) (id : Nat) (flagged : Bool := true) : State :=
  let s := s.onPkt id (fun p => { p with dropped := flagged, decided := true, stage := .stored })
  (s.witnessIngress id).forget id

/-! ## The version of a frame (R508) -/

/-- The version a frame stamped `t` carries: the latest one committed at or before `t`. -/
def versionAt (s : State) (t : Stamp) : Nat :=
  match (s.ver.commits.filter (fun c => decide (c.2 ≤ t))).getLast? with
  | some c => c.1
  | none => 0

/-- The device's own system id (R310); every next hop of a standalone device is local. -/
def ownSys (s : State) : Nat := s.cfgFld Reg.TOW_CFG F.TOW_CFG.SYSID

/-- The port runs in towpath mode. -/
def towPort (s : State) (p : Nat) : Bool := decide (p < 512) && s.flag (Reg.TOW_PORT_CFG p) F.TOW_PORT_CFG.EN

/-- The port is a witness export port in use (R303). -/
def exportPort (s : State) (p : Nat) : Bool :=
  s.flag Reg.WIT_EXP_CTL F.WIT_EXP_CTL.PORTS_EN && (List.range s.exportPorts).any (fun j =>
    s.fld (Reg.WIT_EXP_PORT j) F.WIT_EXP_PORT.PORT == p)

/-- PRT_STATUS(p).LINK_UP. -/
def linkUp (s : State) (p : Nat) : Bool := s.flag (Reg.PRT_STATUS p) F.PRT_STATUS.LINK_UP

/-- The port state beside its registers. -/
def portSt (s : State) (p : Nat) : PortSt := mget {} s.ports p

/-- The frames in flight of a port change by `d`. -/
def inFlight (s : State) (p : Nat) (d : Int) : State :=
  let x := s.portSt p
  { s with ports := mset {} s.ports p { x with inFlight := ((x.inFlight : Int) + d).toNat } }

/-- The lanes of a port. -/
def portLanes (s : State) (p : Nat) : List Nat :=
  if p < 512 then (List.range (lanesOfMode (s.octetMode p))).map (p + ·) else [p]

/-- A lane of the port is in loopback: the port forwards nothing from the line (Table PORT-11). -/
def loopback (s : State) (p : Nat) : Bool := (s.portLanes p).any (fun l => s.flag (Reg.SER_CFG l) F.SER_CFG.LOOPBACK)

/-- The frames a port in loopback has transmitted and not yet received again. -/
def looped (s : State) (p : Nat) : List Bytes := (s.portSt p).looped

/-- The port receives nothing now: its lanes are in loopback and no transmitted frame is on its way back (Table PORT-11). -/
def deaf (s : State) (p : Nat) : Bool := s.loopback p && (s.looped p).isEmpty

/-- The bytes of a frame that has been received: `bytes`, or in loopback the frame that was transmitted first. -/
def received (s : State) (p : Nat) (bytes : Bytes) : Bytes × State :=
  if s.loopback p then
    match s.looped p with
    | x :: r => (x, { s with ports := mset {} s.ports p { s.portSt p with looped := r } })
    | [] => (bytes, s)
  else (bytes, s)

/-- The frame of a port whose last byte has not arrived. -/
def receivingOf (s : State) (port : Nat) : Option (Nat × Packet) := s.pkts.find? (fun e => e.2.port == port && !e.2.ended)

/-! ## The forwarding decision (R138 to R141) -/

/-- A learn notice (R163, Table LOOK-11). -/
def learn (s : State) (p : Packet) (part key : Nat) (move : Bool) : State :=
  let f := crc32c (s.fld Reg.XMT_SEED F.XMT_SEED.SEED0) (le 16 key) % 4096
  let hold := s.cfgFld Reg.XMT_LEARN_CFG F.XMT_LEARN_CFG.HOLD_US * microsecond
  let seen := match mfind s.tab.filter f with
    | some x => x.1 == key && decide (s.now < x.2 + hold)
    | none => false
  if seen then s.count Ctr.XMT_LEARN_FILTERED
  else
    let s := { s with tab := { s.tab with filter := mput s.tab.filter f (key, s.now) } }
    if s.tab.learnFifo.length < 4096 then
      let base := p.stamp / second - 1
      let n := le 16 key ++ le 2 (p.port + 1024 * part + 16384 * b2n move) ++ le 2 p.ver ++ le 8 (d64 base p.stamp) ++ le 4 base
      let slot := s.tab.learnTail % 4096
      let s := { s with tab := { s.tab with learnFifo := s.tab.learnFifo ++ [n], learnTail := s.tab.learnTail + 1 } }
      let s := s.setFld Reg.XMT_LEARN_STAT F.XMT_LEARN_STAT.LEVEL s.tab.learnFifo.length
      (s.count Ctr.XMT_LEARN_NOTICE).raise Src.XMT_LEARN slot
    else
      ((s.setFld Reg.XMT_LEARN_STAT F.XMT_LEARN_STAT.OVERRUN 1).count Ctr.XMT_LEARN_LOST).raise Src.XMT_LEARN_LOST part

/-- What the lookups of a packet found: the actions of TC, EM0 and LPM in precedence order, those that hit (R138). -/
def runLookups (s : State) (p : Packet) (a b : Nat) : List Nat × State :=
  let f (x : Fld) := bits a x.hi x.lo
  let sl := parseSlice p.port
  let emKey (off : Nat) : Nat := leNat (sub p.manifest off 16)
  let (tc, s) := if f F.FWD_KEYSET_A.TC_EN = 1 then
      let g := f F.FWD_KEYSET_A.TC_GROUP
      let (r, s) := s.tcSearch g (tcKey (s.groupAt g p.ver) p.manifest (f F.FWD_KEYSET_A.TC_OFF)) p.ver sl
      (r.map (·.action), s)
    else (none, s)
  let (em0, s) := if f F.FWD_KEYSET_A.EM0_EN = 1 then
      let (r, s) := s.emLookup (f F.FWD_KEYSET_A.EM0_PART) (emKey (f F.FWD_KEYSET_A.EM0_OFF)) p.ver
      (r.map (·.action), s)
    else (none, s)
  let s := if f F.FWD_KEYSET_A.EM1_EN = 1 then
      let part := f F.FWD_KEYSET_A.EM1_PART
      let key := emKey (f F.FWD_KEYSET_A.EM1_OFF)
      let (r, s) := s.emLookup part key p.ver
      if f F.FWD_KEYSET_A.LEARN = 1 then
        match r with
        | none => s.learn p part key false
        | some e =>
          if e.immediate && actKind e.action == 5 && bits (actTarget e.action) 9 0 != p.port then s.learn p part key true else s
      else s
    else s
  let (lpm, s) := if f F.FWD_KEYSET_A.LPM_EN = 1 then
      let g := f F.FWD_KEYSET_A.LPM_GROUP
      let (r, s) := s.tcSearch g (lpmKey (s.groupAt g p.ver) p.manifest a b) p.ver sl
      (r.map (·.action), s)
    else (none, s)
  ([tc, em0, lpm].filterMap id, s)

/-- Table LOOK-3's fields of next hop `i`. -/
def nhWord0 (s : State) (i : Nat) : Nat := mget 0 s.tab.nh i % 2 ^ 64
/-- Word 1 of a next hop. -/
def nhWord1 (s : State) (i : Nat) : Nat := mget 0 s.tab.nh i / 2 ^ 64
/-- VALID of a next hop, not counting one whose memory has a double-bit error not yet restored. -/
def nhValid (s : State) (i : Nat) : Bool := bitOf (s.nhWord0 i) 19 && !(s.tab.bad.contains ⟨3, i⟩)

/-- The key set's number of a packet. -/
def keySetOf (p : Packet) : Nat := manGet p.manifest 43 40

/-- A processor copy is due for `reason`, unless one with that reason is already (R141). -/
def addCpu (p : Packet) (reason : Nat) : Packet :=
  if p.cpu.any (fun c => c.reason == reason) then p else { p with cpu := p.cpu ++ [{ reason := reason }] }

/-- The slot of group `g` that matches version `v`: slot 0 first. -/
def groupSlot (s : State) (g v : Nat) : Option GroupSlot :=
  ([0, 1].map (fun i => mget {} s.egr.groups (2 * g + i))).find? (fun x =>
    x.valid && (x.immediate || s.inRange x.vfrom x.vuntil v))

/-- The copy entries of a slot: port, next hop and NH_EN (Table LOCK-5). -/
def copyEntries (s : State) (x : GroupSlot) : List (Nat × Option Nat) :=
  (List.range x.count).map (fun i =>
    let e := mget 0 s.egr.lists (x.base + i)
    (bits e 9 0, if bitOf e 28 then some (bits e 27 10) else none))

/-- The TTL or hop limit of a packet does not allow it to go by next hop `i` (Table LOOK-3). -/
def ttlExpired (s : State) (p : Packet) (i : Nat) : Bool :=
  bitOf (s.nhWord0 i) 34 && (match ttlOf p.bytes with
    | some (_, t) => decide (t ≤ 1)
    | none => false)

/-- A multicast packet has a copy entry whose next hop its TTL does not allow. -/
def groupExpired (s : State) (p : Packet) : Bool :=
  match s.groupSlot p.group p.ver with
  | some x => (s.copyEntries x).any (fun e => match e.2 with
    | some i => s.nhValid i && s.ttlExpired p i
    | none => false)
  | none => false

/-- Forwarding to next hop `i` (R140): the packet, whether it is invalid, and whether it goes to the processor because
its TTL does not allow it. -/
def toNextHop (s : State) (p : Packet) (i : Nat) : Packet × Bool :=
  if !(s.nhValid i) then (p, true)
  else
    let w := s.nhWord0 i
    if s.ttlExpired p i then (addCpu p 0xFF, false)
    else
      let sys := bits w 18 10
      ({ p with kind := 1, outPort := bits w 9 0, nextHop := some i,
                foreign := if sys = s.ownSys then none else some sys }, false)

/-- The MISS action of a key set (R139). -/
def missAction (s : State) (p : Packet) (k a b : Nat) : Packet × State :=
  let f (x : Fld) := bits a x.hi x.lo
  let s := s.count (Ctr.FWD_MISS k)
  let m := f F.FWD_KEYSET_A.MISS
  if m = 1 then
    let s := s.count (Ctr.FWD_MISS_FLOOD k)
    let id := leAt p.manifest (bits b F.FWD_KEYSET_B.VLAN_OFF.hi F.FWD_KEYSET_B.VLAN_OFF.lo) 2 % 4096
    let e := mget 0 s.tab.vlan id
    if bitOf e 16 then ({ p with kind := 2, group := e % 65536, flood := true }, s) else (p, s)
  else if m = 2 then (addCpu { p with kind := 3 } (f F.FWD_KEYSET_A.MISS_REASON), s)
  else (p, s)

/-- A PTP message that its port's mode keeps from being forwarded goes to keeper firmware alone (R71, Table TIME-32): by a copy
its lookups ask for, or by one whose reason the spec does not state. -/
def ptpDivert (s : State) (p : Packet) : Packet × State :=
  if p.tow || !(s.ptpToKeeper p.port p.bytes) then (p, s)
  else
    let p := { p with kind := 3, outPort := 0x3FF, nextHop := none, foreign := none }
    if p.cpu.any (fun c => !(s.flag (Reg.FWD_REASON c.reason) F.FWD_REASON.DEST)) then (p, s)
    else
      let (r, s) := s.takeFree 8
      ({ p with cpu := p.cpu.take 1 ++ [{ reason := r, keeper := true }] }, s)

/-- A manifest is released, in the order of its slice, to `stage` (R100). -/
def releaseTo (s : State) (id : Nat) (p : Packet) (stage : Stage) : State :=
  { s with nextRel := s.nextRel + 1 }.setPkt id { p with stage := stage, rel := s.nextRel }

/-- The decision of R138 from the hits' actions. -/
def decide_ (s : State) (p : Packet) (hits : List Nat) (k a b : Nat) : Packet × State :=
  let p := match hits.find? actCpu with
    | some h => addCpu p (actReason h)
    | none => p
  let p := match hits.find? actMirror with
    | some h => { p with mirror := some (actSession h) }
    | none => p
  let p := match hits.find? actMeterEn with
    | some h => { p with meter := some (actMeter h) }
    | none => p
  let cls := match hits.find? actClassSet with
    | some h => actClass h
    | none => if manGet p.manifest 51 51 = 1 then manGet p.manifest 50 48
              else s.cfgAtFld (Reg.PRT_CFG p.port) F.PRT_CFG.DEF_CLASS p.ver p.stamp
  let p := { p with cls := if p.tow then p.cls else cls, clsKnown := true, kind := 0 }
  let (p, s) := match hits.find? (fun h => actKind h != 0) with
    | none => s.missAction p k a b
    | some h =>
      let t := actTarget h
      if actKind h = 1 then
        let (p, invalid) := s.toNextHop p t
        (if p.kind = 0 && !invalid then { p with kind := 3 } else p, if invalid then s.count Ctr.FWD_NH_INVALID else s)
      else if actKind h = 2 then ({ p with kind := 2, group := t % 65536 }, s)
      else if actKind h = 4 then (addCpu { p with kind := 3 } (actReason h), s)
      else if actKind h = 5 then
        let sys := bits t 18 10
        ({ p with kind := 1, outPort := bits t 9 0, foreign := if sys = s.ownSys then none else some sys }, s)
      else (p, s)
  let p := if p.kind = 2 && s.groupExpired p then addCpu p 0xFF else p
  (p, if p.kind = 0 then s.count (Ctr.FWD_DROP k) else s)

end State

open State

/-! ## The commands -/

/-- A frame's first bit after the start-of-frame delimiter crosses the receive ball of `lane`, one of the port's (R55, R56): `d`,
`phi` and `n` place the capture, and `d0` is the stamped bit's data index in its alignment-marker period (R90). -/
def frameReceive (port lane d : Nat) (phi : Int) (n d0 : Nat) (s : State) : State :=
  if !(s.portExists port) || s.portOfLane lane != port || !(s.linkUp port) || s.portHalted port || (s.portSt port).stopping || s.deaf port || s.inFerry
      || (s.receivingOf port).isSome then s
  else if s.exportPort port || s.towPort port then s.count (Ctr.PRT_RX_DISCARD port)
  else
    let t := s.rxStamp port lane d phi n
    let sl := parseSlice port
    let early := !(s.ready (16 + sl)) || !(s.ready 13)
    let ver := if early then 0 else s.versionAt t
    let id := s.nextPkt
    let prof := s.profileOf port ver t
    let depth := profDepth (s.cfgAt (Reg.PRS_PROFILE sl prof) ver t)
    let p : Packet := { port := port, lane := lane, stamp := t, tq := s.stampTq lane, ub := s.stampUb lane, ver := ver, d0 := d0,
                        profile := prof, depth := depth, inPort := port, system := s.sysId,
                        rot := s.rotOf t }
    let p := if ver = 0 then { p with depth := 0, dropped := true, decided := true, stage := .stored } else p
    let s := { s with nextPkt := id + 1 }
    let s := (s.setPkt id p).inFlight port 1
    if ver = 0 then s.count (Ctr.CFG_EARLY_DROP port) else s

/-- The frame being received on `port` has its first DEPTH bytes, `head`, or its last byte: it enters its slice's
dispatch queue, in the order of ready instants and then of rank, or is dropped where the queue holds 64 (R97, R98). -/
def frameReady (port : Nat) (head : Bytes) (s : State) : State :=
  match (s.portFrames port).find? (fun e => e.2.stage == .receiving) with
  | none => s
  | some (id, p) =>
    let head := if s.loopback port then ((s.looped port).headD []).take p.depth else head
    let bytes := if p.ended then p.bytes else head
    if !p.ended && decide (head.length < p.depth) then s
    else
      let sl := parseSlice port
      let q := s.dispatchQ sl
      let p := { p with bytes := bytes, readyAt := s.now }
      let s := s.setPkt id p
      if 64 ≤ q.length then
        ((s.count (Ctr.PRS_DISPATCH_DROP sl)).raise Src.PRS_DISPATCH_OVF port).dropFrame id
      else
        let before (x : Nat) : Bool := match mfind s.pkts x with
          | some o => !(o.readyAt == p.readyAt && decide (portRank (s.rotOf s.now) port < portRank (s.rotOf s.now) o.port))
          | none => true
        let q' := q.takeWhile before ++ [id] ++ q.dropWhile before
        let s := { s with prs := { s.prs with queues := mput s.prs.queues sl q' } }
        s.setPkt id { p with stage := .dispatch }

/-- The closed manifest of `port` with the earliest stamp passes to the lookup stage once no earlier frame of the port is
before it (R100); an exception's action may end the frame instead (R115). -/
def manifestRelease (port : Nat) (s : State) : State :=
  match s.portFrames port with
  | [] => s
  | (id, p) :: _ =>
    if p.stage ≠ .closed then s
    else if p.excAction = 1 then s.releaseTo id p .lookup
    else if p.excAction = 2 then
      let (r, s) := s.takeFree 8
      s.releaseTo id (addCpu { p with kind := 3 } r) .meter
    else s.dropFrame id

/-- The lookups of packet `id` run and combine into its forwarding decision (R135 to R141). `bad` is a memory in which
the lookups meet a double-bit error: 0 bucket entry, 1 stash entry, 2 ternary action, 3 next hop, with its index (R149). -/
def packetLookup (id : Nat) (bad : Option (Nat × Nat)) (s : State) : State :=
  match mfind s.pkts id with
  | none => s
  | some p =>
    if p.stage ≠ .lookup || !(s.inTurn id []) then s
    else
      let s := match bad with
        | some (m, i) => if m < 4 then s.meetBad m i else s
        | none => s
      let s := s.noteStale [6, 7, 8] id
      let stale := ((mfind s.pkts id).map (·.stale)).getD []
      let k := keySetOf p
      let a := s.cfgAt (Reg.FWD_KEYSET_A k) p.ver p.stamp
      let b := s.cfgAt (Reg.FWD_KEYSET_B k) p.ver p.stamp
      let (hits, s) := s.runLookups p a b
      let (p, s) := s.decide_ p hits k a b
      let (p, s) := s.ptpDivert p
      s.setPkt id { p with stage := .meter, dropped := p.kind == 0 && p.cpu.isEmpty, stale := stale }

end Sys2Proof.Machine
end

