-- ==== Sys2Proof/Machine/Delay.lean ====
section
/-! DEFINITION. The lock's delay, its minimum, when a lock is active, and the LCK fields' checks (R253 to R258, R265,
R270). -/
namespace Sys2Proof.Machine
namespace State

/-- Table LOCK-1: R_feed and the fixed parts, unicast and multicast, of a FEED_PHY code. -/
def feedRow (phy : Nat) : Option (Nat × Nat × Nat) :=
  [none, some (10, 240, 260), some (25, 200, 220), some (50, 420, 440), some (100, 360, 380), some (200, 360, 380),
    some (400, 330, 350), some (800, 330, 350), some (25, 450, 470)].getD phy none

/-- D_min, or D_min_mc, of an LCK_CLASS register's value, ns (R254); none where FEED_PHY is no row of Table LOCK-1. -/
def dminOf (v : Nat) (mc : Bool) : Option Nat :=
  match feedRow (bits v F.LCK_CLASS.FEED_PHY.hi F.LCK_CLASS.FEED_PHY.lo) with
  | some (r, u, m) =>
    some ((if mc then m else u) + ceilDiv (bits v F.LCK_CLASS.MAX_LEN.hi F.LCK_CLASS.MAX_LEN.lo * 8) r)
  | none => none

/-- The delay of class `c` at port `p` for a frame of version `ver` and ingress stamp `t`, ns (R253). -/
def lockDelay (s : State) (p c ver : Nat) (t : Stamp) : Nat :=
  if s.cfgAtFld (Reg.LCK_CLASS p c) F.LCK_CLASS.SYSTEM ver t = 1 then s.cfgAtFld (Reg.LCK_SYS_D c) F.LCK_SYS_D.D_NS ver t
  else s.cfgAtFld (Reg.LCK_CLASS p c) F.LCK_CLASS.D_NS ver t

/-- A replicated copy's delay from its group's GROUP_D, and whether it is raised (R270). -/
def copyDelay (s : State) (p c groupD ver : Nat) (t : Stamp) : Nat × Bool :=
  let m := (dminOf (s.cfgAt (Reg.LCK_CLASS p c) ver t) true).getD 0
  if groupD ≠ 0 then (max groupD m, decide (groupD < m))
  else
    let d := s.lockDelay p c ver t
    if d ≠ 0 ∧ d < m then (m, true) else (d, false)

/-- Whether the lock is active for a frame stamped `t` with effective delay `d` ns at port `p` (R258). -/
def lockFor (s : State) (p d : Nat) (t : Stamp) : Bool :=
  s.lockActive && decide (s.egr.lockSince ≤ t) && d != 0 && !(s.towPort p) && !s.inFerry

/-- The release instant a packet carries to a towpath link or came with (R265); 0 for none. -/
def carriedDeadline (p : Packet) : Stamp :=
  let d := leAt p.towHdr 8 8
  if d = 0 then 0
  else
    let ns := d / 65536
    (p.stamp / second) * second + ns * 65536 + d % 65536

/-- The release instant of a frame at port `p` with effective delay `d`: its deadline where it carries one, else its
ingress stamp plus `d`; none where its lock is not active, or for an injected frame (R249, R258, R265, R398). -/
def releaseOf (s : State) (pk : Packet) (p d : Nat) : Option Stamp :=
  if pk.inPort != 0x3FF && s.lockFor p d pk.stamp then
    let dl := if pk.tow then carriedDeadline pk else 0
    some (if dl ≠ 0 then dl else pk.stamp + d * 65536)
  else none

/-- LCK_PORT_STAT(p).ACTIVE: the classes whose lock is active now (R258). -/
def activeClasses (s : State) (p : Nat) : Nat :=
  (List.range 8).foldl (fun a c =>
    a + b2n (s.lockActive && (s.lockDelay p c (s.fld Reg.VER_STATE F.VER_STATE.CURRENT) s.now != 0) && !(s.towPort p)) * 2 ^ c) 0

/-- LCK_DMIN follows its LCK_CLASS register: the shadow's minima, and with `force` those in force (R254). A FEED_PHY that
is no row of Table LOCK-1 has no stated minimum. -/
def syncDmin (s : State) (p c : Nat) (force : Bool) : State :=
  let put (s : State) (f : Fld) (v : Option Nat) : State := match v with
    | some x => s.setFld (Reg.LCK_DMIN p c) f x
    | none => let (x, s) := s.takeFree 16; s.setFld (Reg.LCK_DMIN p c) f x
  let v := s.rd (Reg.LCK_CLASS p c)
  let s := put (put s F.LCK_DMIN.DMIN_SHADOW (dminOf v false)) F.LCK_DMIN.DMIN_MC_SHADOW (dminOf v true)
  if force then
    let w := s.cfg (Reg.LCK_CLASS p c)
    put (put s F.LCK_DMIN.DMIN_IN_FORCE (dminOf w false)) F.LCK_DMIN.DMIN_MC_IN_FORCE (dminOf w true)
  else s

/-- The port and class of an LCK_CLASS register's offset. -/
def lckClassAt (off : Nat) : Option (Nat × Nat) :=
  let o := off - 0x01100000
  if 0x01100000 ≤ off ∧ o < 0x400 * 514 ∧ 0x40 ≤ o % 0x400 ∧ o % 0x400 < 0xC0 ∧ o % 16 = 0 then
    some (o / 0x400, (o % 0x400 - 0x40) / 16)
  else none

/-- Whether class `c` of port `p` fails the checks of R256 on the shadows. -/
def lckBad (s : State) (p c : Nat) : Bool :=
  let r := Reg.LCK_CLASS p c
  let d := s.fld r F.LCK_CLASS.D_NS
  let sd := s.fld (Reg.LCK_SYS_D c) F.LCK_SYS_D.D_NS
  let off := s.fld r F.LCK_CLASS.STAMP_OFF
  let m := s.fld r F.LCK_CLASS.STAMP
  match dminOf (s.rd r) false with
  | none => true
  | some lo =>
    let inside (x : Nat) : Bool := x == 0 || decide (lo ≤ x ∧ x ≤ 20000)
    !(inside d) || (s.flag r F.LCK_CLASS.SYSTEM && !(inside sd)) || !(decide (64 ≤ s.fld r F.LCK_CLASS.MAX_LEN ∧ s.fld r F.LCK_CLASS.MAX_LEN ≤ 10240))
      || m == 3 || (m == 2 && !(decide (14 ≤ off ∧ off ≤ 248)))

/-- The checks of R256: a register that holds its reset value passes them. -/
def lckCheck (s : State) : Option (Nat × Nat) :=
  ((s.regs.filterMap (fun e => lckClassAt e.1)).find? (fun x => s.lckBad x.1 x.2)).map
    (fun x => (Src.LCK_CFG_REJECT, x.1 + 1024 * x.2))

/-- The minima in force follow an apply of LCK. -/
def lckAfter (s : State) : State :=
  ((s.stgOffs 13).filterMap lckClassAt).foldl (fun s x => s.syncDmin x.1 x.2 true) s

end State

open State

/-- A write to LCK_APPLY at instant A: the fields govern every frame stamped at or after A (R256, R257). -/
def lckApply (by_ : Agent) (v : Word64) (s : State) : State :=
  s.applyWrite by_ Reg.LCK_APPLY v.toNat 13 F.LCK_APPLY.APPLY lckCheck (fun s => .stamp s.now) lckAfter

end Sys2Proof.Machine
end

