-- ==== Sys2Proof/Machine/Queues.lean ====
section
/-! DEFINITION. Buffers, pools and queues: the free stores, admission, references, frees, the audit and back-pressure
(chapter "Buffers, Pools and Virtual Output Queues"). -/
namespace Sys2Proof.Machine
namespace State

/-! ## Pools (R194 to R196, R204) -/

/-- Granules per buffer of pool `k` (Table BUF-1). -/
def poolSize (k : Nat) : Nat := [1, 4, 8, 40].getD k 40

/-- QUE_POOL(k).BUFS. -/
def poolBufs (s : State) (k : Nat) : Nat := s.fld (Reg.QUE_POOL k) F.QUE_POOL.BUFS
/-- QUE_POOL(k).BASE. -/
def poolBase (s : State) (k : Nat) : Nat := s.fld (Reg.QUE_POOL k) F.QUE_POOL.BASE

/-- The pointer of buffer `j` of slice `sl` in pool `k` (R195). -/
def bufPtr (s : State) (sl k j : Nat) : Nat := s.poolBase k + poolSize k * (sl * s.poolBufs k + j)

/-- Whether a pointer of pool `k` passes its check (R204). -/
def ptrOk (s : State) (k ptr : Nat) : Bool :=
  decide (k < 4 ∧ s.poolBase k ≤ ptr ∧ ptr < s.poolBase k + 16 * s.poolBufs k * poolSize k)
    && (ptr - s.poolBase k) % poolSize k == 0

/-- The slice that owns the buffer a pointer names. -/
def ptrOwner (s : State) (k ptr : Nat) : Nat := (ptr - s.poolBase k) / (poolSize k * s.poolBufs k)

/-- The smallest present pool whose buffers hold `l` bytes; pool 3 where none does (R196). -/
def poolFor (s : State) (l : Nat) : Nat :=
  ([0, 1, 2, 3].find? (fun k => s.poolBufs k != 0 && decide (l ≤ 256 * poolSize k))).getD 3

/-- Whether the pool layout may start (R195). -/
def layoutOk (s : State) : Bool :=
  let span (k : Nat) : Nat := 16 * s.poolBufs k * poolSize k
  let ks := [0, 1, 2, 3]
  let overlap (i j : Nat) : Bool :=
    decide (i ≠ j ∧ s.poolBase i < s.poolBase j + span j ∧ s.poolBase j < s.poolBase i + span i ∧ 0 < span i ∧ 0 < span j)
  !(ks.any (fun i => ks.any (fun j => overlap i j))) && ks.all (fun k => decide (s.poolBase k + span k ≤ 786432 ∨ span k = 0))
    && s.poolBufs 3 != 0

/-! ## Free stores (R198) -/

/-- Slice `sl`'s free store of pool `k`. -/
def store (s : State) (sl k : Nat) : FreeStore := mget {} s.que.stores (4 * sl + k)

/-- A free store replaced. -/
def setStore (s : State) (sl k : Nat) (f : FreeStore) : State :=
  { s with que := { s.que with stores := mset {} s.que.stores (4 * sl + k) f } }

/-- FREE: the ring, the cache and pointers in transit. -/
def freeOf (f : FreeStore) : Nat := (f.size - f.fresh) + f.ring.length + f.cache.length

/-- thr_i of a store (R212). -/
def thr (s : State) (f : FreeStore) (i : Nat) : Nat :=
  let pm := if i = 1 then F.QUE_THR.PM_1 else if i = 2 then F.QUE_THR.PM_2 else F.QUE_THR.PM_3
  f.size * s.cfgFld Reg.QUE_THR pm / 1000

/-- The deepest level in force of a store whose level was `f.level` (R212). -/
def levelOf (s : State) (f : FreeStore) : Nat :=
  let free := freeOf f
  let hyst := f.size * s.cfgFld Reg.QUE_THR F.QUE_THR.HYST_PM / 1000
  let at_ (i : Nat) : Bool := decide (free < s.thr f i) || (decide (i ≤ f.level) && decide (free < s.thr f i + hyst))
  if f.size = 0 then 0 else if at_ 3 then 3 else if at_ 2 then 2 else if at_ 1 then 1 else 0

/-- A pool with a port's frames: XOFF of port `p` and class `c` holds now (R213). -/
def xoffDue (s : State) (p c : Nat) : Bool :=
  let r := Reg.QUE_PFC p
  let lv := s.cfgFld r (F.QUE_PFC.LEVEL c)
  let lv := if lv = 0 then 3 else lv
  let sl := sliceOf p
  let hold := s.cfgFld Reg.QUE_THR F.QUE_THR.HOLD_US * microsecond
  bitOf (s.cfgFld r F.QUE_PFC.EN) c && ([0, 1, 2, 3].any (fun k => decide (lv ≤ (s.store sl k).level))
    || (match (mget {} s.que.pfc (8 * p + c)).emptyAt with
        | some t => decide (s.now < t + hold)
        | none => false))

/-- XOFF of port `p` and class `c` follows its conditions; a change owes a flow-control frame (R213, R214). -/
def syncXoff (s : State) (p c : Nat) : State :=
  let x := mget {} s.que.pfc (8 * p + c)
  let b := s.xoffDue p c
  if b = x.xoff then s else { s with que := { s.que with pfc := mset {} s.que.pfc (8 * p + c) { x with xoff := b, owed := true } } }

/-- The ports of slice `sl`; the management ports are with slice 0. -/
def slicePorts (sl : Nat) : List Nat := (List.range 32).map (32 * sl + ·) ++ (if sl = 0 then [512, 513] else [])

/-- Every port and class of slice `sl` that is lossless or holds XOFF is judged again. -/
def syncPfc (s : State) (sl : Nat) : State :=
  (slicePorts sl).foldl (fun s p =>
    (List.range 8).foldl (fun s c =>
      if (mget {} s.que.pfc (8 * p + c)).xoff || bitOf (s.cfgFld (Reg.QUE_PFC p) F.QUE_PFC.EN) c then s.syncXoff p c else s) s) s

/-- A free store has changed: QUE_POOL_STAT follows, entering level 3 raises BPM_POOL_LOW, and a change of level is judged
for back-pressure (R212, R213). -/
def syncPool (s : State) (sl k : Nat) : State :=
  let f := s.store sl k
  let free := freeOf f
  let l := s.levelOf f
  let m := min f.minFree free
  let s := s.setStore sl k { f with level := l, minFree := m }
  let r := Reg.QUE_POOL_STAT sl k
  let s := ((s.setFld r F.QUE_POOL_STAT.FREE free).setFld r F.QUE_POOL_STAT.MIN_FREE m).setFld r F.QUE_POOL_STAT.LEVEL l
  let s := if l = 3 ∧ f.level < 3 then s.raise Src.BPM_POOL_LOW (sl + 16 * k) else s
  if l = f.level then s else s.syncPfc sl

/-- QUE_CTL.HALTED reads 1 only while HALT is 1, every port is halted and no buffer is in use; from then on no buffer is granted
until the pools start again (R216). -/
def syncQueHalted (s : State) : State :=
  let c := Reg.QUE_CTL
  let all := (List.range 514).all (fun p => !(s.portExists p) || s.portHalted p)
  let h := s.flag c F.QUE_CTL.HALT && s.que.bufs.isEmpty && all
  { s with que := { s.que with stopped := s.que.stopped || h } }.setFld c F.QUE_CTL.HALTED (b2n h)

/-! ## Queues (R208, R209) -/

/-- The queue of a slice toward port `p` in class `c`. -/
def voq (sl p c : Nat) : Nat := if p < 512 then 4096 * sl + 8 * p + c else 65536 + 16 * sl + 8 * (p - 512) + c

/-- The multicast queue of a slice toward egress slice `e` in class `c`. -/
def mcq (sl e c : Nat) : Nat := 65792 + 128 * sl + 8 * e + c

/-- The ingress slice a queue belongs to. -/
def queueSlice (q : Nat) : Nat := if q < 65536 then q / 4096 else if q < 65792 then (q - 65536) / 16 else (q - 65792) / 128

/-- The egress port of a unicast or management queue. -/
def queuePort (q : Nat) : Nat := if q < 65536 then q % 4096 / 8 else 512 + (q - 65536) % 16 / 8

/-- The class of a queue. -/
def queueClass (q : Nat) : Nat := q % 8

/-- A queue's descriptors, first the head. -/
def queue (s : State) (q : Nat) : List Desc := mget [] s.que.queues q

/-- A queue's descriptors replaced. -/
def setQueue (s : State) (q : Nat) (ds : List Desc) : State := { s with que := { s.que with queues := mset [] s.que.queues q ds } }

/-- used_q. -/
def usedOf (s : State) (q : Nat) : Nat := mget 0 s.que.used q

/-- used_q changed by `g` granules. -/
def useGran (s : State) (q : Nat) (g : Int) : State :=
  { s with que := { s.que with used := mset 0 s.que.used q ((s.usedOf q : Int) + g).toNat } }

/-- The admission profile of queue `q` under the fields `rd` reads. -/
def profOf (rd : Nat → Fld → Nat) (q : Nat) : Nat :=
  if q < 65792 then rd (Reg.QUE_EGR_PROF (queuePort q)) (F.QUE_EGR_PROF.PROF (queueClass q))
  else rd Reg.QUE_MCQ_PROF (F.QUE_MCQ_PROF.PROF (queueClass q))

/-- MIN of queue `q` under the fields `rd` reads. -/
def minGran (rd : Nat → Fld → Nat) (q : Nat) : Nat := rd (Reg.QUE_ADM_PROF (profOf rd q)) F.QUE_ADM_PROF.MIN_GRAN

/-- The ports whose QUE_EGR_PROF may differ from its reset value. -/
def profPorts (s : State) : List Nat :=
  let of (m : SMap Word64) : List Nat := m.filterMap (fun e =>
    if Reg.QUE_EGR_PROF 0 ≤ e.1 ∧ e.1 < Reg.QUE_EGR_PROF 514 then some ((e.1 - Reg.QUE_EGR_PROF 0) / 8) else none)
  (of s.regs ++ of s.stg.force ++ of s.stg.prev).eraseDups

/-- The sum of MIN over the existing queues of a slice (R208, R210, R216). -/
def minTotal (s : State) (rd : Nat → Fld → Nat) : Nat :=
  let m (i : Nat) : Nat := rd (Reg.QUE_ADM_PROF i) F.QUE_ADM_PROF.MIN_GRAN
  let ps := s.profPorts
  let cls := List.range 8
  (514 - ps.length) * 8 * m 0 + (ps.map (fun p => (cls.map (fun c => m (rd (Reg.QUE_EGR_PROF p) (F.QUE_EGR_PROF.PROF c)))).sum)).sum
    + 16 * (cls.map (fun c => m (rd Reg.QUE_MCQ_PROF (F.QUE_MCQ_PROF.PROF c)))).sum

/-- free_g of a slice, granules (R210). -/
def freeGran (s : State) (sl : Nat) : Nat := ([0, 1, 2, 3].map (fun k => poolSize k * freeOf (s.store sl k))).sum

/-- owed of a slice under the fields `rd` reads (R210). -/
def owed (s : State) (rd : Nat → Fld → Nat) (sl : Nat) : Nat :=
  s.minTotal rd - ((s.que.used.filter (fun e => queueSlice e.1 == sl)).map (fun e => min (minGran rd e.1) e.2)).sum

/-- The outcome of the admission of a reference (R210). -/
inductive Admit where
  | ok | headroom | queue | poolLow
  deriving DecidableEq, Repr

/-- The admission test of R210 for `g` granules in queue `q`, `taken` being the buffers already requested in this clock by pool. -/
def admitRef (s : State) (rd : Nat → Fld → Nat) (sl k q g : Nat) (lossless : Bool) (taken : List Nat) : Admit :=
  let f := s.store sl k
  if freeOf f - taken.getD k 0 < s.thr f 3 ∧ !lossless then .poolLow
  else
    let free := s.freeGran sl - ((List.range 4).map (fun j => poolSize j * taken.getD j 0)).sum
    let shared := free - s.owed rd sl
    let used := s.usedOf q
    let mn := minGran rd q
    let ov := used + g - mn
    if ov = 0 then .ok
    else
      let need := ov - (used - mn)
      let a := asInt 4 (rd (Reg.QUE_ADM_PROF (profOf rd q)) F.QUE_ADM_PROF.ALPHA_LOG2)
      let limit := if 0 ≤ a then shared * 2 ^ a.toNat else shared / 2 ^ (-a).toNat
      if ov ≤ limit ∧ need ≤ shared then .ok else if lossless then .headroom else .queue

/-! ## References (R201, R203) -/

/-- One reference of packet `id` is released; at zero the device issues the free, with its descriptor's pointer, pool and tag. -/
def releaseRef (s : State) (id : Nat) : State :=
  match mfind s.pkts id with
  | none => s
  | some p =>
    let p := { p with refs := p.refs - 1 }
    let s := s.setPkt id p
    let s :=
      if p.refs = 0 ∧ !p.leaked then
        match p.buf with
        | some ptr => { s with que := { s.que with frees := s.que.frees ++ [⟨parseSlice p.port, ptr, p.pool, p.tag⟩] } }
        | none => s
      else s
    s.forget id

/-- A reference is lost with a faulty descriptor: no free is issued for it (R204, R205). -/
def loseRef (s : State) (id : Nat) : State := (s.onPkt id (fun p => { p with leaked := true })).releaseRef id

/-- A descriptor leaves queue `q` and its granules with it. -/
def leaveQueue (s : State) (q : Nat) (d : Desc) : State :=
  (s.setQueue q ((s.queue q).erase d)).useGran q (-(d.gran : Int))

/-- Every reference of packet `id` still in a queue is dropped, with its processor copies (R86, R197). -/
def dropQueued (s : State) (id : Nat) : State :=
  let s := s.que.queues.foldl (fun s e =>
    (e.2.filter (fun d => d.pkt == id)).foldl (fun s d => (s.leaveQueue e.1 d).releaseRef id) s) s
  match mfind s.pkts id with
  | none => s
  | some p =>
    let s := p.cpu.foldl (fun s _ => (s.onPkt id (fun p => { p with cpu := p.cpu.drop 1 })).releaseRef id) s
    if p.capture.isSome then (s.onPkt id (fun p => { p with capture := none })).releaseRef id else s

/-! ## Towpath routes (R315, R328) -/

/-- TIMEOUT, 2^-16 ns (R328). -/
def towTimeout (s : State) : Stamp := 10 * (max 1 (s.cfgFld Reg.TOW_CFG F.TOW_CFG.DIAM) + 3) * microsecond

/-- Member `i` is reachable (R328). -/
def reachable (s : State) (i : Nat) : Bool :=
  s.isMember && (i == s.ownSys || (match mfind s.tow.entries i with
    | some e => decide (s.now ≤ e.seen + s.towTimeout)
    | none => false))

/-- The towpath port toward member `d`, or its alternate; none where the frame cannot be sent, the route's fields being
read by `rd` (R315). -/
def routeVia (s : State) (d : Nat) (rd : Fld → Nat) : Option Nat :=
  if rd F.TOW_ROUTE.EN = 0 || !(s.reachable d) then none
  else
    let p := rd F.TOW_ROUTE.PORT
    let a := rd F.TOW_ROUTE.ALT_PORT
    if s.towPort p && s.linkUp p then some p
    else if rd F.TOW_ROUTE.ALT_EN = 1 && s.towPort a && s.linkUp a then some a else none

/-- The towpath port toward member `d` by the values in force. -/
def routePort (s : State) (d : Nat) : Option Nat := s.routeVia d (s.cfgFld (Reg.TOW_ROUTE d))

/-- The towpath port toward member `d` for a packet, by the values that govern it (R185, R315). -/
def routeFor (s : State) (d ver : Nat) (t : Stamp) : Option Nat :=
  s.routeVia d (fun f => s.cfgAtFld (Reg.TOW_ROUTE d) f ver t)

/-- TOW_ROUTE(d).USING_ALT. -/
def usingAlt (s : State) (d : Nat) : Bool :=
  match s.routePort d with
  | some p => p != s.cfgFld (Reg.TOW_ROUTE d) F.TOW_ROUTE.PORT
  | none => false

/-! ## Admission (R196, R210, R211) -/

/-- The bytes the stamp trailer of class `c` adds at port `p` (R273). -/
def trailerLen (s : State) (p c ver : Nat) (t : Stamp) : Nat :=
  if s.cfgAtFld (Reg.LCK_CLASS p c) F.LCK_CLASS.STAMP ver t = 1 then 16 else 0

/-- The length L_sel begins with: DECL_LEN, or the ingress port's MTU (R196). -/
def declLen (s : State) (pk : Packet) : Nat :=
  if manGet pk.manifest 30 30 = 1 then manGet pk.manifest 29 16
  else s.cfgAtFld (Reg.PRT_CFG pk.port) F.PRT_CFG.MTU pk.ver pk.stamp

/-- The bytes that the rewrite of next hop `nh` adds or removes (R140). -/
def nhDelta (s : State) (pk : Packet) : Option Nat → Int
  | some i => s.rewriteDelta i pk.cls (s.declLen pk) pk.bytes
  | none => 0

/-- The bytes that a copy to port `p` with next hop `nh` gains, its trailer included (R196, R273). -/
def adjustOf (s : State) (pk : Packet) (p : Nat) (nh : Option Nat) : Int :=
  s.nhDelta pk nh + ((if s.towPort p then 0 else s.trailerLen p pk.cls pk.ver pk.stamp : Nat) : Int)

/-- L_sel of a copy to port `p` with next hop `nh` (R196, R273). -/
def lselOf (s : State) (pk : Packet) (p : Nat) (nh : Option Nat) : Nat := ((s.declLen pk : Int) + s.adjustOf pk p nh).toNat

/-- A reference a packet would hold: its queue, kind and port. -/
structure RefReq where
  queue : Nat
  kind : CopyKind
  port : Nat
  deriving DecidableEq, Repr

/-- A port that takes ordinary copies: one that exists, in neither towpath mode nor witness export (R303, R310). -/
def takesCopies (s : State) (p : Nat) : Bool := s.portExists p && !(s.towPort p) && !(s.exportPort p)

/-- The references the original of a packet asks for, its kind being unicast or multicast (R138, R267, R269, R314). -/
def originalRefs (s : State) (p : Packet) : List RefReq × State :=
  let sl := parseSlice p.port
  if p.dropped || (p.ended && p.bad) then ([], s)
  else if p.kind = 1 then
    match p.foreign with
    | some d =>
      match s.routeFor d p.ver p.stamp with
      | some r => ([⟨voq sl r p.cls, .unicast, r⟩], s)
      | none => ([], s.count Ctr.TOW_UNREACH_DROP)
    | none =>
      if !(s.ready (16 + sliceOf p.outPort)) then ([], s.count (Ctr.CFG_EARLY_DROP p.port))
      else if s.takesCopies p.outPort then ([⟨voq sl p.outPort p.cls, .unicast, p.outPort⟩], s)
      else ([], if p.tow then s.count Ctr.TOW_UNREACH_DROP else s)
  else if p.kind = 2 then
    match s.groupSlot p.group p.ver with
    | none => ([], s.count Ctr.FWD_REPL_NONE)
    | some x =>
      ((List.range 16).filterMap (fun e => if bitOf x.mask e && s.ready (16 + e) then some ⟨mcq sl e p.cls, .multicast, e⟩ else none), s)
  else ([], s)

/-- Whether mirror session `i` writes packet `p` to the capture ring (R185, R423). -/
def captures (s : State) (i : Nat) (p : Packet) : Bool :=
  s.cfgAtFld Reg.HBM_CAP_CFG F.HBM_CAP_CFG.EN p.ver p.stamp == 1 &&
    bitOf (s.cfgAtFld Reg.HBM_CAP_CFG F.HBM_CAP_CFG.SESSIONS p.ver p.stamp) i

/-- The mirror session whose copy of a packet goes to the capture ring, if one does (R423). -/
def captureOf (s : State) (p : Packet) : Option Nat :=
  match p.mirror with
  | none => none
  | some i => if s.flag (Reg.FWD_MIRROR i) F.FWD_MIRROR.EN && !(p.ended && p.bad) && s.captures i p then some i else none

/-- The reference of a packet's mirror copy (R141). -/
def mirrorRefs (s : State) (p : Packet) : List RefReq × State :=
  match p.mirror with
  | none => ([], s)
  | some i =>
    let r := Reg.FWD_MIRROR i
    let q := s.fld r F.FWD_MIRROR.PORT
    if s.captures i p && s.flag r F.FWD_MIRROR.EN && !(p.ended && p.bad) then ([], s.count (Ctr.FWD_MIRROR (keySetOf p)))
    else if !(s.flag r F.FWD_MIRROR.EN) || (p.ended && p.bad) || !(s.takesCopies q) then ([], s)
    else ([⟨voq (parseSlice p.port) q p.cls, .mirror i, q⟩], s.count (Ctr.FWD_MIRROR (keySetOf p)))

/-- L_sel by which a packet's buffer is chosen: with the largest adjustment any entry of a multicast list makes (R196); a frame
for another member gains no trailer here. -/
def bufferLen (s : State) (p : Packet) : Nat :=
  let d : Int :=
    if p.kind = 2 then
      match (s.groupSlot p.group p.ver).map s.copyEntries with
      | some (e :: es) => es.foldl (fun a x => max a (s.adjustOf p x.1 x.2)) (s.adjustOf p e.1 e.2)
      | _ => 0
    else if p.kind = 1 then (if p.foreign.isSome then s.nhDelta p p.nextHop else s.adjustOf p p.outPort p.nextHop)
    else 0
  ((s.declLen p : Int) + d).toNat

/-- A packet in its slot of the core clock, with what of it has been admitted. -/
structure Want where
  id : Nat
  slot : Nat
  pool : Nat
  refs : List RefReq
  cpu : Nat
  capture : Option Nat
  lossless : Bool
  rel : Nat
  deriving DecidableEq, Repr

/-- A packet inserted by the order of its manifest's release (R209). -/
def byRelease (w : Want) : List Want → List Want
  | [] => [w]
  | x :: r => if w.rel < x.rel then w :: x :: r else x :: byRelease w r

/-- The admission of one packet's references; those admitted are counted into used_q (R210). -/
def admitPacket (s : State) (id slot : Nat) (p : Packet) (taken : List Nat) : Want × State :=
  let sl := parseSlice p.port
  let s := s.noteStale [11, 13, 15, 16] id
  let k := s.poolFor (s.bufferLen p)
  let g := poolSize k
  let rd (o : Nat) (f : Fld) : Nat := s.cfgAtFld o f p.ver p.stamp
  let lossless := bitOf (rd (Reg.QUE_PFC p.port) F.QUE_PFC.EN) p.cls
  let (orig, s) := s.originalRefs p
  let (mir, s) := s.mirrorRefs p
  let (ok, s) := (orig ++ mir).foldl (fun (a : List RefReq × State) r =>
    match a.2.admitRef rd sl k r.queue g lossless taken with
    | .ok => (a.1 ++ [r], a.2.useGran r.queue g)
    | .headroom => (a.1 ++ [r], (a.2.useGran r.queue g).count (Ctr.QUE_HEADROOM_USE sl))
    | .queue => (a.1, a.2.count (Ctr.QUE_DROP_QUEUE r.queue))
    | .poolLow => (a.1, a.2.count (Ctr.QUE_DROP_POOL_LOW r.queue))) ([], s)
  (⟨id, slot, k, ok, (if p.ended && p.bad then 0 else p.cpu.length) + b2n (s.captureOf p).isSome, s.captureOf p, lossless, p.rel⟩, s)

/-- The order of the three slots that begins at `g` (R199). -/
def rotation (g : Nat) : List Nat := [g % 3, (g + 1) % 3, (g + 2) % 3]

/-- A packet gets no buffer or asks for none: its references and processor copies are gone (R210). -/
def refuseWant (s : State) (w : Want) (empty : Bool) : State :=
  match mfind s.pkts w.id with
  | none => s
  | some p =>
    let sl := parseSlice p.port
    let s := w.refs.foldl (fun s r => s.useGran r.queue (-(poolSize w.pool : Int))) s
    let s := if empty then s.count (Ctr.QUE_POOL_EMPTY (4 * sl + w.pool)) else s
    let s := if empty && w.lossless then
        let i := 8 * p.port + p.cls
        let x := mget {} s.que.pfc i
        ({ s with que := { s.que with pfc := mset {} s.que.pfc i { x with emptyAt := some s.now } } }).syncXoff p.port p.cls
      else s
    let s := s.setPkt w.id { p with dropped := !p.sentCpu, decided := true, stage := .stored, cpu := [], capture := none }
    (s.witnessIngress w.id).forget w.id

/-- A pointer of the cache of slice `sl` and pool `k` is taken — which one the spec does not say —, and its granules are
marked in use with their tag and `n` references: the pointer and the tag (R199 to R202). -/
def takePtr (s : State) (sl k n : Nat) : Option (Nat × Nat) × State :=
  let f := s.store sl k
  let (x, s) := s.takeFree 16
  match f.cache[x % f.cache.length]? with
  | none => (none, s)
  | some ptr =>
    let seq := mget 0 s.que.seq sl
    let s := s.setStore sl k { f with cache := f.cache.erase ptr }
    (some (ptr, sl * 4096 + seq), { s with que := { s.que with
      bufs := mput s.que.bufs ptr ⟨k, sl, sl * 4096 + seq, n⟩,
      seq := mset 0 s.que.seq sl ((seq + 1) % 4096) } })

/-- A granted packet takes its buffer (R199 to R202). -/
def takeBuffer (s : State) (w : Want) : State :=
  match mfind s.pkts w.id with
  | none => s
  | some p =>
    match s.takePtr (parseSlice p.port) w.pool (w.refs.length + w.cpu) with
    | (none, s) => s
    | (some (ptr, tag), s) => s.setPkt w.id { p with buf := some ptr, pool := w.pool, tag := tag }

/-- A packet that has its buffer enters its queues (R201, R209). -/
def grantWant (s : State) (w : Want) : State :=
  match mfind s.pkts w.id with
  | none => s
  | some p =>
    let n := w.refs.length + w.cpu
    let s := w.refs.foldl (fun s r =>
      (s.setQueue r.queue (s.queue r.queue ++ [⟨w.id, r.kind, r.port, poolSize w.pool⟩])).count (Ctr.QUE_ENQ r.queue)) s
    let lost := !(w.refs.any (fun r => r.kind == .unicast || r.kind == .multicast)) && p.cpu.isEmpty && !p.sentCpu
    let s := s.setPkt w.id { p with
      refs := n, decided := true, stage := .stored, dropped := n == 0 && !p.sentCpu, capture := w.capture.map (fun i => (i, lost)) }
    s.witnessIngress w.id

/-- Whether a unicast packet is forwarded cut-through (R83, R85). -/
def cutThrough (s : State) (p : Packet) (w : Want) : Bool :=
  match w.refs.find? (fun r => r.kind == .unicast) with
  | none => false
  | some r =>
    s.flag (Reg.PRT_CFG p.port) F.PRT_CFG.CT_EN && decide (p.port < 512 ∧ r.port < 512)
      && decide (s.portRate r.port ≤ s.portRate p.port) && (s.queue r.queue).isEmpty && p.bypassed

/-- The buffer that holds packet `p`, in bytes. -/
def bufBytes (s : State) (p : Packet) : Option Nat :=
  match p.buf with
  | some ptr => (mfind s.que.bufs ptr).map (fun b => 256 * poolSize b.pool)
  | none => none

/-- A stored frame is longer than its buffer (R197). -/
def tooLong (s : State) (id : Nat) : Bool :=
  match mfind s.pkts id with
  | none => false
  | some p => match s.bufBytes p with
    | some n => decide (n < p.bytes.length)
    | none => false

/-- A stored frame longer than its buffer is ended at the buffer's end, in error (R197); it is counted once, here or in
PRT_RX_ERR (R507). -/
def lengthCheck (s : State) (id : Nat) : State :=
  match mfind s.pkts id with
  | none => s
  | some p =>
    match s.bufBytes p with
    | some n =>
      if p.bytes.length ≤ n then s
      else
        let s := if p.rxErr then s else s.count (Ctr.QUE_LEN_OVER p.port)
        s.setPkt id { p with bytes := p.bytes.take n, bad := true }
    | none => s

/-! ## The capture staging (R423 to R425) -/

/-- The bytes of a capture entry: its header (Table MEM-4), CAP_LEN frame bytes, and zeros to a multiple of 64. -/
def captureBytes (s : State) (i : Nat) (lost : Bool) (p : Packet) : Bytes :=
  let trunc := s.fld (Reg.FWD_MIRROR i) F.FWD_MIRROR.TRUNC
  let len := p.bytes.length
  let cap := if trunc ≠ 0 ∧ trunc < len then trunc else len
  let out := if p.kind = 1 ∧ !lost then p.outPort else 0x3FF
  le 12 (d96 p.stamp) ++ le 1 p.tq ++ le 1 p.ub ++ le 2 p.ver ++ le 2 p.port ++ le 2 out ++ le 1 i
    ++ le 1 (p.colour + 4 * b2n lost) ++ le 2 len ++ le 2 cap ++ zeros 6 ++ le 8 s.hbm.capSeq ++ zeros 24
    ++ p.bytes.take cap ++ zeros (64 * ceilDiv cap 64 - cap)

/-- The bytes the capture staging holds. -/
def captureHeld (s : State) : Nat := s.hbm.capStaging.foldl (fun a e => a + e.data.length) 0

/-- A capture entry takes its place in order of ingress stamp, equal stamps by rank (R27, R28, R424). -/
def captureInsert (e : CapEntry) (l : List CapEntry) : List CapEntry :=
  let before (x : CapEntry) : Bool := decide (x.stamp < e.stamp ∨ (x.stamp = e.stamp ∧ x.rank ≤ e.rank))
  l.takeWhile before ++ [e] ++ l.dropWhile before

/-- The capture copy of a whole frame enters the staging, or is discarded where the staging is full or frozen, and its
buffer reference is released (R423, R425). -/
def captureStage (s : State) (id : Nat) : State :=
  match mfind s.pkts id with
  | none => s
  | some p =>
    match p.capture with
    | none => s
    | some (i, lost) =>
      if !p.ended || p.stage != .stored then s
      else
        let s := s.onPkt id (fun p => { p with capture := none })
        let s :=
          if p.bad then s
          else
            let data := s.captureBytes i lost p
            let full := s.flag Reg.HBM_CAP_CFG F.HBM_CAP_CFG.FREEZE || decide (262144 < s.captureHeld + data.length)
            let h := { s.hbm with capSeq := s.hbm.capSeq + 1 }
            if full then { s with hbm := h }.count Ctr.HBM_CAP_DROP
            else { s with hbm := { h with capStaging := captureInsert ⟨p.stamp, portRank p.rot p.port, data⟩ h.capStaging } }
        s.releaseRef id

/-- The processor copies of a stored packet that go to keeper firmware are passed to it once the frame is whole, and their
references are released (R141, R201). -/
def passKeeper (s : State) (id : Nat) : State :=
  match mfind s.pkts id with
  | none => s
  | some p =>
    if p.stage ≠ .stored || !p.ended then s
    else (p.cpu.filter (·.keeper)).foldl (fun s c =>
      let s := s.emit (.keeperCopy c.reason p.inPort p.tq p.ub p.ver p.stamp p.manifest p.bytes)
      let s := s.count (Ctr.FWD_CPU (keySetOf p))
      (s.onPkt id (fun p => { p with cpu := p.cpu.erase c, sentCpu := true })).releaseRef id) s

/-- A store-and-forward frame in error is dropped (R86, R197). -/
def dropBad (s : State) (id : Nat) : State :=
  match mfind s.pkts id with
  | none => s
  | some p =>
    if p.ended && p.bad && !p.cut && p.stage == .stored then
      let s := s.setPkt id { p with dropped := !p.sentCpu }
      ((s.dropQueued id).witnessIngress id).forget id
    else s

end State

open State

/-! ## The commands -/

/-- In one core clock, slice `sl` admits the packets in its three slots in rotation order and its allocator grants buffers
to those with an admitted reference, pool by pool (R199, R210, R211). -/
def bufferAdmit (sl : Nat) (p0 p1 p2 : Option Nat) (s : State) : State :=
  let at_ (i : Nat) : Option (Nat × Packet) :=
    match [p0, p1, p2].getD i none with
    | none => none
    | some id =>
      match mfind s.pkts id with
      | some p =>
        if p.stage == .accept && parseSlice p.port == sl && s.inTurn id ([p0, p1, p2].filterMap (·)) then some (id, p) else none
      | none => none
  let dup := (p0.isSome && (p0 == p1 || p0 == p2)) || (p1.isSome && p1 == p2)
  match if dup then none else (List.range 3).findSome? at_ with
  | none => s
  | some (_, first) =>
    let start := (s.store sl (s.poolFor (s.bufferLen first))).grantPtr
    let (ws, _, s) := (rotation start).foldl (fun (a : List Want × List Nat × State) i =>
      match at_ i with
      | none => a
      | some (id, p) =>
        let (ws, taken, s) := a
        let (w, s) := s.admitPacket id i p taken
        let n := if w.refs.isEmpty && w.cpu == 0 then 0 else 1
        (ws ++ [w], taken.set w.pool (taken.getD w.pool 0 + n), s)) ([], [0, 0, 0, 0], s)
    let asks (w : Want) : Bool := !(w.refs.isEmpty && w.cpu == 0)
    let (yes, s) := (List.range 4).foldl (fun (a : List Want × State) k =>
      let (yes, s) := a
      let f := s.store sl k
      let rs := (rotation f.grantPtr).filterMap (fun i => ws.find? (fun w => w.slot == i && w.pool == k && asks w))
      let n := if s.que.stopped then 0 else f.cache.length
      let granted := rs.take n
      let ptr := match granted.getLast? with
        | some w => (w.slot + 1) % 3
        | none =>
          match rs with
          | w :: _ => (w.slot + 1) % 3
          | [] => f.grantPtr
      (yes ++ granted, s.setStore sl k { f with grantPtr := ptr })) ([], s)
    let s := yes.foldl takeBuffer s
    let s := (ws.foldl (fun l w => byRelease w l) []).foldl (fun s w =>
      if yes.any (fun y => y.id == w.id) then
        let s := s.onPkt w.id (fun p =>
          let lk := match w.refs.find? (fun r => r.kind == .unicast) with
            | some r => (s.releaseOf p r.port (s.lockDelay r.port p.cls p.ver p.stamp)).isSome
            | none => s.lockActive
          { p with bypassed := !lk })
        let s := s.onPkt w.id (fun p => { p with cut := s.cutThrough p w })
        ((((s.grantWant w).lengthCheck w.id).dropBad w.id).captureStage w.id).passKeeper w.id
      else s.refuseWant w (asks w)) s
    [0, 1, 2, 3].foldl (fun s k => s.syncPool sl k) s

/-- A free-pointer cache below 128 is refilled from its ring in a burst of up to 128 (R198); entry `bad` of the burst has
an uncorrectable error and is discarded (R205). -/
def cacheRefill (sl k : Nat) (bad : Option Nat) (s : State) : State :=
  let f := s.store sl k
  if 128 ≤ f.cache.length then s
  else
    let fresh := ((List.range (min 128 (f.size - f.fresh))).map (fun i => s.bufPtr sl k (f.fresh + i)))
    let back := f.ring.take (128 - fresh.length)
    let burst := fresh ++ back
    let f := { f with fresh := f.fresh + fresh.length, ring := f.ring.drop back.length }
    match bad.bind (fun i => burst[i]?) with
    | some x =>
      let s := s.setStore sl k { f with cache := f.cache ++ burst.filter (· != x) }
      let s := { s with que := { s.que with orphans := s.que.orphans ++ [(sl, k, x)] } }
      (s.raise Src.BPM_RING_ECC (sl + 16 * k)).syncPool sl k
    | none => s.setStore sl k { f with cache := f.cache ++ burst }

/-- A free-pointer cache above 448 spills a burst of 128 to its ring (R198); which pointers go the spec does not say. -/
def cacheSpill (sl k : Nat) (s : State) : State :=
  let f := s.store sl k
  if f.cache.length ≤ 448 then s
  else
    let (x, s) := s.takeFree 16
    let n := x % f.cache.length
    let c := f.cache.drop n ++ f.cache.take n
    s.setStore sl k { f with cache := c.drop 128, ring := f.ring ++ c.take 128 }

/-- A free is presented by slice `sl` with a pointer, a pool and a tag, and is accepted or rejected (R203, R204,
Table BUF-2). -/
def bufferFree (sl ptr pool tag : Nat) (s : State) : State :=
  let r : FreeReq := ⟨sl, ptr, pool, tag⟩
  let s := { s with que := { s.que with frees := s.que.frees.erase r } }
  if !(s.ptrOk pool ptr) then s.raise Src.BPM_PTR (ptr + 2 ^ 20 * pool + 2 ^ 22 * sl)
  else
    let reject (kind : Nat) : State :=
      (s.count (Ctr.QUE_FREE_REJECT kind sl)).raise Src.BPM_FREE_ERR (ptr + 2 ^ 20 * pool + 2 ^ 22 * kind + 2 ^ 24 * sl)
    match mfind s.que.bufs ptr with
    | none => reject 0
    | some b =>
      if b.tag ≠ tag then reject 1
      else
        let own := s.ptrOwner pool ptr
        let f := s.store own pool
        let s := { s with que := { s.que with bufs := mdel s.que.bufs ptr } }
        ((s.setStore own pool { f with cache := f.cache ++ [ptr] }).syncPool own pool).syncQueHalted

/-- The places a reference can stand, by packet (R206). -/
def State.referenced (s : State) : List Nat :=
  s.que.queues.flatMap (fun e => e.2.map (·.pkt)) ++ s.egr.replicas.map (·.pkt)
    ++ s.egr.ports.flatMap (fun e =>
      (e.2.offers ++ e.2.crossing ++ e.2.staging ++ e.2.fifo ++ e.2.due ++ (match e.2.sending with
        | some x => [x.copy]
        | none => [])).map (·.pkt))
    ++ s.pkts.filterMap (fun e => if e.2.cpu.isEmpty && e.2.capture.isNone then none else some e.1)

/-- A buffer or an orphan returns to its owning ring (R207). -/
def State.reclaim (s : State) (sl k ptr : Nat) : State :=
  let f := s.store sl k
  ((s.setStore sl k { f with ring := f.ring ++ [ptr] }).count (Ctr.QUE_RECLAIMED sl)).syncPool sl k

/-- The period of the audit: PERIOD_MS in its range (Table BUF-8). -/
def State.auditPeriod (s : State) : Stamp := clamp 10 10000 (s.fld Reg.QUE_AUDIT_CFG F.QUE_AUDIT_CFG.PERIOD_MS) * millisecond

/-- One pass of the leaked-buffer audit, a period after the last: marking and comparison, and what it found returned where
RECLAIM is 1 (R206, R207). -/
def auditPass (s : State) : State :=
  let c := Reg.QUE_AUDIT_CFG
  if !(s.flag c F.QUE_AUDIT_CFG.EN) || decide (s.que.auditAt ≤ s.now ∧ s.now < s.que.auditAt + s.auditPeriod) then s
  else
    let s := { s with que := { s.que with auditAt := s.now } }
    let live := s.referenced
    let marked := s.pkts.filterMap (fun e => if live.contains e.1 then e.2.buf else none) ++ s.que.frees.map (·.ptr)
    let un := s.que.bufs.filter (fun e => !(marked.contains e.1))
    let leaks : SMap Buf := un.filter (fun e => mfind s.que.unmarked e.1 == some e.2.tag)
    let again := s.flag c F.QUE_AUDIT_CFG.RECLAIM
    let st := Reg.QUE_AUDIT_STAT
    let s := { s with que := { s.que with unmarked := un.map (fun e => (e.1, e.2.tag)) } }
    let s : State := leaks.foldl (fun s e =>
      let own := s.ptrOwner e.2.pool e.1
      let s := (((s.setFld st F.QUE_AUDIT_STAT.LEAK 1).setFld st F.QUE_AUDIT_STAT.LEAK_POOL e.2.pool).setFld st
        F.QUE_AUDIT_STAT.LEAK_SLICE own).setFld st F.QUE_AUDIT_STAT.LEAK_PTR e.1
      let s := (s.count (Ctr.QUE_LEAKS own)).raise Src.BPM_LEAK (e.1 + 2 ^ 20 * e.2.pool + 2 ^ 22 * own)
      if again then
        let s := { s with que := { s.que with bufs := mdel s.que.bufs e.1, unmarked := mdel s.que.unmarked e.1 } }
        s.reclaim own e.2.pool e.1
      else s) s
    let s : State := s.que.orphans.foldl (fun s o =>
      let s := s.count (Ctr.QUE_ORPHANS o.1)
      if again then s.reclaim o.1 o.2.1 o.2.2 else s) s
    let s := if again then { s with que := { s.que with orphans := [] } } else s
    (s.setFld st F.QUE_AUDIT_STAT.PASSES (s.fld st F.QUE_AUDIT_STAT.PASSES + 1)).syncQueHalted

/-- The free store of slice `sl` and pool `k` as the pools start: its ring holds every buffer of the layout that is not in use. -/
def State.startStore (s : State) (sl k : Nat) : FreeStore :=
  let n := s.poolBufs k
  if s.que.bufs.isEmpty then { size := n, minFree := n }
  else
    let ring := ((List.range n).map (s.bufPtr sl k)).filter (fun x => (mfind s.que.bufs x).isNone)
    { size := n, fresh := n, ring := ring, minFree := ring.length }

/-- The pools start, unless the layout is refused: every ring is rebuilt from it, and back-pressure is judged anew (R195, R198,
R213, R216). -/
def State.startPools (s : State) : State :=
  let c := Reg.QUE_CTL
  if !s.layoutOk then s.raise Src.QUE_CFG_REJECT 1
  else
    let s := (s.setFld c F.QUE_CTL.HALT 0).setFld c F.QUE_CTL.HALTED 0
    let s := { s with que := { s.que with orphans := [], unmarked := [], stopped := false } }
    let s := (List.range 64).foldl (fun s i => s.setStore (i / 4) (i % 4) (s.startStore (i / 4) (i % 4))) s
    let s := (List.range 64).foldl (fun s i => s.syncPool (i / 4) (i % 4)) s
    (List.range 16).foldl syncPfc s

/-- A write of QUE_CTL (R195, R216): HALT 1 asks the pools to halt; HALT 0 checks the layout and starts the pools with
every ring rebuilt from it, or is refused. -/
def queHaltWrite (by_ : Agent) (v : Word64) (s : State) : State :=
  s.accept by_ Reg.QUE_CTL (fun s =>
    let c := Reg.QUE_CTL
    if bitOf v.toNat 0 then (s.setFld c F.QUE_CTL.HALT 1).syncQueHalted
    else if !(s.flag c F.QUE_CTL.HALT) then s
    else s.startPools)

/-- The checks of R216 on the shadows of QUE. -/
def State.queCheck (s : State) : Option (Nat × Nat) :=
  let rd (o : Nat) (f : Fld) : Nat := s.fld o f
  let limit := ([0, 1, 2, 3].map (fun k => s.poolBufs k * poolSize k)).sum
  let pm (f : Fld) : Nat := s.fld Reg.QUE_THR f
  let alpha (i : Nat) : Int := asInt 4 (s.fld (Reg.QUE_ADM_PROF i) F.QUE_ADM_PROF.ALPHA_LOG2)
  if limit < 2 * s.minTotal rd || (List.range 16).any (fun i => decide (3 < alpha i))
    || !(decide (pm F.QUE_THR.PM_2 < pm F.QUE_THR.PM_1 ∧ pm F.QUE_THR.PM_3 < pm F.QUE_THR.PM_2 ∧ 0 < pm F.QUE_THR.PM_3)) then
    some (Src.QUE_CFG_REJECT, 0)
  else none

/-- What follows an apply of QUE: levels and back-pressure are judged by the new thresholds. -/
def State.queAfter (s : State) : State :=
  (List.range 16).foldl (fun s sl => (s.que.stores.filter (fun e => e.1 / 4 == sl)).foldl (fun s e => s.syncPool sl (e.1 % 4)) (s.syncPfc sl)) s

/-- A write to QUE_APPLY (R216). -/
def queApply (by_ : Agent) (v : Word64) (s : State) : State :=
  s.applyWrite by_ Reg.QUE_APPLY v.toNat 11 F.QUE_APPLY.APPLY State.queCheck (fun _ => .pipeline) State.queAfter

/-! ## Flow control sent (R213, R214) -/

/-- The flow-control frame of a port with times for the classes in `cls` (R214). -/
def State.pfcFrame (s : State) (p : Nat) (cls : List Nat) : Bytes :=
  let q := s.cfgFld (Reg.QUE_PFC p) F.QUE_PFC.QUANTA
  let (src, _) := s.takeFree 48
  let body := be 6 0x0180C2000001 ++ le 6 src ++ be 2 0x8808 ++ be 2 0x0101
    ++ be 2 (cls.foldl (fun a c => a + 2 ^ c) 0)
    ++ (List.range 8).flatMap (fun c => be 2 (if cls.contains c && (mget {} s.que.pfc (8 * p + c)).xoff then q else 0))
  withFcs (body ++ zeros (60 - body.length)) false

/-- The port sends frames: its link is up, and it is enabled and not halted nor about to be (R92). -/
def State.maySend (s : State) (p : Nat) : Bool :=
  s.linkUp p && !(s.portHalted p) && !(s.portSt p).stopping && (decide (512 ≤ p) || s.flag (Reg.PRT_CFG p) F.PRT_CFG.EN)

/-- Towpath frames that go ahead of every queued frame begin once the port is free of the frame in transmission and of any flow-control
frame that is due (R318). -/
def State.flushAhead (s : State) (p : Nat) : State :=
  let e := mget {} s.egr.ports p
  let owes := (List.range 8).any (fun k => (mget {} s.que.pfc (8 * p + k)).owed)
  if e.sending.isSome || owes then s
  else
    e.ahead.foldl (fun s f =>
      let e := mget {} s.egr.ports p
      let t := max s.now e.freeAt
      let s := s.emit (.frame p t f)
      { s with egr := { s.egr with ports := mset {} s.egr.ports p { e with freeAt := t + s.byteSpan p (f.length + 20) } } })
      { s with egr := { s.egr with ports := mset {} s.egr.ports p { e with ahead := [] } } }

/-- Port `p` is to send a towpath frame of its own ahead of every queued frame (R318). -/
def State.sendAhead (s : State) (p : Nat) (f : Bytes) : State :=
  if !(s.maySend p) then s
  else
    let e := mget {} s.egr.ports p
    State.flushAhead { s with egr := { s.egr with ports := mset {} s.egr.ports p { e with ahead := e.ahead ++ [f] } } } p

/-- A flow-control frame is sent on port `p` for the classes that owe one, at the first transmit slot once the port is free, ahead of
every queued frame; it holds the port for its 64 bytes and the gap behind them (R56, R214, R252). -/
def pfcFrameTransmit (p lane d n : Nat) (s : State) : State :=
  let cls := (List.range 8).filter (fun c => (mget {} s.que.pfc (8 * p + c)).owed)
  let e := mget {} s.egr.ports p
  let t := s.txStamp p lane d n
  if s.inFerry || cls.isEmpty || e.sending.isSome || !(s.maySend p) || s.portOfLane lane != p || t < s.now || t < e.freeAt then s
  else
    let s := (s.emit (.frame p t (s.pfcFrame p cls))).takeFree 48 |>.2
    let s := { s with egr := { s.egr with ports := mset {} s.egr.ports p { e with freeAt := t + s.byteSpan p 84 } } }
    let s : State := cls.foldl (fun (s : State) (c : Nat) =>
      let x := mget {} s.que.pfc (8 * p + c)
      let s := { s with que := { s.que with pfc := mset {} s.que.pfc (8 * p + c) { x with owed := false, sentAt := t } } }
      s.count (Ctr.QUE_PFC_TX (8 * p + c))) s
    s.flushAhead p

/-- Half of QUANTA has elapsed while XOFF holds for port `p` and class `c`, and the frame is owed again (R214). -/
def pfcRepeat (p c : Nat) (s : State) : State :=
  let x := mget {} s.que.pfc (8 * p + c)
  let half := s.quantaSpan p (s.cfgFld (Reg.QUE_PFC p) F.QUE_PFC.QUANTA) / 2
  if s.inFerry ∨ 8 ≤ c ∨ !x.xoff ∨ x.owed ∨ s.now < x.sentAt + half then s
  else { s with que := { s.que with pfc := mset {} s.que.pfc (8 * p + c) { x with owed := true } } }

/-- HOLD_US after the last pool-empty of port `p` and class `c` has passed, and XOFF is released unless a pool still
asserts it (R213). -/
def pfcHoldExpiry (p c : Nat) (s : State) : State :=
  let i := 8 * p + c
  let x := mget {} s.que.pfc i
  match x.emptyAt with
  | none => s
  | some t =>
    if 8 ≤ c ∨ s.now < t + s.cfgFld Reg.QUE_THR F.QUE_THR.HOLD_US * microsecond then s
    else ({ s with que := { s.que with pfc := mset {} s.que.pfc i { x with emptyAt := none } } }).syncXoff p c

end Sys2Proof.Machine
end

