-- ==== Sys2Proof/Machine/Gates.lean ====
section
/-! DEFINITION. Time gates, shapers and the SCH fields (R235 to R244). -/
namespace Sys2Proof.Machine
namespace State

/-! ## Egress ports -/

/-- Egress port `p`. -/
def egress (s : State) (p : Nat) : EgressPort := mget {} s.egr.ports p

/-- Egress port `p` replaced. -/
def setEgress (s : State) (p : Nat) (e : EgressPort) : State := { s with egr := { s.egr with ports := mset {} s.egr.ports p e } }

/-- Egress port `p` changed. -/
def onEgress (s : State) (p : Nat) (f : EgressPort → EgressPort) : State := s.setEgress p (f (s.egress p))

/-! ## Gate schedules (R238) -/

/-- Entry `i` of bank `b` of port `p` (Table SCHED-6). -/
def gateEntry (s : State) (p b i : Nat) : Nat := mget 0 s.egr.gates (512 * p + 256 * b + i)

/-- INTERVAL_NS of an entry. -/
def gateInterval (e : Nat) : Nat := bits e 31 0
/-- GATES of an entry. -/
def gateBits (e : Nat) : Nat := bits e 39 32

/-- One stretch of a cycle: the entry in force, its length in ns and its gates. -/
structure Segment where
  entry : Nat
  len : Nat
  gates : Nat
  deriving DecidableEq, Repr

/-- The stretches of a cycle of `cycle` ns from offset `o` on, for the used entries that are left: the last used one lasts
until the cycle ends, and the cycle's end cuts off the entry in force. -/
def segsFrom (cycle : Nat) : Nat → List Segment → List Segment
  | _, [] => []
  | o, [x] => if o < cycle then [{ x with len := cycle - o }] else []
  | o, x :: y :: r =>
    if cycle ≤ o then []
    else if cycle ≤ o + x.len then [{ x with len := cycle - o }]
    else x :: segsFrom cycle (o + x.len) (y :: r)

/-- The stretches of one cycle of schedule `g` at port `p`. -/
def segments (s : State) (p : Nat) (g : Sched) : List Segment :=
  segsFrom g.cycle 0 ((List.range g.len).filterMap (fun i =>
    let e := s.gateEntry p g.bank i
    if gateInterval e = 0 then none else some ⟨i, gateInterval e, gateBits e⟩))

/-- The offset of instant `t` in its cycle, 2^-16 ns. -/
def cycleOffset (g : Sched) (t : Stamp) : Nat := (((t : Int) - (g.base : Int)) % ((g.cycle * 65536 : Nat) : Int)).toNat

/-- The stretch that holds offset `o` and the time left in it, both in 2^-16 ns. -/
def segAt : List Segment → Nat → Option (Segment × Nat)
  | [], _ => none
  | x :: r, o => if o < x.len * 65536 then some (x, x.len * 65536 - o) else segAt r (o - x.len * 65536)

/-- The first cycle start of schedule `g` at or after `t` (R240). -/
def cycleStart (g : Sched) (t : Stamp) : Stamp := let o := cycleOffset g t; if o = 0 then t else t + (g.cycle * 65536 - o)

/-- The schedule of a port in force at `t` (R240). -/
def schedAt (e : EgressPort) (t : Stamp) : Option Sched :=
  match e.pending with
  | some (c, g) => if c ≤ t then some g else e.sched
  | none => e.sched

/-- Gates and entry in force at `t`: all open while gating is off (Table SCHED-16). -/
def gatesAt (s : State) (p : Nat) (t : Stamp) : Nat × Nat :=
  match schedAt (s.egress p) t with
  | none => (0xFF, 0)
  | some g =>
    match segAt (s.segments p g) (cycleOffset g t) with
    | some (x, _) => (x.gates, x.entry)
    | none => (0xFF, 0)

/-- The first instant from `t` on at which the gate of class `c` is closed, across cycle ends and the pending change; none
where it never is (R241). -/
def firstClosed (s : State) (p c : Nat) : Nat → Option Sched → Option (Stamp × Sched) → Stamp → Option Stamp
  | 0, _, _, _ => none
  | f + 1, cur, pend, t =>
    let (cur, pend) : Option Sched × Option (Stamp × Sched) := match pend with
      | some (k, g) => if k ≤ t then (some g, none) else (cur, some (k, g))
      | none => (cur, none)
    let skip : Option Stamp := match pend with
      | some (k, _) => s.firstClosed p c f cur pend k
      | none => none
    match cur with
    | none => skip
    | some g =>
      let segs := s.segments p g
      if segs.all (fun x => bitOf x.gates c) then skip
      else
        match segAt segs (cycleOffset g t) with
        | none => skip
        | some (x, rest) =>
          if !(bitOf x.gates c) then some t
          else
            let n := match pend with
              | some (k, _) => min k (t + rest)
              | none => t + rest
            s.firstClosed p c f cur pend n

/-- Stretches enough to see a gate close. -/
def gateFuel (e : EgressPort) : Nat :=
  2 * ((match e.sched with
    | some g => g.len
    | none => 0) + (match e.pending with
    | some (_, g) => g.len
    | none => 0)) + 8

/-- GUARD_NS of a port in 2^-16 ns. -/
def guardBand (s : State) (p : Nat) : Nat := s.cfgFld (Reg.SCH_GATE_CTL p) F.SCH_GATE_CTL.GUARD_NS * 65536

/-- Whether a frame of class `c` whose L_gate is `l` may begin at slot `t` of port `p` (R241). -/
def gateAdmits (s : State) (p c l : Nat) (t : Stamp) : Bool :=
  let e := s.egress p
  if s.inFerry then true else
  match s.firstClosed p c (gateFuel e) e.sched e.pending t with
  | none => true
  | some x => decide (x ≠ t ∧ t + s.tNeed p l + s.guardBand p ≤ x)

/-- The longest run of open time of class `c`, stretches that follow one another taken as one across the cycle end; none
where the gate never closes. -/
def longestOpen (segs : List Segment) (c : Nat) : Option Nat :=
  if segs.all (fun x => bitOf x.gates c) then none
  else
    some ((segs ++ segs).foldl (fun (a : Nat × Nat) x =>
      let n := if bitOf x.gates c then a.1 + x.len else 0
      (n, max a.2 n)) (0, 0)).2

/-- A frame fits nowhere (R242). -/
def fitsNowhere (s : State) (p c l : Nat) : Bool :=
  let e := s.egress p
  let gap := ceilDiv ((slotPs (s.phyOf p) (s.fecOf p)).2 * 65536) 1000
  let fits (g : Option Sched) : Bool := match g with
    | none => true
    | some g =>
      match longestOpen (s.segments p g) c with
      | none => true
      | some w => decide (s.tNeed p l + s.guardBand p + gap ≤ w * 65536)
  match e.pending with
  | some (k, g) => if k ≤ s.now then !(fits (some g)) else !(fits e.sched) && !(fits (some g))
  | none => !(fits e.sched)

/-- SCH_STATE's gates and entry, and PENDING and BANK_IN_FORCE, follow the schedule. -/
def syncGates (s : State) (p : Nat) : State :=
  let e := s.egress p
  let (g, i) := s.gatesAt p s.now
  let s := (s.setFld (Reg.SCH_STATE p) F.SCH_STATE.GATES_NOW g).setFld (Reg.SCH_STATE p) F.SCH_STATE.ENTRY i
  let s := s.setFld (Reg.SCH_GATE_CTL p) F.SCH_GATE_CTL.PENDING (b2n e.pending.isSome)
  s.setFld (Reg.SCH_GATE_CTL p) F.SCH_GATE_CTL.BANK_IN_FORCE (match e.sched with
    | some g => g.bank
    | none => 0)

/-- The gate schedule that a port's fields in force name, where EN is 1. -/
def schedOf (s : State) (p : Nat) : Option Sched :=
  let c := Reg.SCH_GATE_CTL p
  if s.cfgFlag c F.SCH_GATE_CTL.EN then
    let v := s.cfgFld (Reg.SCH_GATE_BASE p) F.SCH_GATE_BASE.BASE_LO + 2 ^ 64 * s.cfgFld (Reg.SCH_GATE_BASE_HI p) F.SCH_GATE_BASE_HI.BASE_HI
    some ⟨s.cfgFld c F.SCH_GATE_CTL.ADMIN_BANK, s.cfgFld c F.SCH_GATE_CTL.LEN,
      s.cfgFld (Reg.SCH_GATE_CYCLE p) F.SCH_GATE_CYCLE.CYCLE_NS, ((ofD96 v).getD 0) / 65536 * 65536⟩
  else none

/-- The gate part of an apply at this instant for one port (R240). -/
def applyGates (s : State) (p : Nat) : State :=
  let e := s.egress p
  match s.schedOf p with
  | none => (s.setEgress p { e with sched := none, pending := none }).syncGates p
  | some g =>
    if e.sched = some g ∨ e.pending.map (·.2) = some g then s
    else
      let k := cycleStart g s.now
      let e := if k = s.now then { e with sched := some g, pending := none } else { e with pending := some (k, g) }
      (s.setEgress p e).syncGates p

/-! ## Shapers (R235 to R237) -/

/-- SCH_STATE(p).SVC. -/
def svc (s : State) (p : Nat) : Nat := s.fld (Reg.SCH_STATE p) F.SCH_STATE.SVC

/-- A shaper register's RATE and BURST in force. -/
def rateOf (s : State) (off : Nat) : Nat := s.cfgFld off F.SCH_PORT_SHAPE.RATE
/-- BURST in bytes. -/
def burstOf (s : State) (off : Nat) : Nat := s.cfgFld off F.SCH_PORT_SHAPE.BURST

/-- A credit after `ns` nanoseconds under a shaper register and the cap of the service state. -/
def accrued (s : State) (p off ns : Nat) (credit : Int) : Int :=
  let cap : Int := if s.svc p = 0 then ((s.burstOf off * 8000 : Nat) : Int) else 0
  min (credit + ((s.rateOf off * ns : Nat) : Int)) cap

/-- The credits of port `p` brought to this instant (R235). -/
def accrue (s : State) (p : Nat) : State :=
  let e := s.egress p
  let ns := s.now / 65536 - e.creditAt / 65536
  let cls := (List.range 8).foldl (fun m c =>
    mset 0 m c (s.accrued p (Reg.SCH_CLASS_SHAPE p c) ns (mget 0 e.classCredit c))) e.classCredit
  s.setEgress p { e with credit := s.accrued p (Reg.SCH_PORT_SHAPE p) ns e.credit, classCredit := cls, creditAt := s.now }

/-- The port's credit allows a grant or a start: its shaper is off or its credit is not negative. -/
def portCredit (s : State) (p : Nat) : Bool := s.inFerry || s.rateOf (Reg.SCH_PORT_SHAPE p) == 0 || decide (0 ≤ (s.egress p).credit)

/-- The credit of class `c` allows a grant. -/
def classCreditOk (s : State) (p c : Nat) : Bool :=
  s.rateOf (Reg.SCH_CLASS_SHAPE p c) == 0 || decide (0 ≤ mget 0 (s.egress p).classCredit c)

/-- `d` millibits are added to the port's credit and, unless the class's lock is active, to the class's (R235, R237). -/
def addCredit (s : State) (p c : Nat) (locked : Bool) (d : Int) : State :=
  s.onEgress p (fun e =>
    let e := if s.rateOf (Reg.SCH_PORT_SHAPE p) = 0 then e else { e with credit := e.credit + d }
    if locked || s.rateOf (Reg.SCH_CLASS_SHAPE p c) == 0 then e
    else { e with classCredit := mset 0 e.classCredit c (mget 0 e.classCredit c + d) })

/-- The service state of port `p` becomes `v` (R236, Table SCHED-5). -/
def enterSvc (s : State) (p v : Nat) : State :=
  let s := s.accrue p
  let e := s.egress p
  let e := if v = 0 then e else { e with credit := min e.credit 0, classCredit := e.classCredit.filter (fun x => decide (x.2 < 0)) }
  (s.setEgress p { e with svcAt := s.now }).setFld (Reg.SCH_STATE p) F.SCH_STATE.SVC v

/-- The condition of TEST. -/
def svcTest (s : State) (p : Nat) : Bool := s.loopback p || s.boot.factoryTest

/-- The service state of port `p` follows its conditions (Table SCHED-5): TEST while its condition holds, STARTUP left once
the scheduler is ready and the link has been up. -/
def svcCheck (s : State) (p : Nat) : State :=
  let v := s.svc p
  if s.svcTest p && v != 2 && v != 3 then s.enterSvc p 2
  else if v = 2 ∧ !(s.svcTest p) then s.enterSvc p 0
  else if v = 1 ∧ s.ready 9 ∧ (s.egress p).wasUp then s.enterSvc p 0
  else s

/-- RECOVERY begins at port `p`, or begins again (Table SCHED-5). -/
def enterRecovery (s : State) (p : Nat) : State := s.enterSvc p 3

/-! ## Checks (R244) -/

/-- The port of an SCH register's offset, where it is a port register. -/
def schPortAt (off : Nat) : Option Nat :=
  if 0x01000000 ≤ off ∧ off < 0x01000000 + 0x400 * 514 then some ((off - 0x01000000) / 0x400) else none

/-- Whether port `p` fails the checks of R244 on the shadows. -/
def schBad (s : State) (p : Nat) : Bool :=
  let c := Reg.SCH_GATE_CTL p
  let cyc := s.fld (Reg.SCH_GATE_CYCLE p) F.SCH_GATE_CYCLE.CYCLE_NS
  let len := s.fld c F.SCH_GATE_CTL.LEN
  let d := s.fld (Reg.SCH_PORT_CFG p) F.SCH_PORT_CFG.EGR_DEPTH
  !(decide (1000 ≤ cyc ∧ cyc ≤ 1000000000)) || len == 0 || decide (256 < len)
    || (s.flag c F.SCH_GATE_CTL.EN && (List.range len).all (fun i => gateInterval (s.gateEntry p (s.fld c F.SCH_GATE_CTL.ADMIN_BANK) i) == 0))
    || decide (999999999 < bits (s.rd (Reg.SCH_GATE_BASE p)) 47 16) || !(decide (1 ≤ d ∧ d ≤ 16))

/-- The checks of R244: the lowest port that fails. -/
def schCheck (s : State) : Option (Nat × Nat) :=
  ((s.regs.filterMap (fun e => schPortAt e.1)).find? s.schBad).map (fun p => (Src.SCH_CFG_REJECT, p))

/-- The ports that an apply of SCH may concern. -/
def schPorts (s : State) : List Nat := ((s.stgOffs 12).filterMap schPortAt).eraseDups

/-- The pause of class `c` of port `p` is over (R234). -/
def endPause (s : State) (p c : Nat) : State :=
  let st := Reg.SCH_STATE p
  ((s.onEgress p (fun e => { e with pauses := mdel e.pauses c })).stopNs (Ctr.SCH_PAUSED_NS (8 * p + c))).setFld st
    F.SCH_STATE.PAUSED (putBits (s.fld st F.SCH_STATE.PAUSED) c c 0)

/-- A pause ends where PFC_RX of its class has become 0 (R234). -/
def syncPauses (s : State) (p : Nat) : State :=
  ((s.egress p).pauses.filter (fun e => !(bitOf (s.cfgFld (Reg.SCH_PORT_CFG p) F.SCH_PORT_CFG.PFC_RX) e.1))).foldl
    (fun s e => s.endPause p e.1) s

/-- What follows an apply of SCH: the new gate schedules, and pauses that no longer apply. -/
def schAfter (s : State) : State := s.schPorts.foldl (fun s p => (s.applyGates p).syncPauses p) s

/-- What precedes it: credits run to this instant under the old rates. -/
def schBefore (s : State) : State := s.schPorts.foldl accrue s

end State

open State

/-! ## The commands -/

/-- A write to SCH_APPLY at instant A (R240, R244). -/
def schApply (by_ : Agent) (v : Word64) (s : State) : State :=
  s.applyWrite by_ Reg.SCH_APPLY v.toNat 12 F.SCH_APPLY.APPLY schCheck (fun _ => .pipeline) schAfter schBefore

/-- A gate list interval of port `p` has ended and the next entry is in force (R238). -/
def gateEntryChange (p : Nat) (s : State) : State := if 514 ≤ p then s else s.syncGates p

/-- A pending gate schedule of port `p` comes into force at its first cycle start (R240). -/
def gateScheduleStart (p : Nat) (s : State) : State :=
  match (s.egress p).pending with
  | some (k, g) => if k ≤ s.now then (s.onEgress p (fun e => { e with sched := some g, pending := none })).syncGates p else s
  | none => s

/-- A write to SCH_GL(i): the list of the port and bank of SCH_GL_SEL, unless that bank is in force or waits to be (R240). -/
def schGlWrite (by_ : Agent) (i : Nat) (v : Word64) (s : State) : State :=
  if 256 ≤ i then s else
  s.accept by_ (Reg.SCH_GL i) (fun s =>
    let p := s.fld Reg.SCH_GL_SEL F.SCH_GL_SEL.PORT
    let b := s.fld Reg.SCH_GL_SEL F.SCH_GL_SEL.BANK
    let e := s.egress p
    let used := (match e.sched with
      | some g => g.bank == b
      | none => false) || (match e.pending with
      | some (_, g) => g.bank == b
      | none => false)
    if 513 < p then s
    else if used then s.raise Src.SCH_GATE_REJECT (p + 1024 * b)
    else { s with egr := { s.egr with gates := mset 0 s.egr.gates (512 * p + 256 * b + i) (bits v.toNat 39 0) } })

/-- RECOVERY_US after its entry, the shapers of port `p` return to NORMAL (R236). -/
def shaperRecoveryEnd (p : Nat) (s : State) : State :=
  if s.svc p = 3 ∧ (s.egress p).svcAt + s.cfgFld Reg.SCH_CFG F.SCH_CFG.RECOVERY_US * microsecond ≤ s.now then
    (s.enterSvc p 0).svcCheck p
  else s

end Sys2Proof.Machine
end

