-- ==== Sys2Proof/Machine/Egress.lean ====
section
/-! DEFINITION. From the queue heads to the transmit ball: offers, grants, the crossbar, the lock and transmission (R228 to
R234, R249 to R263, R272, R312), with replication (R267 to R271). -/
namespace Sys2Proof.Machine
namespace State

/-! ## Copies -/

/-- A copy on the ferry path (R455). -/
def isFerry (c : Copy) : Bool :=
  match c.kind with
  | .ferry _ => true
  | _ => false

/-- The version a packet's records and towpath header carry (R184). -/
def carriedVer (p : Packet) : Nat := if p.tow then leAt p.towHdr 18 2 else p.ver

/-- Whether a frame's lock is still active for it: a return to bypass since has released it (R258, R259). -/
def stillLocked (s : State) (c : Copy) : Bool :=
  c.release.isSome && (match mfind s.pkts c.pkt with
    | some p => s.lockFor c.port 1 p.stamp
    | none => false)

/-- Lexicographic order. -/
def lexLt : List Nat → List Nat → Bool
  | _, [] => false
  | [], _ :: _ => true
  | a :: x, b :: y => decide (a < b) || (a == b && lexLt x y)

/-- The order in which the lock delivers copies: release instant, ingress stamp, system rank, port rank (R28, R30, R260). -/
def sortKey (s : State) (c : Copy) : List Nat :=
  match mfind s.pkts c.pkt with
  | none => [c.release.getD 0]
  | some p =>
    [c.release.getD 0, p.stamp, (c.system + 512 - p.rot) % 512, portRank p.rot p.inPort]

/-- A copy inserted in sort order, behind its equals. -/
def insertCopy (s : State) (c : Copy) : List Copy → List Copy
  | [] => [c]
  | x :: r => if lexLt (s.sortKey c) (s.sortKey x) then c :: x :: r else x :: s.insertCopy c r

/-- The first of the copies in sort order. -/
def earliest (s : State) (cs : List Copy) : Option Copy := (cs.foldl (fun l c => s.insertCopy c l) []).head?

/-- The copy that a descriptor at the head of queue `q` stands for (R228). -/
def copyOf (s : State) (q : Nat) (d : Desc) (p : Packet) : Copy :=
  let nh := if d.kind = .unicast then p.nextHop else none
  let l := s.lselOf p d.port nh
  let l := match d.kind with
    | .mirror i => let t := s.fld (Reg.FWD_MIRROR i) F.FWD_MIRROR.TRUNC; if t = 0 then l else min l t
    | _ => l
  { pkt := d.pkt, kind := d.kind, port := d.port, cls := p.cls, queue := q, gran := d.gran, nh := nh, lsel := l,
    source := queueSlice q, system := p.system, release := s.releaseOf p d.port (s.lockDelay d.port p.cls p.ver p.stamp) }

/-! ## Records of copies (R280 to R282, R317) -/

/-- A copy's EGRESS record, or its drop, in stream `st` with OUT_PORT `out`, selected where `sel` (Table WIT-2). A dropped
copy's LEN the spec does not state. -/
def egressRecordAt (s : State) (c : Copy) (p : Packet) (t : Stamp) (tq ub len : Nat) (dropped : Bool) (st out : Nat) (sel : Bool) : State :=
  let mir := match c.kind with
    | .mirror _ => 1
    | _ => 0
  let flags := 128 * b2n c.late + 64 * b2n dropped + 16 * p.colour + 8 * mir + 4 * b2n c.ooo + 2 * b2n c.bypassed
  let delta := min ((t - p.stamp) / 256) 0xFFFFFFFF
  let msg := if p.tow then 0xF else p.msgs.length
  let dig := if p.tow then
      leAt p.towHdr 20 2 % 512 * 2 ^ 55 + bits (leAt p.towHdr 24 8) 32 29 * 2 ^ 51 + bits (leAt p.towHdr 24 8) 39 33 * 2 ^ 44
        + bits (leAt p.towHdr 24 8) 59 40 * 2 ^ 24
    else s.frameDigest p
  s.recordFrame st 1 t sel (fun b => frameRec b 3 t tq ub p.inPort out (carriedVer p) msg flags delta len dig)

/-- A copy's EGRESS record in its egress port's stream (R280 to R282). Transmissions of towpath ports and of witness export
ports are not witnessed. -/
def egressRecord (s : State) (c : Copy) (t : Stamp) (tq ub len : Nat) (dropped : Bool) : State :=
  match mfind s.pkts c.pkt with
  | none => s
  | some p =>
    if s.towPort c.port then s
    else (s.noteStale [14] c.pkt).egressRecordAt c p t tq ub len dropped (sliceOf c.port) c.port (s.selects p c.port c.cls true)

/-- The reference a copy holds is released, with its granules of the queue (R201, R210). -/
def releaseCopy (s : State) (c : Copy) : State :=
  match c.kind with
  | .multicast =>
    let e := sliceOf c.port
    match s.egr.replicas.find? (fun r => r.pkt == c.pkt && r.slice == e) with
    | none => s
    | some r =>
      let rest := s.egr.replicas.erase r
      if 1 < r.left then { s with egr := { s.egr with replicas := rest ++ [{ r with left := r.left - 1 }] } }
      else
        (({ s with egr := { s.egr with replicas := rest } }).useGran r.queue (-(r.gran : Int))).releaseRef c.pkt
  | _ => (s.useGran c.queue (-(c.gran : Int))).releaseRef c.pkt

/-- One more frame forwarded by the ferry path in the episode (Table FLT-5). -/
def ferryForwarded (s : State) : State :=
  { s with flt := { s.flt with ferry := { s.flt.ferry with forwarded := s.flt.ferry.forwarded + 1 } } }

/-- A copy is dropped at egress: its drop is witnessed and its reference released. A copy whose grant charged the shapers is
given that back (R235). -/
def dropCopy (s : State) (c : Copy) (granted : Bool) : State :=
  let (len, s) := s.takeFree 16
  let s := s.egressRecord c s.now s.tq s.ubBase len true
  let s := match c.kind with
    | .ferry _ => s
    | _ => if granted then s.addCredit c.port c.cls (!c.charged) (((c.lsel + 20) * 8000 : Nat) : Int) else s
  s.releaseCopy c

/-! ## Late frames (R262 to R264) -/

/-- A locked copy is late: counted, and the first since LATE_SEEN was cleared is raised. -/
def markLate (s : State) (c : Copy) : Copy × State :=
  if c.late then (c, s)
  else
    let r := Reg.LCK_PORT_STAT c.port
    let s := s.count (Ctr.LCK_LATE (8 * c.port + c.cls))
    let s := if s.flag r F.LCK_PORT_STAT.LATE_SEEN then s
      else (s.setFld r F.LCK_PORT_STAT.LATE_SEEN 1).raise Src.LCK_LATE (c.port + 1024 * c.cls)
    ({ c with late := true }, s)

/-- A late copy that begins after a frame with a later release instant is out of order. -/
def markOoo (s : State) (c : Copy) : Copy × State :=
  let later := match (s.egress c.port).latestBegun, c.release with
    | some x, some r => decide (r < x)
    | _, _ => false
  if !c.late || !later then (c, s)
  else
    let r := Reg.LCK_PORT_STAT c.port
    let s := s.count (Ctr.LCK_OOO (8 * c.port + c.cls))
    let s := if s.flag r F.LCK_PORT_STAT.OOO_SEEN then s
      else (s.setFld r F.LCK_PORT_STAT.OOO_SEEN 1).raise Src.LCK_OUT_OF_ORDER (c.port + 1024 * c.cls)
    ({ c with ooo := true }, s)

/-- LCK_PORT_CFG(p).LATE_DROP as it governs a copy. -/
def lateDrop (s : State) (c : Copy) : Bool :=
  match mfind s.pkts c.pkt with
  | some p => s.cfgAtFld (Reg.LCK_PORT_CFG c.port) F.LCK_PORT_CFG.LATE_DROP p.ver p.stamp == 1
  | none => false

/-- FIFO_LEVEL and FIFO_MAX follow the sort FIFO: a held frame stays in it (R260). -/
def syncFifo (s : State) (p : Nat) : State :=
  let e := s.egress p
  let r := Reg.LCK_PORT_STAT p
  let n := e.fifo.length + e.due.length
  (s.setFld r F.LCK_PORT_STAT.FIFO_LEVEL n).setFld r F.LCK_PORT_STAT.FIFO_MAX (max n (s.fld r F.LCK_PORT_STAT.FIFO_MAX))

/-! ## Fair queueing (R230 to R232) -/

/-- Tag `x` is earlier than tag `y`. -/
def tagEarlier (x y : Nat) : Bool := decide (2 ^ 47 ≤ (x + 2 ^ 48 - y) % 2 ^ 48)

/-- PRIO of class `c`. -/
def prioOf (s : State) (p c : Nat) : Nat := s.cfgFld (Reg.SCH_CLASS_CFG p c) F.SCH_CLASS_CFG.PRIO
/-- W_c: a written 0 is taken as 1. -/
def weightOf (s : State) (p c : Nat) : Nat := max 1 (s.cfgFld (Reg.SCH_CLASS_CFG p c) F.SCH_CLASS_CFG.WEIGHT)

/-- Class `c` gains a head offer (R232). -/
def gainHead (s : State) (p c : Nat) : State :=
  s.onEgress p (fun e =>
    let v := mget 0 e.vtime (s.prioOf p c)
    let f := mget 0 e.tags c
    let later := if tagEarlier f v then v else f
    { e with tags := mset 0 e.tags c ((later + 2 ^ 32 / s.weightOf p c) % 2 ^ 48) })

/-- The offers of class `c` without an active lock. -/
def plainOffers (s : State) (p c : Nat) : List Copy := (s.egress p).offers.filter (fun x => x.cls == c && !(s.stillLocked x))

/-- The offer of class `c` the rotation of the 17 sources comes to, after the source last granted (R231). -/
def rotationPick (s : State) (p c : Nat) : Option Copy :=
  let last := mget 16 (s.egress p).lastSource c
  let os := s.plainOffers p c
  (List.range 17).findSome? (fun i => os.find? (fun x => x.source == (last + 1 + i) % 17))

/-- An offer reaches its port's scheduler (R228, R232). -/
def addOffer (s : State) (c : Copy) : State :=
  let fresh := (s.plainOffers c.port c.cls).isEmpty
  let s := s.onEgress c.port (fun e => { e with offers := e.offers ++ [c] })
  if fresh && !(s.stillLocked c) then s.gainHead c.port c.cls else s

/-- An offer leaves its port's scheduler; a new head of its class gains its tag. -/
def takeOffer (s : State) (c : Copy) : State :=
  let s := s.onEgress c.port (fun e => { e with offers := e.offers.erase c })
  if !(s.stillLocked c) && !(s.plainOffers c.port c.cls).isEmpty then s.gainHead c.port c.cls else s

/-- A class is paused by received flow control (R234). -/
def paused (s : State) (p c : Nat) : Bool :=
  !s.inFerry && (match mfind (s.egress p).pauses c with
  | some (t, _, _) => decide (s.now < t)
  | none => false)

/-- The port's link is down or the port is halted (R93). -/
def egressDown (s : State) (p : Nat) : Bool := !(s.linkUp p) || s.portHalted p

/-- Room for another frame without, or with, an active lock (R233). -/
def roomFor (s : State) (p : Nat) (locked : Bool) : Bool :=
  let e := s.egress p
  let held := e.crossing ++ e.staging ++ e.fifo ++ e.due
  if locked then decide ((held.filter s.stillLocked).length < 64 * (s.portLanes p).length)
  else decide ((held.filter (fun c => !(s.stillLocked c))).length < s.cfgFld (Reg.SCH_PORT_CFG p) F.SCH_PORT_CFG.EGR_DEPTH)

/-- The copy of a granted offer leaves its queue; the offer's place in the queue is free again. -/
def dequeue (s : State) (c : Copy) : State :=
  if c.kind = .multicast then s
  else
    let ds := s.queue c.queue
    let s := { s with que := { s.que with offered := s.que.offered.erase c.queue } }
    (s.setQueue c.queue ds.tail).count (Ctr.QUE_DEQ c.queue)

/-- A packet is dropped because of a faulty descriptor met at dequeue or transmission (R204, R205). -/
def faultDrop (s : State) (c : Copy) (fault : DescFault) (granted : Bool) : State :=
  let (len, s) := s.takeFree 16
  let s := s.egressRecord c s.now s.tq s.ubBase len true
  let sl := queueSlice c.queue
  let pool := ((mfind s.pkts c.pkt).map (·.pool)).getD 0
  let s := s.count (Ctr.QUE_PTR_DROP sl)
  let s := match fault with
    | .pointer x => s.raise Src.BPM_PTR (x % 2 ^ 20 + 2 ^ 20 * pool + 2 ^ 22 * sl)
    | .uncorrectable => s.raise Src.BPM_RING_ECC (sl + 16 * pool + 64)
    | .none => s
  let s := if granted then s.addCredit c.port c.cls (!c.charged) (((c.lsel + 20) * 8000 : Nat) : Int) else s
  let s := s.onPkt c.pkt (fun p => { p with leaked := true })
  s.releaseCopy c

/-- Whether a fault operand is one: a pointer that passes its check is none. -/
def isFault (s : State) (c : Copy) : DescFault → Bool
  | .none => false
  | .uncorrectable => true
  | .pointer x =>
    match mfind s.pkts c.pkt with
    | some p => !(s.ptrOk p.pool x)
    | none => true

/-- The grants into egress slice `e` within the last 64 core clocks, 40 ns. -/
def recentGrants (s : State) (e : Nat) : List (Stamp × Nat) :=
  (mget [] s.egr.grants e).filter (fun x => decide (s.now < x.1 + 40 * 65536))

/-- The crossbar carries `l` more bytes into egress slice `e`: 512 in each of 64 core clocks (R229). -/
def xbarRoom (s : State) (e l : Nat) : Bool := decide ((s.recentGrants e).foldl (fun a x => a + x.2) l ≤ 32768)

/-- A grant of `l` bytes into egress slice `e` is noted. -/
def noteGrant (s : State) (e l : Nat) : State :=
  { s with egr := { s.egr with grants := mset [] s.egr.grants e (s.recentGrants e ++ [(s.now, l)]) } }

/-- An offer is granted across the crossbar (R230, R235). -/
def grantOffer (s : State) (c : Copy) (fault : DescFault) : State :=
  let locked := s.stillLocked c
  let s := s.dequeue c
  if s.isFault c fault then (s.takeOffer c).faultDrop c fault false
  else
    let s := s.onEgress c.port (fun e =>
      if locked then e
      else { e with vtime := mset 0 e.vtime (s.prioOf c.port c.cls) (mget 0 e.tags c.cls), lastSource := mset 16 e.lastSource c.cls c.source })
    let s := (s.takeOffer c).noteGrant (sliceOf c.port) c.lsel
    let s := s.count (Ctr.SCH_GRANTS (8 * c.port + c.cls))
    let s := s.addCredit c.port c.cls locked (-(((c.lsel + 20) * 8000 : Nat) : Int))
    s.onEgress c.port (fun e => { e with crossing := e.crossing ++ [{ c with charged := !locked }] })

/-- A frame that fits nowhere is removed at the head of its queue (R242). -/
def removeOffer (s : State) (c : Copy) : State :=
  let s := (s.dequeue c).takeOffer c
  let s := (s.count (Ctr.GAT_NEVER_FITS (8 * c.port + c.cls))).raise Src.SCH_NEVER_FITS (c.port + 1024 * c.cls)
  s.dropCopy c false

/-- The first wait of an offer or copy under R241 is counted. -/
def noteWait (s : State) (p : Nat) (c : Copy) : State :=
  if c.waited then s
  else
    let f (x : Copy) : Copy := if x = c then { c with waited := true } else x
    (s.onEgress p (fun e => { e with offers := e.offers.map f, staging := e.staging.map f, due := e.due.map f })).count
      (Ctr.SCH_GATE_WAIT (8 * p + c.cls))

/-! ## Transmission -/

/-- A towpath header for a packet this device sends on (Tables TOW-1 and TOW-2). -/
def towHeader (s : State) (p : Packet) (c : Copy) : Bytes :=
  if p.tow then
    let w3 := leAt p.towHdr 24 8
    p.towHdr.take 24 ++ le 8 (putBits w3 63 60 (bits w3 63 60 - 1))
  else
    let b := p.stamp / second
    let d := s.cfgAtFld (Reg.LCK_SYS_D p.cls) F.LCK_SYS_D.D_NS p.ver p.stamp
    let mir := match c.kind with
      | .mirror _ => 1
      | _ => 0
    let (kind, dest) : Nat × Nat :=
      if c.kind = .multicast then (1, p.group)
      else
        let sys := p.foreign.getD 0
        if p.outPort = 0x3FF then (2, sys * 1024) else (0, sys * 1024 + p.outPort)
    le 8 (d64 b p.stamp) ++ le 8 (if d = 0 then 0 else d64 b (p.stamp + d * 65536)) ++
      le 8 (b % 65536 + p.ver * 2 ^ 16 + s.sysId * 2 ^ 32 + p.inPort * 2 ^ 41 + p.cls * 2 ^ 51 + p.colour * 2 ^ 54 + p.tq * 2 ^ 56
        + b2n s.isAdrift * 2 ^ 60 + mir * 2 ^ 61) ++
      le 8 (p.ub + kind * 2 ^ 8 + dest * 2 ^ 10 + sliceOf p.port * 2 ^ 29 + p.wIndex * 2 ^ 33 + p.wSeq % 2 ^ 20 * 2 ^ 40
        + max 1 (s.cfgAtFld Reg.TOW_CFG F.TOW_CFG.MAX_HOPS p.ver p.stamp) * 2 ^ 60)

/-- The bytes a copy that begins at `t` leaves with, and whether an in-header stamp was left out (R72, R140, R141, R272, R273,
R312). -/
def outFrame (s : State) (c : Copy) (p : Packet) (t : Stamp) : Bytes × Bool :=
  let stomp := p.bad && p.cut
  let body := p.bytes.take (p.bytes.length - 4)
  let body := match c.nh with
    | some i => s.rewrite i p.cls body
    | none => body
  if let .ferry tr := c.kind then
    (withFcs (if tr then body ++ trailer p.stamp p.tq p.ub s.ownSys p.inPort p.ver 0 1 0 else body) stomp, false)
  else if s.towPort c.port then (withFcs (s.towHeader p c ++ body) stomp, false)
  else
    let body := match c.kind with
      | .mirror i => let t := s.fld (Reg.FWD_MIRROR i) F.FWD_MIRROR.TRUNC; if t = 0 then body else body.take (t - 4)
      | _ => s.ptpTransmit c.port p t body
    let r := s.cfgAt (Reg.LCK_CLASS c.port c.cls) p.ver p.stamp
    let m := bits r F.LCK_CLASS.STAMP.hi F.LCK_CLASS.STAMP.lo
    let off := bits r F.LCK_CLASS.STAMP_OFF.hi F.LCK_CLASS.STAMP_OFF.lo
    if m = 1 then
      (withFcs (body ++ trailer p.stamp p.tq p.ub p.system p.inPort (carriedVer p) (b2n c.late) (b2n c.bypassed) (b2n c.ooo)) stomp, false)
    else if m = 2 then
      (if body.length + 4 < off + 12 then (withFcs body stomp, true)
       else (withFcs (patch body off (headStamp p.stamp p.tq p.ub (carriedVer p))) stomp, false))
    else (withFcs body stomp, false)

/-- A port in loopback receives the frame it has transmitted (Table PORT-11). -/
def loopBack (s : State) (p : Nat) (bytes : Bytes) : State :=
  if s.loopback p then { s with ports := mset {} s.ports p { s.portSt p with looped := s.looped p ++ [bytes] } } else s

/-- Why a frame whose slot has come may not begin: its gate, a pause or, for a released one, the port shaper (R234, R241,
R262). A frame of the ferry path is held by none of them (R454, R458). -/
def heldAt (s : State) (c : Copy) (t : Stamp) (locked : Bool) : Bool :=
  if isFerry c then false else
  !(s.gateAdmits c.port c.cls c.lsel t) || s.paused c.port c.cls || (locked && !(s.portCredit c.port))

/-- An unlocked frame may begin before the earliest release instant held in the sort FIFO (R252). -/
def guardOk (s : State) (c : Copy) (t : Stamp) : Bool :=
  let g := match mfind s.pkts c.pkt with
    | some p => s.cfgAtFld (Reg.LCK_PORT_CFG c.port) F.LCK_PORT_CFG.GUARD_EN p.ver p.stamp == 1
    | none => false
  let e := s.egress c.port
  !g || isFerry c || (((e.due.filter s.stillLocked) ++ e.fifo).filterMap (·.release)).all (fun r =>
    decide (t + s.tNeed c.port c.lsel + s.byteSpan c.port 20 ≤ r))

/-- The longest spacing of port `p`'s transmit slots, an alignment-marker group among them (R88), 2^-16 ns. -/
def slotGap (s : State) (p : Nat) : Nat :=
  let (am, _, _) := framingOf (s.phyOf p) (s.fecOf p)
  let r := laneRate (s.phyOf p) * phyLanes (s.phyOf p)
  ceilDiv ((slotPs (s.phyOf p) (s.fecOf p)).2 * 65536) 1000 + (if r = 0 then 0 else ceilDiv (bitTime am) r)

/-- Slot `t` may be the copy's (R250, R251): it has come, the port is free, and a locked copy that is not late takes `first`, the first
slot at or after its release, or the first slot once the port is free. -/
def slotOk (s : State) (c : Copy) (t first : Stamp) (locked : Bool) : Bool :=
  let e := s.egress c.port
  let g := s.slotGap c.port
  decide (s.now ≤ t ∧ e.freeAt ≤ t) && (!locked || (match c.release with
    | none => true
    | some r => decide (r ≤ first ∧ first ≤ t) && (c.late || (decide (first < r + g)
        && (if e.freeAt ≤ first then t == first else decide (t < e.freeAt + g))))))

/-- A copy begins at the ball at `t` (R250, R251, R263): `first` is the first slot at or after its release instant. -/
def beginCopy (s : State) (c : Copy) (t first : Stamp) (lane : Nat) : State :=
  let locked := s.stillLocked c
  let (c, s) := if locked then s.markOoo c else (c, s)
  let s := if locked && !c.late then
      let s := s.count (Ctr.LCK_RELEASED (8 * c.port + c.cls))
      if first < t then s.count (Ctr.LCK_DISPLACED (8 * c.port + c.cls)) else s
    else s
  let tq := s.stampTq lane
  let ub := s.stampUb lane
  let e := s.egress c.port
  let close := if isFerry c then none else s.firstClosed c.port c.cls (gateFuel e) e.sched e.pending t
  let s := s.noteStale [13, 15] c.pkt
  let s := s.onEgress c.port (fun e => { e with
    sending := some ⟨c, t, tq, ub, false, close⟩,
    latestBegun := if locked then (match e.latestBegun, c.release with
      | some x, some r => some (max x r)
      | _, r => r) else e.latestBegun })
  s.inFlight c.port 1

/-- The record of the copy in transmission is written once its length is known. -/
def witnessSending (s : State) (p : Nat) : State :=
  match (s.egress p).sending with
  | none => s
  | some x =>
    match mfind s.pkts x.copy.pkt with
    | none => s
    | some pk =>
      if x.witnessed || !pk.ended then s
      else
        let s := s.egressRecord x.copy x.stamp x.tq x.ub (s.outFrame x.copy pk x.stamp).1.length false
        s.onEgress p (fun e => { e with sending := some { x with witnessed := true } })

end State

open State

/-! ## The commands -/

/-- The head of queue `q` is offered to its port's scheduler or its slice's multicast arbiter (R228): a store-and-forward
frame once it is whole (R83). -/
def offerArrival (q : Nat) (s : State) : State :=
  match s.queue q with
  | [] => s
  | d :: _ =>
    match mfind s.pkts d.pkt with
    | none => s
    | some p =>
      if s.que.offered.contains q || !(p.ended || (p.cut && d.kind == .unicast)) then s
      else
        let s := { s with que := { s.que with offered := s.que.offered ++ [q] } }
        if 65792 ≤ q then s else s.addOffer (s.copyOf q d p)

/-- A decision of port `p`'s scheduler for the transmit slot `slot`: of a class without an active lock, by priority and
fair queueing, or, with `locked`, of the offers whose lock is active (R230 to R233, R235). An offer that fits nowhere is
removed first (R242); a port whose link is down takes offers without holds (R93). -/
def schedulerGrant (p : Nat) (locked : Bool) (slot : Stamp) (fault : DescFault) (s : State) : State :=
  let s := s.accrue p
  let down := s.egressDown p
  let cls := List.range 8
  let lockedOffer (c : Nat) : Option Copy := s.earliest ((s.egress p).offers.filter (fun x => x.cls == c && s.stillLocked x))
  let heads : List Copy := if locked then cls.filterMap lockedOffer else cls.filterMap (s.rotationPick p)
  match if down then none else heads.find? (fun c => s.fitsNowhere p c.cls c.lsel) with
  | some c => s.removeOffer c
  | none =>
    if !(s.roomFor p locked) then s
    else if locked then
      let ok := heads.filter (fun c => down || (!(s.paused p c.cls) && s.portCredit p))
      let held := heads.filter (fun c => !down && !(s.paused p c.cls) && !(s.portCredit p))
      let s := held.foldl (fun s c => s.count (Ctr.SCH_SHAPER_HOLD (8 * p + c.cls))) s
      match s.earliest ok with
      | some c => if s.xbarRoom (sliceOf p) c.lsel then s.grantOffer c fault else s
      | none => s
    else
      let gate (c : Copy) : Bool := s.gateAdmits p c.cls c.lsel slot
      let credit (c : Copy) : Bool := s.portCredit p && s.classCreditOk p c.cls
      let ok := heads.filter (fun c => down || (!(s.paused p c.cls) && gate c && credit c))
      let held := heads.filter (fun c => !down && !(s.paused p c.cls) && gate c && !(credit c))
      let wait := heads.filter (fun c => !down && !(gate c))
      let s := held.foldl (fun s c => s.count (Ctr.SCH_SHAPER_HOLD (8 * p + c.cls))) s
      let best (a b : Copy) : Bool :=
        let e := s.egress p
        decide (s.prioOf p b.cls < s.prioOf p a.cls) || (s.prioOf p b.cls == s.prioOf p a.cls &&
          (tagEarlier (mget 0 e.tags a.cls) (mget 0 e.tags b.cls) || (mget 0 e.tags a.cls == mget 0 e.tags b.cls && decide (a.cls < b.cls))))
      let pick := ok.foldl (fun (a : Option Copy) c => match a with
        | none => some c
        | some x => if best c x then some c else some x) none
      let s := match pick with
        | some c => if s.xbarRoom (sliceOf p) c.lsel then s.grantOffer c fault else s
        | none => s
      wait.foldl (fun s c => s.noteWait p c) s

/-- The multicast arbiter of egress slice `e` grants the head of a multicast queue offered to it: the earliest release
instant of those whose lock is active, else the next ingress slice in rotation (R231). Its order among classes is that of
their numbers, the spec naming none. -/
def mcastArbiterGrant (e : Nat) (fault : DescFault) (s : State) : State :=
  let offered := s.que.offered.filter (fun q => decide (65792 ≤ q) && (q - 65792) % 128 / 8 == e)
  let last := mget 15 s.egr.mcLast e
  let inTurn := (List.range 16).findSome? (fun i =>
    offered.find? (fun q => queueSlice q == (last + 1 + i) % 16 && offered.all (fun x => queueSlice x != queueSlice q || decide (q % 8 ≤ x % 8))))
  let head (q : Nat) : Option (Nat × Desc × Packet) :=
    match s.queue q with
    | [] => none
    | d :: _ => (mfind s.pkts d.pkt).map (fun p => (q, d, p))
  let locked := offered.filterMap (fun q => (head q).bind (fun x =>
    let (q, d, p) := x
    let r := match s.groupSlot p.group p.ver with
      | none => none
      | some g => s.releaseOf p 0x3FF (if g.groupD ≠ 0 then g.groupD else s.lockDelay (32 * e) p.cls p.ver p.stamp)
    r.map (fun r => ({ pkt := d.pkt, kind := .multicast, port := 32 * e, cls := p.cls, queue := q, gran := d.gran,
                       system := p.system, release := some r } : Copy))))
  let q := match s.earliest locked with
    | some c => some c.queue
    | none => inTurn
  match q.bind head with
  | none => s
  | some (q, d, p) =>
    if !(s.xbarRoom e (s.bufferLen p)) then s else
    let s := { s with que := { s.que with offered := s.que.offered.erase q } }.noteGrant e (s.bufferLen p)
    let s := (s.setQueue q (s.queue q).tail).count (Ctr.QUE_DEQ q)
    let s := { s with egr := { s.egr with mcLast := mset 15 s.egr.mcLast e (queueSlice q) } }
    let c : Copy := { pkt := d.pkt, kind := .unicast, port := 32 * e, cls := p.cls, queue := q, gran := d.gran, source := queueSlice q }
    if s.isFault c fault then s.faultDrop c fault false
    else { s with egr := { s.egr with replicas := s.egr.replicas ++ [⟨d.pkt, e, q, d.gran, false, 0⟩] } }

/-- Egress slice `e` makes the copies of its first granted packet that has none yet, and offers each to its port's scheduler
(R269, R270, R316). -/
def replicate (e : Nat) (s : State) : State :=
  match s.egr.replicas.find? (fun r => r.slice == e && !r.made) with
  | none => s
  | some r =>
    match mfind s.pkts r.pkt with
    | none => { s with egr := { s.egr with replicas := s.egr.replicas.erase r } }
    | some p =>
      let (entries, gd, excl) : List (Nat × Option Nat) × Nat × Bool := match s.groupSlot p.group p.ver with
        | some g => ((s.copyEntries g).filter (fun x => sliceOf x.1 == e), g.groupD, g.exclude)
        | none => ([], 0, false)
      let skip (x : Nat) : Bool := (excl || p.flood || p.tow) && x == p.port
      let (cs, s) := entries.foldl (fun (a : List Copy × State) x =>
        let (cs, s) := a
        let (port, nh) := x
        if skip port then (cs, s)
        else if !(s.portExists port) then (cs, s.count (Ctr.FWD_REPL_NOPORT e))
        else if (match nh with
            | some i => !(s.nhValid i)
            | none => false) then (cs, s.count Ctr.FWD_NH_INVALID)
        else if (match nh with
            | some i => s.ttlExpired p i
            | none => false) then (cs, s)
        else if s.exportPort port || (s.towPort port && !s.isMember) then (cs, s)
        else if s.towPort port && p.tow && bits (leAt p.towHdr 24 8) 63 60 == 0 then (cs, s.count Ctr.TOW_HOPS_DROP)
        else
          let (d, raised) := s.copyDelay port p.cls gd p.ver p.stamp
          let s := if raised then s.count (Ctr.FWD_REPL_RAISED port) else s
          let c : Copy := { pkt := r.pkt, kind := .multicast, port := port, cls := p.cls, queue := r.queue, gran := r.gran, nh := nh,
                            lsel := s.lselOf p port nh, source := 16, system := p.system, release := s.releaseOf p port d }
          (cs ++ [c], s.count (Ctr.FWD_REPL_COPIES e))) ([], s)
      let rest := s.egr.replicas.erase r
      if cs.isEmpty then
        (({ s with egr := { s.egr with replicas := rest } }).useGran r.queue (-(r.gran : Int))).releaseRef r.pkt
      else
        let s := { s with egr := { s.egr with replicas := rest ++ [{ r with made := true, left := cs.length }] } }
        cs.foldl (fun s c => s.addOffer c) s

/-- The first granted frame on its way to port `p` reaches the port's sort FIFO, late or in time, or its egress staging
(R229, R249, R259, R262). -/
def crossbarArrival (p : Nat) (s : State) : State :=
  match (s.egress p).crossing with
  | [] => s
  | c :: rest =>
    let s := s.onEgress p (fun e => { e with crossing := rest })
    if s.stillLocked c then
      let r := c.release.getD 0
      let s := match mfind s.pkts c.pkt with
        | some pk =>
          if pk.tow && carriedDeadline pk != 0 then
            let sl : Int := ((r : Int) - (s.now : Int)) / 65536
            { s with tow := { s.tow with slack := mput s.tow.slack c.cls (min sl (mget 0x7FFFFFFF s.tow.slack c.cls)) } }
          else s
        | none => s
      let (c, s) := if r < s.now then s.markLate c else (c, s)
      if c.late && s.lateDrop c then s.dropCopy c true
      else (s.onEgress p (fun e => { e with fifo := s.insertCopy c e.fifo })).syncFifo p
    else
      let c := { c with bypassed := true }
      if s.egressDown p then (s.count (Ctr.PRT_EGR_DOWN_DROP p)).dropCopy c true
      else s.onEgress p (fun e => { e with staging := e.staging ++ [c] })

/-- The release instant of the earliest frame in port `p`'s sort FIFO has come (R249, R261, R262): `slot` is the first
transmit slot at or after it, and `parity` says that its FIFO word fails parity. -/
def lockRelease (p : Nat) (slot : Stamp) (parity : Bool) (s : State) : State :=
  match (s.egress p).fifo with
  | [] => s
  | c :: rest =>
    if s.now < c.release.getD 0 then s
    else
      let s := s.accrue p
      let s := s.onEgress p (fun e => { e with fifo := rest })
      if parity then ((((s.count (Ctr.LCK_POISON p)).raise Src.SCP_FIFO_PAR (4 * p)).raise Src.LCK_PARITY p).dropCopy c true).syncFifo p
      else if s.egressDown p then ((s.count (Ctr.PRT_EGR_DOWN_DROP p)).dropCopy c true).syncFifo p
      else
        let h := s.heldAt c slot true
        let s' := if s.gateAdmits p c.cls c.lsel slot || c.waited then s else s.count (Ctr.SCH_GATE_WAIT (8 * p + c.cls))
        let c := if s.gateAdmits p c.cls c.lsel slot then c else { c with waited := true }
        let (c, s) := if h then s'.markLate c else (c, s')
        if c.late && s.lateDrop c then (s.dropCopy c true).syncFifo p
        else (s.onEgress p (fun e => { e with due := s.insertCopy c e.due })).syncFifo p

/-- A frame begins on port `p` (R250 to R252, R260): the stamped bit crosses the transmit ball of `lane`, one of the port's, at the
slot formed from that lane's copy (R56) with `d` and `n`; `first` is the first slot at or after the release instant of a locked
frame. -/
def frameTransmitStart (p lane d n : Nat) (first : Stamp) (fault : DescFault) (s : State) : State :=
  let e := s.egress p
  let owes := (List.range 8).any (fun k => (mget {} s.que.pfc (8 * p + k)).owed)
  let t := s.txStamp p lane d n
  if !(s.maySend p) || s.portOfLane lane != p || e.sending.isSome || owes || t < s.now || t < e.freeAt then s
  else
    let s := s.accrue p
    let due := (s.egress p).due
    let pick := due.find? (fun x => !(s.heldAt x t (s.stillLocked x)))
    let passed := due.takeWhile (fun x => s.heldAt x t (s.stillLocked x))
    let s := passed.foldl (fun s x =>
      let s := if s.gateAdmits p x.cls x.lsel t then s else s.noteWait p x
      let x := if s.gateAdmits p x.cls x.lsel t then x else { x with waited := true }
      if !(s.stillLocked x) then s
      else
        let (y, s) := s.markLate x
        if s.lateDrop y then (s.onEgress p (fun e => { e with due := e.due.erase x })).dropCopy y true
        else s.onEgress p (fun e => { e with due := e.due.map (fun z => if z = x then y else z) })) s
    let go (s : State) (x : Copy) : State :=
      if s.isFault x fault then s.faultDrop x fault true else (s.beginCopy x t first lane).witnessSending p
    let s := match pick with
      | some x => if s.slotOk x t first (s.stillLocked x) then go (s.onEgress p (fun e => { e with due := e.due.erase x })) x else s
      | none =>
        let st : List Copy := (s.egress p).staging
        let wait : List Copy := st.filter (fun x => !(s.gateAdmits p x.cls x.lsel t))
        let s : State := wait.foldl (fun s x => s.noteWait p x) s
        match (s.egress p).staging.find? (fun x => !(s.heldAt x t false) && s.guardOk x t) with
        | some x => go (s.onEgress p (fun e => { e with staging := e.staging.erase x })) x
        | none => s
    s.syncFifo p

/-- The last byte of the frame in transmission on port `p` has left the ball at `t`, no sooner than its bits take and no later than
the longest its slot allows (R86, R201, R235, R241, R243). -/
def frameTransmitEnd (p : Nat) (t : Stamp) (s : State) : State :=
  match (s.egress p).sending with
  | none => s
  | some x =>
    match mfind s.pkts x.copy.pkt with
    | none => (s.onEgress p (fun e => { e with sending := none })).inFlight p (-1)
    | some pk =>
      let n := (s.outFrame x.copy pk x.stamp).1.length
      if !pk.ended || !(decide (x.stamp + s.leastSpan p n ≤ t ∧ t ≤ x.stamp + s.tNeed p n)) then s
      else
        let c := x.copy
        let s := (s.accrue p).witnessSending p
        let (bytes, skip) := s.outFrame c pk x.stamp
        let l := bytes.length
        let s := if skip then s.count (Ctr.LCK_STAMP_SKIP p) else s
        let s := if pk.bad && pk.cut then (s.count (Ctr.PRT_STOMP_TX p)).raise Src.PRT_STOMP p else s
        let crossed := match x.close with
          | some k => decide (k < t)
          | none => false
        let s := if decide (c.lsel < l) && crossed then s.count (Ctr.SCH_GATE_OVERRUN p) else s
        let s := ((s.emit (.frame p x.stamp bytes)).loopBack p bytes).ptpTwoStep p x.stamp (bytes.take (l - 4))
        let s := if s.towPort p then s.count (Ctr.TOW_TX_DATA p) else s
        let s := match c.kind with
          | .ferry _ => (s.count (Ctr.FLT_FERRY_FWD p)).ferryForwarded
          | _ => s.addCredit p c.cls (!c.charged) (((c.lsel : Int) - (l : Int)) * 8000)
        let s := s.onEgress p (fun e => { e with sending := none, freeAt := t + s.byteSpan p 20 })
        (s.inFlight p (-1)).releaseCopy c |>.flushAhead p

/-! ## Front-port export (R303) -/

/-- The export frame on path `j` of unit `x`, read as `unit` (Table WIT-7). -/
def State.exportFrame (s : State) (x j : Nat) (unit : Bytes) : Bytes :=
  let body := le 6 (s.rd Reg.WIT_EXP_MAC) ++ le 6 (s.rd Reg.WIT_EXP_SMAC) ++ [0x88, 0xB5, 0x01, 0x01] ++ le 2 s.sysId
    ++ le 6 x ++ le 1 j ++ zeros 1 ++ sub s.sec.certId 0 4 ++ unit
  body ++ fcs body

/-- The next unit of export port `j` is sent in one frame, which holds the port for its bytes and the gap behind them and releases the
unit on that path (R303, R304). -/
def exportFrameTransmit (j : Nat) (errs : List (Nat × Nat)) (s : State) : State :=
  let x := mget 0 s.wit.portRel j
  let port := s.fld (Reg.WIT_EXP_PORT j) F.WIT_EXP_PORT.PORT
  if s.flag Reg.WIT_EXP_CTL F.WIT_EXP_CTL.PORTS_EN && s.ready 14 && decide (j < s.exportPorts) && decide (x < s.rd Reg.WIT_RING_WR) &&
      s.maySend port && (s.egress port).sending.isNone && decide ((s.egress port).freeAt ≤ s.now) then
    let (unit, s) := s.exportRead x errs
    let f := s.exportFrame x j unit
    let s := (s.emit (.frame port s.now f)).loopBack port f
    let s := s.onEgress port (fun e => { e with freeAt := s.now + s.byteSpan port (f.length + 20) })
    let s := { s with wit := { s.wit with portRel := mput s.wit.portRel j (x + s.exportPorts) } }
    (s.count (Ctr.WIT_EXP_UNITS (9 + j))).syncRelease
  else s

/-! ## Received flow control (R215, R234) -/

/-- A flow-control frame with opcode `opcode`, class-enable vector `enable` and eight times is received on port `p`: it is
consumed, and a priority flow-control frame pauses the classes it enables (R215, R234). -/
def pfcFrameReceive (p opcode enable : Nat) (times : List Nat) (s : State) : State :=
  if !(s.portExists p) || !(s.linkUp p) || s.portHalted p || s.deaf p || s.inFerry then s
  else if opcode = 0x0001 then s.count (Ctr.QUE_PFC_RX (8 * p))
  else if opcode ≠ 0x0101 then s
  else
    (List.range 8).foldl (fun s c =>
      if !(bitOf enable c) then s
      else
        let s := s.count (Ctr.QUE_PFC_RX (8 * p + c))
        if !(bitOf (s.cfgFld (Reg.SCH_PORT_CFG p) F.SCH_PORT_CFG.PFC_RX) c) then s
        else
          let q := times.getD c 0
          let n := Ctr.SCH_PAUSED_NS (8 * p + c)
          let old := mfind (s.egress p).pauses c
          let st := Reg.SCH_STATE p
          if q = 0 then s.endPause p c
          else
            let (t0, seen) := match old with
              | some (e, t0, b) => if s.now < e then (t0, b) else (s.now, false)
              | none => (s.now, false)
            ((s.onEgress p (fun e => { e with pauses := mput e.pauses c (s.now + s.quantaSpan p q, t0, seen) })).startNs n).setFld st
              F.SCH_STATE.PAUSED (putBits (s.fld st F.SCH_STATE.PAUSED) c c 1)) s

/-- The pause of class `c` of port `p` has run out (R234). -/
def pauseExpiry (p c : Nat) (s : State) : State :=
  match mfind (s.egress p).pauses c with
  | some (t, _, _) => if s.now < t then s else s.endPause p c
  | none => s

/-- Class `c` of port `p` has been paused for 100 ms without interruption (R234). -/
def schPfcLong (p c : Nat) (s : State) : State :=
  match mfind (s.egress p).pauses c with
  | some (t, t0, seen) =>
    if seen || decide (t < t0 + 100 * millisecond ∨ s.now < t0 + 100 * millisecond) then s
    else (s.onEgress p (fun e => { e with pauses := mput e.pauses c (t, t0, true) })).raise Src.SCH_PFC_LONG (p + 1024 * c)
  | none => s

end Sys2Proof.Machine
end

