-- ==== Sys2Proof/Machine/Replication.lean ====
section
/-! DEFINITION. The replication commands (R267, R268) and the group slots' bytes (Tables LOCK-4 and LOCK-5). -/
namespace Sys2Proof.Machine
namespace State

/-- A group slot by 2 × group + slot. -/
def slotAt (s : State) (i : Nat) : GroupSlot := mget {} s.egr.groups i

/-- A slot's 16 bytes (Table LOCK-4). -/
def slotBytes (x : GroupSlot) : Bytes :=
  le 8 (x.base + x.count * 2 ^ 21 + x.mask * 2 ^ 32 + x.groupD * 2 ^ 48)
    ++ le 8 (x.vfrom + x.vuntil * 2 ^ 16 + b2n x.valid * 2 ^ 32 + b2n x.immediate * 2 ^ 33 + b2n x.exclude * 2 ^ 34)

/-- The slot that 16 bytes spell, without SLICE_MASK. -/
def slotOf (bs : Bytes) : GroupSlot :=
  let w0 := leAt bs 0 8
  let w1 := leAt bs 8 8
  { base := bits w0 20 0, count := bits w0 30 21, groupD := bits w0 62 48, vfrom := bits w1 15 0, vuntil := bits w1 31 16,
    valid := bitOf w1 32, immediate := bitOf w1 33, exclude := bitOf w1 34 }

/-- PORT of copy entry `i`. -/
def entryPort (s : State) (i : Nat) : Nat := bits (mget 0 s.egr.lists i) 9 0

/-- SLICE_MASK of a list. -/
def listMask (s : State) (x : GroupSlot) : Nat :=
  (List.range x.count).foldl (fun m i => m ||| 2 ^ sliceOf (s.entryPort (x.base + i))) 0

/-- Whether a slot may be written, its bytes being `bs` (R268). -/
def slotRangeOk (s : State) (bs : Bytes) : Bool :=
  let x := slotOf bs
  decide (1 ≤ x.count ∧ x.count ≤ 512 ∧ x.base + x.count ≤ 2097152 ∧ x.groupD ≤ 20000)
    && !(bitOf (leAt bs 0 8) 31) && !(bitOf (leAt bs 0 8) 63) && bits (leAt bs 8 8) 63 35 == 0
    && (List.range (x.count - 1)).all (fun i => decide (s.entryPort (x.base + i) < s.entryPort (x.base + i + 1)))

/-- Whether the open group lets the old slot become the new one (R173, R267). -/
def slotChangeOk (s : State) (old new : GroupSlot) : Bool :=
  let fresh : Bool :=
    (new.vfrom == 0 && new.vuntil == 0 && (!new.valid || new.immediate))
      || (!new.immediate && s.openVer != 0 && new.vfrom == s.openVer && new.vuntil == 0)
  if !old.valid || old.immediate then fresh
  else if s.openVer ≠ 0 ∧ old.vfrom = s.openVer then !new.immediate || (new.vfrom == 0 && new.vuntil == 0)
  else if !new.valid then s.retired old.vuntil && ((new.vfrom == 0 && new.vuntil == 0) || s.openVer != 0)
  else s.openVer != 0 && old.vuntil == 0 && new == { old with vuntil := s.openVer }

/-- FWD_REPL_STAT follows the slots. -/
def syncGroups (s : State) : State :=
  let gs := ((s.egr.groups.filter (fun e => e.2.valid)).map (fun e => e.1 / 2)).eraseDups
  s.setFld Reg.FWD_REPL_STAT F.FWD_REPL_STAT.GROUPS_VALID gs.length

/-- A slot written. -/
def putSlot (s : State) (i : Nat) (x : GroupSlot) : State :=
  ({ s with egr := { s.egr with groups := mset {} s.egr.groups i x } }).syncGroups

end State

open State

/-- REPL_LIST_WRITE (R268, Table LOCK-6). -/
def replListWrite (keeper : Bool) (cmd : Bytes) (s : State) : State :=
  s.runCmd keeper (· == 0x30) cmd (fun s =>
    let a := cmdTarget cmd
    let n := cmdAux cmd
    let es := (List.range n).map (fun i => leAt cmd (16 + 4 * i) 4)
    if n = 0 ∨ 28 < n ∨ 2097152 < a + n ∨ es.any (fun e => bits e 31 29 != 0 || decide (513 < bits e 9 0)) then s.cmdEnd 6
    else
      s.claimed keeper 33 false (fun s =>
        if s.egr.groups.any (fun e => e.2.valid && decide (e.2.base < a + n ∧ a < e.2.base + e.2.count)) then s.cmdEnd 7
        else
          State.cmdEnd { s with egr := { s.egr with
            lists := (es.zipIdx a).foldl (fun m e => mset 0 m e.2 e.1) s.egr.lists } } 1))

/-- REPL_GROUP_WRITE (R268, Table LOCK-6). -/
def replGroupWrite (keeper : Bool) (cmd : Bytes) (s : State) : State :=
  s.runCmd keeper (· == 0x31) cmd (fun s =>
    let i := cmdTarget cmd
    let bs := sub cmd 16 16
    if 131072 ≤ i ∨ !(s.slotRangeOk bs) then s.cmdEnd 6
    else
      s.claimed keeper 33 false (fun s =>
        let old := s.slotAt i
        let new := slotOf bs
        let new := { new with mask := s.listMask new }
        let mine := old.valid && !old.immediate && s.openVer != 0 && old.vfrom == s.openVer
        if !(s.slotChangeOk old new) then s.cmdEnd 10
        else
          let sets := !new.immediate && (new.valid || new.vfrom != 0 || new.vuntil != 0)
          ((s.putSlot i new).noteIf (sets || mine) cmd).cmdEnd 1))

/-- REPL_GROUP_READ (R268, Table LOCK-6). -/
def replGroupRead (keeper : Bool) (cmd : Bytes) (s : State) : State :=
  s.runCmd keeper (· == 0x32) cmd (fun s =>
    let i := cmdTarget cmd
    if 131072 ≤ i then s.cmdEnd 6
    else s.claimed keeper 33 true (fun s => { status := some 1, reply := some (slotBytes (s.slotAt i)), st := s }))

end Sys2Proof.Machine
end

