-- ==== Sys2Proof/Machine/Ports.lean ====
section
/-! DEFINITION. Ports and lanes: configuration, link state, and the end of a received frame (R76 to R82, R86, R89, R92 to
R95). -/
namespace Sys2Proof.Machine
namespace State

/-- PRT_CFG(p).PHY and FEC may stand together with the octet mode and with the other ports of the lane quads (R78); an FEC setting
that Table PORT-2 does not give the type may not (log entry 15). -/
def phyOk (s : State) (p : Nat) : Bool :=
  let phy := s.phyOf p
  let fec := s.fecOf p
  let lanes := s.portLanes p
  phyInMode (s.octetMode p) phy && (phy == 0 || (fecAllowed phy fec &&
    lanes.all (fun l =>
      (List.range 4).all (fun i =>
        let o := s.portOfLane (l / 4 * 4 + i)
        o == p || s.phyOf o == 0 || (s.phyOf o == phy && s.fecOf o == fec)))))

/-- The frames and copies that wait at the egress of a port that is down or halted are dropped (R93). -/
def dropEgress (s : State) (p : Nat) : State :=
  let e := s.egress p
  let s := s.onEgress p (fun e => { e with due := [], staging := [], ahead := [] })
  ((e.due ++ e.staging).foldl (fun s c => (s.count (Ctr.PRT_EGR_DOWN_DROP p)).dropCopy c true) s).syncFifo p

/-- HALTED reads 1 once EN is 0 and no frame of the port is in flight (R92). -/
def haltIfIdle (s : State) (p : Nat) : State :=
  let x := s.portSt p
  if !(s.flag (Reg.PRT_CFG p) F.PRT_CFG.EN) && x.inFlight == 0 && !(s.portHalted p) then
    let s := { s with ports := mset {} s.ports p { x with stopping := false } }
    ((s.setFld (Reg.PRT_STATUS p) F.PRT_STATUS.HALTED 1).dropEgress p).syncQueHalted
  else s

/-- The new link state of a port is counted and raised (R80, R93). -/
def linkChanged (s : State) (p : Nat) (up : Bool) : State :=
  let st := Reg.PRT_STATUS p
  let s := s.setFld st F.PRT_STATUS.LINK_UP (b2n up)
  let s := s.setFld st F.PRT_STATUS.LINK_CHANGES (s.fld st F.PRT_STATUS.LINK_CHANGES + 1)
  s.raise Src.PRT_LINK_CHANGE (p + 1024 * b2n up)

/-- Nothing of port `p` is synchronised, negotiated or trained any longer, and its link is down (R80, R93). -/
def unsync (s : State) (p : Nat) : State :=
  let st := Reg.PRT_STATUS p
  let up := s.linkUp p
  let s := [F.PRT_STATUS.ALIGNED, F.PRT_STATUS.DESKEW_OK, F.PRT_STATUS.AM_ALIGN, F.PRT_STATUS.BLOCK_SYNC, F.PRT_STATUS.TRAIN_DONE,
    F.PRT_STATUS.AN_DONE].foldl (fun s f => s.setFld st f 0) s
  if up then (s.linkChanged p false).dropEgress p else s

/-- What follows a change of EN from `was` (R92). The link state is left as it is (log entry 15). -/
def enableChange (s : State) (p : Nat) (was : Bool) : State :=
  let on := s.flag (Reg.PRT_CFG p) F.PRT_CFG.EN
  if on then
    let s := { s with ports := mset {} s.ports p { s.portSt p with stopping := false } }
    (s.setFld (Reg.PRT_STATUS p) F.PRT_STATUS.HALTED 0).syncQueHalted
  else if was then ({ s with ports := mset {} s.ports p { s.portSt p with stopping := true } }).haltIfIdle p
  else s

/-- A write of `v` to PRT_CFG(p) that has been let through (R78, R92, R94). A port given another PHY type, FEC setting or AN_EN is
not synchronised for it, so that its link is not up (R80). -/
def writePrtCfg (s : State) (by_ : Agent) (p v : Nat) : State :=
  let r := Reg.PRT_CFG p
  if !(s.portExists p) then s
  else
    let v := if p < 512 then v else putBits v 14 8 (bits (s.rd r) 14 8)
    let t := s.writeFields by_ r v
    let same := t.phyOf p == s.phyOf p && t.fecOf p == s.fecOf p
    if !same && !(t.phyOk p) then s.raise Src.PRT_MODE_REJECT p
    else
      let t := if same && t.flag r F.PRT_CFG.AN_EN == s.flag r F.PRT_CFG.AN_EN then t else t.unsync p
      t.enableChange p (s.flag r F.PRT_CFG.EN)

/-- The ports whose MTU shadow lies outside 64 to 10,240 reject an apply of PRT (Table PORT-6). -/
def prtCheck (s : State) : Option (Nat × Nat) :=
  let port (off : Nat) : Option Nat := match regAt off with
    | some (_, i :: _) => if off = Reg.PRT_CFG i then some i else if off = Reg.PRT_CFG (512 + i) then some (512 + i) else none
    | _ => none
  ((s.regs.filterMap (fun e => if blockOf e.1 = 3 then port e.1 else none)).find? (fun p =>
    let m := s.fld (Reg.PRT_CFG p) F.PRT_CFG.MTU
    decide (m < 64 ∨ 10240 < m))).map (fun p => (Src.PRT_MODE_REJECT, p))

end State

open State

/-! ## Configuration -/

/-- A write to PRT_CFG(p) (R78). -/
def prtCfgWrite (by_ : Agent) (p : Nat) (v : Word64) (s : State) : State :=
  if 514 ≤ p then s else s.accept by_ (Reg.PRT_CFG p) (fun s => s.writePrtCfg by_ p v.toNat)

/-- A write of EN 0 to PRT_CFG(p), its other fields kept (R92). -/
def portDisable (by_ : Agent) (p : Nat) (s : State) : State :=
  if 514 ≤ p then s else
  s.accept by_ (Reg.PRT_CFG p) (fun s => s.writePrtCfg by_ p (putBits (s.rd (Reg.PRT_CFG p)) 0 0 0))

/-- A write to PRT_OCTET(o) (R78, R92): rejected where a port of the octet has a PHY type the new mode does not permit. -/
def prtOctetWrite (by_ : Agent) (o : Nat) (v : Word64) (s : State) : State :=
  if 64 ≤ o then s else
  let r := Reg.PRT_OCTET o
  s.accept by_ r (fun s =>
    let t := s.writeFields by_ r v.toNat
    let mode := t.fld r F.PRT_OCTET.MODE
    if mode != s.fld r F.PRT_OCTET.MODE && (s.octetPorts o).any (fun p => !(phyInMode mode (s.phyOf p))) then
      s.raise Src.PRT_MODE_REJECT o
    else t)

/-- A write to PRT_APPLY (R94). -/
def prtApply (by_ : Agent) (v : Word64) (s : State) : State :=
  s.applyWrite by_ Reg.PRT_APPLY v.toNat 3 F.PRT_APPLY.APPLY prtCheck (fun _ => .pipeline) id

/-- A disabled port's last frame in flight has left, and the port is halted (R92). -/
def portHaltedEvent (p : Nat) (s : State) : State := if s.portExists p then s.haltIfIdle p else s

/-! ## Link state -/

/-- An auto-negotiation and training attempt of port `p` ends: whether the partner resolved to the configured type, and
whether training completed (R80). -/
def anAttempt (p : Nat) (resolved trained : Bool) (s : State) : State :=
  let c := Reg.PRT_CFG p
  let st := Reg.PRT_STATUS p
  if !(s.portExists p) || !(s.flag c F.PRT_CFG.EN) || !(s.flag c F.PRT_CFG.AN_EN) || s.linkUp p then s
  else
    let s := (s.setFld st F.PRT_STATUS.AN_DONE (b2n resolved)).setFld st F.PRT_STATUS.TRAIN_DONE (b2n (resolved && trained))
    s.setFld st F.PRT_STATUS.LINK_CHANGES (s.fld st F.PRT_STATUS.LINK_CHANGES + 1)

/-- Port `p` has acquired synchronisation, alignment and deskew, with the skew of each lane of it, and `far` a lane whose
skew exceeds its tolerance (R80, R93). -/
def linkUpEvent (p : Nat) (skews : List Nat) (far : Option Nat) (s : State) : State :=
  let c := Reg.PRT_CFG p
  let st := Reg.PRT_STATUS p
  if !(s.portExists p) || !(s.flag c F.PRT_CFG.EN) || s.phyOf p == 0 || s.linkUp p
      || (s.flag c F.PRT_CFG.AN_EN && !(s.flag st F.PRT_STATUS.AN_DONE && s.flag st F.PRT_STATUS.TRAIN_DONE)) then s
  else
    let lanes := s.portLanes p
    let s := s.setFld st F.PRT_STATUS.BLOCK_SYNC 1
    let s := if s.fecOf p = 0 then s else s.setFld st F.PRT_STATUS.AM_ALIGN 1
    let s := if lanes.length = 1 then s else s.setFld st F.PRT_STATUS.DESKEW_OK 1
    let s := s.setFld st F.PRT_STATUS.ALIGNED (b2n (s.tq == 3))
    let s := (lanes.zipIdx).foldl (fun s x =>
      let ss := Reg.SER_STATUS x.1
      let s := (s.setFld ss F.SER_STATUS.SIGNAL 1).setFld ss F.SER_STATUS.CDR_TRACK 1
      let (eq, s) := s.takeFree 8
      let s := s.setFld ss F.SER_STATUS.EQ_SETTING eq
      s.setFld (Reg.SER_SKEW x.1) F.SER_SKEW.SKEW (if lanes.length = 1 then 0 else skews.getD x.2 0)) s
    let s := match far with
      | some l => if lanes.contains l && 1 < lanes.length then s.raise Src.SER_SKEW_RANGE l else s
      | none => s
    let s := s.linkChanged p true
    let s := { s with tow := { s.tow with ports := match mfind s.tow.ports p with
      | some x => mput s.tow.ports p { x with delays := [], accepted := 0, sent := [], rx := none }
      | none => s.tow.ports } }
    let again := (s.egress p).wasUp
    let s := s.onEgress p (fun e => { e with wasUp := true })
    (if again then s.enterRecovery p else s).svcCheck p

/-- Port `p`'s link goes down (R93): what waits at its egress is dropped. -/
def linkDownEvent (p : Nat) (s : State) : State := if !(s.portExists p) || !(s.linkUp p) then s else s.unsync p

/-- Lane `l` of an enabled port loses recovered-clock tracking (R95); `signal` says whether a receive signal is still
detected. -/
def cdrLoss (l : Nat) (signal : Bool) (s : State) : State :=
  let r := Reg.SER_STATUS l
  if 514 ≤ l ∨ !(s.flag (Reg.PRT_CFG (s.portOfLane l)) F.PRT_CFG.EN) ∨ !(s.flag r F.SER_STATUS.CDR_TRACK) then s
  else ((s.setFld r F.SER_STATUS.CDR_TRACK 0).setFld r F.SER_STATUS.SIGNAL (b2n signal)).raise Src.SER_CDR_LOSS l

/-- The framing anchor of port `p` needs `trim`, in 2^-16 UI per microsecond (R89): beyond 1/64 UI per microsecond the anchor is
lost, and in TQ 3 it is taken again once the trim suffices. -/
def alignLost (p trim : Nat) (s : State) : State :=
  let st := Reg.PRT_STATUS p
  let held := s.flag st F.PRT_STATUS.ALIGNED
  if !(s.portExists p) then s
  else if 1024 < trim then (if held then (s.setFld st F.PRT_STATUS.ALIGNED 0).raise Src.PRT_ALIGN_LOST p else s)
  else if s.tq = 3 ∧ s.linkUp p then s.setFld st F.PRT_STATUS.ALIGNED 1
  else s

/-! ## The end of a received frame (R82, R86, R197) -/

/-- The last byte of the frame `port` receives has arrived: `bytes` is the whole frame and `err` a receive error of the
line. A port in loopback receives the frames it has transmitted. -/
def rxFrameEnd (port : Nat) (bytes : Bytes) (err : Bool) (s : State) : State :=
  match s.receivingOf port with
  | none => s
  | some (id, p) =>
    let (bytes, s) := s.received port bytes
    let l := bytes.length
    let body := bytes.take (l - 4)
    let fcsBad := err || bytes.drop (l - 4) != fcs body
    let runt := decide (l < 64)
    let long := decide (s.cfgAtFld (Reg.PRT_CFG port) F.PRT_CFG.MTU p.ver p.stamp < l)
    let s := if runt then s.count (Ctr.PRT_RX_RUNT port) else s
    let s := if long then s.count (Ctr.PRT_RX_OVERSIZE port) else s
    let s := (s.inFlight port (-1)).setPkt id { p with ended := true, bytes := bytes, bad := runt || long || fcsBad }
    let counts := fcsBad && !(p.stage == .stored && s.tooLong id)
    let s := if counts then (s.count (Ctr.PRT_RX_ERR port)).onPkt id (fun p => { p with rxErr := true }) else s
    if p.stage = .receiving then
      if runt || long || fcsBad then s.dropFrame id else s
    else if p.stage = .stored then
      let s := ((((s.lengthCheck id).dropBad id).captureStage id).witnessIngress id).passKeeper id
      let s := match (s.egr.ports.find? (fun e => match e.2.sending with
          | some x => x.copy.pkt == id
          | none => false)) with
        | some e => s.witnessSending e.1
        | none => s
      s.forget id
    else s

end Sys2Proof.Machine
end

