-- ==== Sys2Proof/Machine/Hbm.lean ====
section
/-! DEFINITION. The in-package DRAM and the capture ring (chapter "In-Package DRAM, Scratchpad Banks and Hardware
Queues"): refresh, self-refresh, patrol, the rings' regions, HBM_APPLY and the capture ring. -/
namespace Sys2Proof.Machine
namespace State

/-! ## Regions (R415) -/

/-- The first unit of the copy region (Table MEM-1). -/
def copyRegion : Nat := 11534336

/-- Whether the witness ring (`wb`, `ws`) and the capture ring (`cb`, `cs`) may lie so: apart from each other and from the
copy region, the witness ring's size within its limits (R415). -/
def regionsOk (wb ws cb cs : Nat) : Bool :=
  decide (1024 ≤ ws ∧ ws ≤ 8388608 ∧ wb + ws ≤ copyRegion ∧ cb + cs ≤ copyRegion ∧ (wb + ws ≤ cb ∨ cb + cs ≤ wb ∨ cs = 0))

/-- A write of WIT_RING_CFG or HBM_CAP_RING is ignored where the regions it would leave are not permitted (R415). -/
def regionWrite (s : State) (by_ : Agent) (off v : Nat) : State :=
  s.accept by_ off (fun s =>
    let t := s.writeFields by_ off v
    let w := Reg.WIT_RING_CFG
    let c := Reg.HBM_CAP_RING
    if regionsOk (t.fld w F.WIT_RING_CFG.BASE) (t.fld w F.WIT_RING_CFG.SIZE) (t.fld c F.HBM_CAP_RING.BASE)
        (t.fld c F.HBM_CAP_RING.SIZE) then t
    else s.raise Src.HBM_CFG_REJECT 1)

/-! ## Checks of HBM_APPLY (R437) -/

/-- What an apply of block HBM is rejected for. -/
def hbmCheck (s : State) : Option (Nat × Nat) :=
  let lo := s.fld Reg.HBM_WM F.HBM_WM.LOW
  let hi := s.fld Reg.HBM_WM F.HBM_WM.HIGH
  if lo = 0 ∨ hi ≤ lo ∨ 64 < hi ∨ 8 < s.fld Reg.HBM_CTL F.HBM_CTL.REF_POSTPONE then some (Src.HBM_CFG_REJECT, 0) else none

/-- The stack of pseudo-channel `pc` is trained and not in self-refresh. -/
def hbmRuns (s : State) (k : Nat) : Bool :=
  s.flag (Reg.HBM_STAT k) F.HBM_STAT.TRAINED && !(s.flag (Reg.HBM_STAT k) F.HBM_STAT.SELF_REFRESH)

/-- The size of the capture ring in bytes. -/
def captureSize (s : State) : Nat := 4096 * s.fld Reg.HBM_CAP_RING F.HBM_CAP_RING.SIZE

/-- Bytes written at ring offset `o` of the capture ring. -/
def captureStore (s : State) (o : Nat) (bs : Bytes) : State :=
  { s with hbm := { s.hbm with capRing := (bs.zipIdx o).foldl (fun m e => mset 0 m e.2 e.1) s.hbm.capRing } }

/-- `n` bytes at ring offset `o` as BAR2 shows them: zero beyond the ring's end (R426). -/
def captureRead (s : State) (o n : Nat) : Bytes :=
  (List.range n).map (fun i => if o + i < s.captureSize then mget 0 s.hbm.capRing (o + i) else 0)

/-- WR_OFF and WRAPS after an entry that ends at ring offset `o`. -/
def captureAdvance (s : State) (o : Nat) : State :=
  let st := Reg.HBM_CAP_STAT
  if o = s.captureSize then
    (s.setFld st F.HBM_CAP_STAT.WR_OFF 0).setFld st F.HBM_CAP_STAT.WRAPS (s.fld st F.HBM_CAP_STAT.WRAPS + 1)
  else s.setFld st F.HBM_CAP_STAT.WR_OFF o

end State

open State

/-! ## The commands -/

/-- A refresh of one bank of pseudo-channel `pc` closes its row (R418, R419). -/
def State.refreshBank (s : State) (pc : Nat) : State :=
  let (b, s) := s.takeFree 8
  { s with hbm := { s.hbm with rows := mdel s.hbm.rows (pc + 64 * b) } }

/-- A refresh of pseudo-channel `pc` may be postponed (R419): witness writes wait in panic, a restore waits, or the write queue holds
more than LOW entries, which a batch may be draining. -/
def State.mayPostpone (s : State) (pc : Nat) : Bool :=
  (s.wit.panic.isSome && !s.wit.staged.isEmpty) || !s.tab.bad.isEmpty || !s.prs.ecc.isEmpty
    || decide (s.cfgFld Reg.HBM_WM F.HBM_WM.LOW < (s.writeQueue pc).length)

/-- HBM_APPLY (R437). -/
def hbmApply (by_ : Agent) (v : Word64) (s : State) : State :=
  s.applyWrite by_ Reg.HBM_APPLY v.toNat 16 F.HBM_APPLY.APPLY hbmCheck (fun _ => .pipeline) id

/-- A refresh interval of pseudo-channel `pc` expires at stack temperature `temp`: of the refreshes now owed `n` are
issued, and the others postponed where a class 1 or 2 request waits or a write batch may drain, up to REF_POSTPONE of them; one
issued past that limit is late (R419). A refresh closes its bank's row, which bank the spec leaves open (R418, log entry 4). -/
def hbmRefresh (pc n temp : Nat) (s : State) : State :=
  let k := pc / 32
  let st := Reg.HBM_STAT k
  if 64 ≤ pc ∨ !(s.hbmRuns k) then s
  else
    let old := s.fld st F.HBM_STAT.TEMP_C
    let t := min temp 255
    let s := (s.setFld st F.HBM_STAT.TEMP_C t).setFld st F.HBM_STAT.HOT (b2n (decide (85 < t)))
    let s := if old ≤ 95 ∧ 95 < t then s.raise Src.HBM_TEMP_HIGH (k + 256 * t) else s
    let owed := mget 0 s.hbm.postponed pc + 1
    let limit := s.cfgFld Reg.HBM_CTL F.HBM_CTL.REF_POSTPONE
    let issued := if s.mayPostpone pc then max (min n owed) (owed - limit) else owed
    let s := if limit + 1 < owed then s.raise Src.HBM_REFRESH_LATE pc else s
    let s := (List.range issued).foldl (fun s _ => s.refreshBank pc) s
    { s with hbm := { s.hbm with postponed := mset 0 s.hbm.postponed pc (owed - issued) } }

/-- Stack `k` enters self-refresh: permitted, idle for SR_IDLE_US, no unit staged and no panic (R421). Its queued writes, which no read
holds up in the idle time, are served before, and its rows are closed. -/
def selfRefreshEntry (k : Nat) (s : State) : State :=
  let idle := max 1 (s.cfgFld Reg.HBM_CTL F.HBM_CTL.SR_IDLE_US) * microsecond
  if k < 2 ∧ s.hbmRuns k ∧ s.cfgFlag Reg.HBM_CTL F.HBM_CTL.SR_EN ∧ mget 0 s.hbm.lastReq k + idle ≤ s.now
      ∧ s.wit.staged.isEmpty ∧ s.wit.panic.isNone then
    let s := (List.range 32).foldl (fun s i => drainWrites [] s (32 * k + i)) s
    let s := { s with hbm := { s.hbm with rows := s.hbm.rows.filter (fun e => e.1 % 64 / 32 != k) } }
    (s.setFld (Reg.HBM_STAT k) F.HBM_STAT.SELF_REFRESH 1).startNs (Ctr.HBM_SR_NS k)
  else s

/-- A request makes stack `k` leave self-refresh (R421). -/
def selfRefreshExit (k : Nat) (s : State) : State := if k < 2 then s.hbmWake k else s

/-- The patrol read covers the 64 bytes of line index `line`, 24 hours after it last did, meeting no error (0), a single-bit error (1)
or a double-bit error (2) (R422). -/
def hbmPatrol (line err : Nat) (s : State) : State :=
  let a := 64 * line
  let due := isDue (mfind s.hbm.patrolled line) (86400 * second) s.now
  if 805306368 ≤ line ∨ !due ∨ !(s.flag (Reg.HBM_STAT (hbmStack a)) F.HBM_STAT.TRAINED) then s
  else
    let s := { s with hbm := { s.hbm with patrolled := mput s.hbm.patrolled line s.now } }
    (s.hbmRead 3 a 64).hbmError a err

/-- The oldest staged capture entry is written at the next ring offset, after a pad entry where it does not fit before the
ring's end, while reads wait for the banks `reads` (R417, R424); with FREEZE set the ring stays as it is (R425). What a pad entry
holds beside its mark and CAP_LEN 0 is not stated (log entry 4). -/
def captureWrite (reads : List Nat) (s : State) : State :=
  if s.flag Reg.HBM_CAP_CFG F.HBM_CAP_CFG.FREEZE then s else
  match s.hbm.capStaging with
  | [] => s
  | e :: rest =>
    let s := { s with hbm := { s.hbm with capStaging := rest } }
    let size := s.captureSize
    let base := 4096 * s.fld Reg.HBM_CAP_RING F.HBM_CAP_RING.BASE
    let n := e.data.length
    if size < n then s.count Ctr.HBM_CAP_DROP
    else
      let off := s.fld Reg.HBM_CAP_STAT F.HBM_CAP_STAT.WR_OFF
      let off := if size ≤ off then 0 else off
      let s :=
        if off + n ≤ size then s
        else
          let (x, s) := s.takeFree 512
          let pad := patch (patch (le 64 x) 20 [0x80]) 24 [0, 0]
          ((s.captureStore off pad).hbmWrite 5 (base + off) (size - off) reads).captureAdvance size
      let off := if off + n ≤ size then off else 0
      (((s.captureStore off e.data).hbmWrite 5 (base + off) n reads).captureAdvance (off + n)).count Ctr.HBM_CAP_ENTRIES

end Sys2Proof.Machine
end

