-- ==== Sys2Proof/Machine/Membership.lean ====
section
/-! DEFINITION. Membership of a joined system (chapter "Joined Systems over Towpath Links"): votes, the time master and the
parent, and the member's state (R309, R323 to R335). -/
namespace Sys2Proof.Machine
namespace State

/-! ## Votes and reach (R328, R330) -/

/-- The vote weight of system id `i` in force. -/
def towWeight (s : State) (i : Nat) : Nat := s.cfgFld (Reg.TOW_WEIGHT (i / 8)) (F.TOW_WEIGHT.W (i % 8))

/-- W, the sum of all weights. -/
def totalWeight (s : State) : Nat := (List.range 512).foldl (fun a i => a + s.towWeight i) 0

/-- The reachable members in system-id order. -/
def reachSet (s : State) : List Nat := (List.range 512).filter s.reachable

/-- The sum of the weights of the members that are reachable now. -/
def reachWeight (s : State) : Nat := s.reachSet.foldl (fun a i => a + s.towWeight i) 0

/-- The member holds the majority. -/
def majority (s : State) : Bool := decide (s.totalWeight < 2 * s.reachWeight)

/-- TOW_STATE.STATE. -/
def towSt (s : State) : Nat := s.fld Reg.TOW_STATE F.TOW_STATE.STATE

/-- The device tracks a local phase reference (Table TOW-5, flag 3). -/
def localTracking (s : State) : Bool :=
  let r := s.fld Reg.TIM_STATE F.TIM_STATE.REF_IN_USE
  decide (1 ≤ r ∧ r ≤ 3) && (s.tq == 2 || s.tq == 3)

/-- CFG_HASH over the values in force (R331). -/
def cfgHash (s : State) : Nat :=
  let c := Reg.TOW_CFG
  leAt (sha256 (ascii "DLTW" ++ (List.range 512).flatMap (fun i => le 1 (s.towWeight i))
    ++ le 2 (s.cfgFld Reg.WIT_EPOCH_LEN F.WIT_EPOCH_LEN.LEN_MS)
    ++ (List.range 8).flatMap (fun k => le 2 (s.cfgFld (Reg.LCK_SYS_D k) F.LCK_SYS_D.D_NS))
    ++ le 1 (s.cfgFld c F.TOW_CFG.DIAM) ++ le 1 (s.cfgFld c F.TOW_CFG.MAX_HOPS) ++ le 2 (s.cfgFld c F.TOW_CFG.TIME_PERIOD_US)
    ++ le 1 (s.cfgFld c F.TOW_CFG.FREE_SYSTEM))) 0 4

/-! ## The flags of an entry (Table TOW-5) -/

/-- The pending pair (P_VER, P_T) this member holds: the master's own, or the one relayed from the parent. -/
def pendingPair (s : State) : Nat × Nat :=
  if s.tow.master = some s.ownSys then
    let v := s.fld Reg.VER_STATE F.VER_STATE.ARMED
    (v, if v = 0 then 0 else d96 s.ver.armedT)
  else (s.tow.pVer, s.tow.pT)

/-- The flags of the member's own entry. -/
def ownFlags (s : State) : Nat :=
  let v := s.fld Reg.VER_STATE F.VER_STATE.ARMED
  let same := (v, if v = 0 then 0 else d96 s.ver.armedT) == s.pendingPair
  b2n (s.towSt == 2) + 2 * b2n same + 4 * b2n s.tow.healIntent + 8 * b2n s.localTracking

/-- Member `i`'s flags and TIME_PRIO as this member knows them. -/
def entryOf (s : State) (i : Nat) : Nat × Nat :=
  if i = s.ownSys then (s.ownFlags, s.cfgFld Reg.TOW_CFG F.TOW_CFG.TIME_PRIO)
  else match mfind s.tow.entries i with
    | some e => (e.flags, e.prio)
    | none => (0, 0)

/-- Member `i` is known to be Adrift: it says so to a neighbour, or it carries the heal-intent flag (log entry 31). -/
def knownAdrift (s : State) (i : Nat) : Bool :=
  if i = s.ownSys then s.isAdrift
  else bitOf (s.entryOf i).1 2 || s.tow.ports.any (fun e =>
    s.towPort e.1 && s.fld (Reg.TOW_PORT_STAT e.1) F.TOW_PORT_STAT.PEER_SYSID == i && bitOf e.2.peer.flags 2)

/-- The time master (R323): the candidate with the local-reference flag, else any; then the lowest TIME_PRIO, then the
lowest system id. -/
def electMaster (s : State) : Option Nat :=
  let cs := s.reachSet.filter (fun i => !(s.knownAdrift i))
  let key (i : Nat) : Nat := (if bitOf (s.entryOf i).1 3 then 0 else 1) * 2 ^ 20 + (s.entryOf i).2 * 2 ^ 10 + i
  match cs with
  | [] => none
  | c :: r => some (r.foldl (fun a i => if key i < key a then i else a) c)

/-- The master becomes `m` (R323). -/
def setMaster (s : State) (m : Option Nat) : State :=
  if s.tow.master = m then s
  else
    let n := m.getD 0x1FF
    let s := { s with tow := { s.tow with master := m, masterHash := none } }
    (s.setFld Reg.TOW_STATE F.TOW_STATE.MASTER n).raise Src.TOW_MASTER_CHANGE n

/-! ## Neighbours and the parent (R324) -/

/-- Port `p`'s exchange state. -/
def towPeer (s : State) (p : Nat) : TowPort := mget {} s.tow.ports p

/-- Port `p`'s exchange state replaced. -/
def setTowPeer (s : State) (p : Nat) (x : TowPort) : State := { s with tow := { s.tow with ports := mput s.tow.ports p x } }

/-- The peer of towpath port `p` has been heard within TIMEOUT. -/
def peerHeard (s : State) (p : Nat) : Bool :=
  s.towPort p && (match (s.towPeer p).heard with
    | some t => decide (s.now ≤ t + s.towTimeout)
    | none => false)

/-- TOW_PORT_STAT(p).UP follows what is heard; a change raises TOW_PEER_CHANGE (Table TOW-23). -/
def syncUp (s : State) (p : Nat) : State :=
  let r := Reg.TOW_PORT_STAT p
  let up := s.peerHeard p
  if s.flag r F.TOW_PORT_STAT.UP = up then s
  else (s.setFld r F.TOW_PORT_STAT.UP (b2n up)).raise Src.TOW_PEER_CHANGE (p + 1024 * b2n up)

/-- The parent's port: the neighbour reporting the fewest hops from this member's master, then the lowest MEAN_DELAY, then
the lowest port. -/
def parentPort (s : State) : Option Nat :=
  if s.tow.master.isNone ∨ s.tow.master = some s.ownSys then none
  else
    let cs := s.tow.ports.filter (fun e => s.peerHeard e.1 && decide (e.2.peer.hops < 15) && some e.2.peer.master == s.tow.master)
    let key (e : Nat × TowPort) : Nat :=
      e.2.peer.hops * 2 ^ 42 + s.fld (Reg.TOW_PORT_STAT e.1) F.TOW_PORT_STAT.MEAN_DELAY * 2 ^ 10 + e.1
    match cs with
    | [] => none
    | c :: r => some (r.foldl (fun a e => if key e < key a then e else a) c).1

/-- PARENT and HOPS, and system time as the reference of a member that has a parent and is not Adrift (R324, R333). A member in
TQ 3 that has lost its parent keeps system time until its updates are missed (Table TIME-8; log entry 13). -/
def setParent (s : State) : State :=
  let p := s.parentPort
  let hops := match p with
    | some q => min 15 ((s.towPeer q).peer.hops + 1)
    | none => if s.tow.master = some s.ownSys then 0 else 15
  let s := (s.setFld Reg.TOW_STATE F.TOW_STATE.HOPS hops).setFld Reg.TOW_STATE F.TOW_STATE.PARENT (p.getD 0x3FF)
  if p.isSome && !s.isAdrift then (s.validate 4).setRef 4
  else if s.refInUse = 4 then
    let s := s.dropSystemTime
    if s.isAdrift then s.setRef 0
    else if s.bestRef ≠ 0 ∧ (s.tq ≠ 3 ∨ s.tow.master = some s.ownSys) then s.setRef s.bestRef
    else s
  else s

/-- Keeper firmware owns the servo and writes W_TS_PS (R325), which TQ 3 bounds (R62). -/
def setTsUnc (s : State) (ps : Nat) : State :=
  if s.flag Reg.TIM_CTRL F.TIM_CTRL.SERVO_HOST then s else (s.setFld Reg.TIM_TS_UNC F.TIM_TS_UNC.W_TS_PS ps).tsUncCheck

/-- A master is in TQ 3 while it tracks its local reference or, under FREE_SYSTEM, always (R325), and while its uncertainty is
one that TQ 3 allows (R62). -/
def masterTime (s : State) : State :=
  let free := s.cfgFlag Reg.TOW_CFG F.TOW_CFG.FREE_SYSTEM
  if s.tow.master ≠ some s.ownSys ∨ s.isAdrift then s
  else
    let s := if free && !s.localTracking then s.setTsUnc 0 else s
    if (free || s.localTracking) && s.tsUncOk then s.setTq 3 else s

/-! ## The state (R332, R337) -/

/-- A PARTITION control event (Table TOW-8). -/
def partition (s : State) (event : Nat) : State :=
  let map := (List.range 64).map (fun j => BitVec.ofNat 8 ((List.range 8).foldl (fun a k =>
    a + b2n (s.tow.reach.contains (8 * j + k)) * 2 ^ k) 0))
  s.controlNow 0x06 (le 1 event ++ le 1 s.towSt ++ le 2 (s.fld Reg.TOW_STATE F.TOW_STATE.PEPOCH)
    ++ le 3 (s.tow.reach.foldl (fun a i => a + s.towWeight i) 0) ++ le 3 s.totalWeight ++ le 2 (s.tow.master.getD 0xFFFF)
    ++ zeros 12 ++ map)

/-- The member's state becomes `st`, which is witnessed as `event` and raised. -/
def setTowState (s : State) (st event : Nat) : State :=
  let s := s.setFld Reg.TOW_STATE F.TOW_STATE.STATE st
  (s.partition event).raise Src.TOW_STATE_CHANGE (st + 8 * s.fld Reg.TOW_STATE F.TOW_STATE.PEPOCH)

/-- The device leaves its system, by configuration or in ferry mode (Table TOW-6); with a local reference tracking, TQ 3
becomes TQ 2, and system time in use is lost (Table TIME-8). -/
def leaveSystem (s : State) : State :=
  let s := { s with tow := { s.tow with reach := [], healIntent := false, conflict := false, entries := [], anchorDue := [] } }
  let s := s.setTowState 0 6
  let s := s.setMaster none
  let s := ((s.setFld Reg.TOW_STATE F.TOW_STATE.HOPS 15).setFld Reg.TOW_STATE F.TOW_STATE.PARENT 0x3FF)
  let s := s.dropSystemTime
  if s.tq = 3 ∧ s.localTracking then s.setTq 2 else s.refCheck

/-- The member enters ADRIFT (R333). -/
def goAdrift (s : State) : State :=
  let r := Reg.TOW_STATE
  let s := s.setFld r F.TOW_STATE.PEPOCH (s.fld r F.TOW_STATE.PEPOCH + 1)
  let s := { s with
    tow := { s.tow with healIntent := false },
    wit := { s.wit with
      adriftE := true,
      recs := s.wit.recs.map (fun (e : Nat × Recorder) => (e.1, { e.2 with blk := e.2.blk.map (fun (b : OpenBlk) => { b with adrift := true }) })) } }
  let s := s.setTowState 3 1
  let s := if 3 ≤ s.tq ∧ s.tq ≤ 5 then s.setTq 6 else s
  s.setParent

/-- A JOINING member is admitted, its epoch in force closes, and the next one takes the system's E (R326, R331). -/
def admitMember (s : State) : State :=
  let s := s.setTowState 2 5
  let e := if s.tow.master = some s.ownSys then none else some s.tow.sysEpoch
  if s.witOn then s.closeEpoch s.now s.now false e
  else match e with
    | some x => s.setFld Reg.WIT_EPOCH_STAT F.WIT_EPOCH_STAT.EPOCH x
    | none => s

/-- Healing begins (Table TOW-6, R335). -/
def beginHeal (s : State) : State :=
  let s := { s with tow := { s.tow with healIntent := true, healAt := s.now }, tim := { s.tim with inTrack := 0 } }
  s.setTowState 4 3

/-- The member's CFG_HASH equals the master's (R331). -/
def hashAgrees (s : State) : Bool := s.tow.master == some s.ownSys || s.tow.masterHash == some s.cfgHash

/-- The row of Table TOW-6 that applies to a member outside ferry mode at this instant, if one does; or the change of the
reachable set that an Authoritative member records (Table TOW-8, events 2 and 7). -/
def memberStep (s : State) (old : List Nat) : State :=
  let st := s.towSt
  if st = 2 then
    match s.tow.masterHash with
    | some h =>
      if s.hashAgrees then holdOrSplit s old
      else (s.raise Src.TOW_CFG_MISMATCH h).setTowState 1 8
    | none => holdOrSplit s old
  else if st = 4 ∧ !s.majority then s.goAdrift
  else if st = 1 ∧ s.hashAgrees ∧ !s.tow.conflict ∧ s.majority ∧ s.tq = 3 then s.admitMember
  else if st = 3 ∧ s.majority ∧ s.cfgFlag Reg.TOW_CFG F.TOW_CFG.AUTO_HEAL then s.beginHeal
  else s
where
  /-- An Authoritative member keeps its majority or becomes Adrift. -/
  holdOrSplit (s : State) (old : List Nat) : State :=
    if !s.majority then s.goAdrift
    else if old.any (fun i => !(s.tow.reach.contains i)) then s.partition 2
    else if s.tow.reach.any (fun i => !(old.contains i)) then s.partition 7
    else s

/-- The member's votes, master, parent and state at this instant (R323, R324, R330 to R332). -/
def towJudge (s : State) : State :=
  let on := s.cfgFlag Reg.TOW_CFG F.TOW_CFG.EN && !s.inFerry
  if !on then (if s.towSt = 0 then s else s.leaveSystem)
  else
    let s := if s.towSt = 0 then s.setTowState 1 8 else s
    let s := (s.tow.ports.map (·.1)).foldl syncUp s
    let old := s.tow.reach
    let s := { s with tow := { s.tow with reach := s.reachSet } }
    let s := s.setMaster (if s.majority then s.electMaster else none)
    let s := s.setParent.masterTime
    s.memberStep old

/-! ## Checks of TOW_APPLY (R330) -/

/-- What an apply of block TOW is rejected for: a total weight of 0 while EN is 1. -/
def towCheck (s : State) : Option (Nat × Nat) :=
  let w := (List.range 64).any (fun j => s.rd (Reg.TOW_WEIGHT j) != 0)
  if s.flag Reg.TOW_CFG F.TOW_CFG.EN && !w then some (Src.TOW_CFG_REJECT, 0x3FF) else none

end State

open State

/-! ## The commands -/

/-- TOW_APPLY (R338). -/
def towApply (by_ : Agent) (v : Word64) (s : State) : State :=
  s.applyWrite by_ Reg.TOW_APPLY v.toNat 15 F.TOW_APPLY.APPLY towCheck (fun _ => .pipeline) towJudge

/-- Member `i`'s sequence has not advanced within TIMEOUT (R328): it is unreachable from now. -/
def memberTimeout (i : Nat) (s : State) : State := if s.isMember && !(s.reachable i) then s.towJudge else s

/-- A Warden write of TOW_CTL.HEAL (R332): an ADRIFT member that holds the majority again begins to heal. -/
def towHeal (by_ : Agent) (v : Word64) (s : State) : State :=
  s.accept by_ Reg.TOW_CTL (fun s =>
    let go := s.acts by_ Reg.TOW_CTL F.TOW_CTL.HEAL v.toNat
    let s := s.writeFields by_ Reg.TOW_CTL v.toNat
    if go && s.towSt == 3 && s.majority then s.beginHeal else s)

/-- The comparison, every 100 ms, of towpath port `p`'s recovered frequency with its transmit frequency; `diff` in units of
10^-12 (R311). -/
def towFreqCheck (p : Nat) (diff : Int) (s : State) : State :=
  let x := s.towPeer p
  let due := isDue x.freqAt (100 * millisecond) s.now
  if s.towPort p && s.linkUp p && due then
    let s := s.setTowPeer p { x with freqAt := some s.now }
    if 50000 < diff.natAbs then s.raise Src.TOW_FREQ_MISMATCH p else s
  else s

/-- A write of TOW_PORT_CFG(p) (R310): EN is ignored unless the port is halted, and setting it is rejected on a port that may
not run in towpath mode. -/
def towPortCfgWrite (by_ : Agent) (p : Nat) (v : Word64) (s : State) : State :=
  let r := Reg.TOW_PORT_CFG p
  s.accept by_ r (fun s =>
    let cur := s.flag r F.TOW_PORT_CFG.EN
    let want := bits v.toNat 63 63 == 1
    let sets := want && !cur
    if 512 ≤ p then s
    else if sets && (decide (s.phyOf p < 4) || s.exportPort p) then s.raise Src.TOW_CFG_REJECT p
    else
      let new := if s.portHalted p then want else cur
      let s := s.writeFields by_ r (putBits v.toNat 63 63 (b2n new))
      if new && !cur then s.setTowPeer p {}
      else if cur && !new then ({ s with tow := { s.tow with ports := mdel s.tow.ports p } }).syncUp p
      else s)

end Sys2Proof.Machine
end

