-- ==== Sys2Proof/Machine/Versions.lean ====
section
/-! DEFINITION. Rule versions (chapter "Rule Versions, Commits and Changing Configuration Live"): commit groups, the commit
instant and retirement. -/
namespace Sys2Proof.Machine
namespace State

/-! ## Version numbers and times -/

/-- The version after `v` (R169). -/
def nextVer (v : Nat) : Nat := v % 65535 + 1

/-- VER_STATE.OPEN. -/
def openV (s : State) : Nat := s.fld Reg.VER_STATE F.VER_STATE.OPEN
/-- VER_STATE.ARMED. -/
def armedV (s : State) : Nat := s.fld Reg.VER_STATE F.VER_STATE.ARMED
/-- VER_STATE.CURRENT. -/
def currentV (s : State) : Nat := s.fld Reg.VER_STATE F.VER_STATE.CURRENT
/-- VER_STATE.OLDEST. -/
def oldestV (s : State) : Nat := s.fld Reg.VER_STATE F.VER_STATE.OLDEST

/-- VER_CFG.LEAD_US, a value below 20 taken as 20 (Table VER-13). -/
def leadTime (s : State) : Stamp := max 20 (s.fld Reg.VER_CFG F.VER_CFG.LEAD_US) * microsecond

/-- VER_CFG.MIN_SPACING_US, a value outside its range taken as the nearer limit (Table VER-13). -/
def minSpacing (s : State) : Stamp := clamp 100 1000000 (s.fld Reg.VER_CFG F.VER_CFG.MIN_SPACING_US) * microsecond

/-- The commit instant of CURRENT, as VER_CURRENT_TIME reports it (R171). -/
def currentTime (s : State) : Stamp :=
  (ofD96 (s.rd Reg.VER_CURRENT_TIME + 2 ^ 64 * s.fld Reg.VER_CURRENT_TIME_HI F.VER_CURRENT_TIME_HI.T_HI)).getD 0

/-- Version `v` is CURRENT from `t` on. -/
def setCurrent (s : State) (v : Nat) (t : Stamp) : State :=
  let s := { s with ver := { s.ver with commits := s.ver.commits ++ [(v, t)] } }
  let s := s.setFld Reg.VER_STATE F.VER_STATE.CURRENT v
  (s.wr Reg.VER_CURRENT_TIME (d96 t % 2 ^ 64)).setFld Reg.VER_CURRENT_TIME_HI F.VER_CURRENT_TIME_HI.T_HI (d96 t / 2 ^ 64)

/-- VER_STATUS reports an operation (Table VER-11). -/
def verStatus (s : State) (op ver status : Nat) : State :=
  let r := Reg.VER_STATUS
  ((s.setFld r F.VER_STATUS.LAST_VER ver).setFld r F.VER_STATUS.LAST_OP op).setFld r F.VER_STATUS.LAST_STATUS status

/-- The commands of the open group become `cmds`. -/
def setOpenCmds (s : State) (cmds : List Bytes) : State :=
  { s with ver := { s.ver with openCmds := cmds } }.setFld Reg.VER_STATUS F.VER_STATUS.GROUP_CMDS cmds.length

/-! ## Aborting a group (Table VER-1) -/

/-- Every versioned entry is passed through: `f` gives a range's new VFROM, VUNTIL and whether the entry stays valid. -/
def mapRanges (s : State) (f : Nat → Nat → Nat × Nat × Bool) (skip : Nat → Bool) : State :=
  let em (e : EmEntry) : EmEntry :=
    if !e.valid || e.immediate then e
    else let (a, b, ok) := f e.vfrom e.vuntil; { e with vfrom := a, vuntil := b, valid := ok }
  let tc (k : Nat) (e : TcRow) : TcRow :=
    if !e.valid || e.immediate || skip k then e
    else let (a, b, ok) := f e.vfrom e.vuntil; { e with vfrom := a, vuntil := b, valid := ok }
  let gs (e : GroupSlot) : GroupSlot :=
    if !e.valid || e.immediate then e
    else let (a, b, ok) := f e.vfrom e.vuntil; { e with vfrom := a, vuntil := b, valid := ok }
  { s with
    tab := { s.tab with
      em := s.tab.em.map (fun x => (x.1, em x.2)),
      stash := s.tab.stash.map (fun x => (x.1, em x.2)),
      tc := s.tab.tc.map (fun x => (x.1, tc x.1 x.2)),
      tcDram := s.tab.tcDram.map (fun x => (x.1, tc x.1 x.2)) },
    egr := { s.egr with groups := s.egr.groups.map (fun x => (x.1, gs x.2)) } }

/-- The entries of an aborted version `v`: those that begin with it are invalidated, those that end with it end no more. -/
def abortEntries (s : State) (v : Nat) : State :=
  s.mapRanges (fun a b => (a, if b = v then 0 else b, a != v)) (fun _ => false)

/-- The open group, if any, is aborted. -/
def abortOpen (s : State) : State :=
  if s.openV = 0 then s else ((s.abortEntries s.openV).setFld Reg.VER_STATE F.VER_STATE.OPEN 0).setOpenCmds []

/-! ## The digest (R179) -/

/-- The offsets of an array of registers. -/
def expand (base : Nat) : List (Nat × Nat) → List Nat
  | [] => [base]
  | (st, n) :: ds => (List.range n).flatMap (fun i => expand (base + st * i) ds)

/-- The registers of block `b` that hold STG fields, in ascending offset. -/
def stgRegs (b : Nat) : List Nat :=
  (((regsOf b).filter (fun d => d.fields.any (fun f => f.acc == .stg))).flatMap (fun d => expand d.base d.dims)).mergeSort
    (fun x y => decide (x ≤ y))

/-- The blocks a mask names, those without STG fields left out (Table VER-9). -/
def maskBlocks (m : Nat) : List Nat :=
  (List.range 24).filter (fun b => bitOf m b && (regsOf b).any (fun d => d.fields.any (fun f => f.acc == .stg)))

/-- The group digest of version `v` to commit at `t` (R179). -/
def groupDigest (s : State) (v : Nat) (t : Stamp) (mask : Nat) (cmds : List Bytes) : Bytes :=
  sha256 (ascii "DLVG" ++ le 2 v ++ le 12 (d96 t) ++ le 4 mask ++ cmds.flatten
    ++ (maskBlocks mask).flatMap (fun b => (stgRegs b).flatMap (fun o => le 8 o ++ le 8 (s.rd o &&& accMask o .stg))))

/-! ## Block checks and applies at a commit (R185, R187) -/

/-- What block `b`'s shadows would be rejected for. -/
def blockCheck (s : State) (b : Nat) : Option (Nat × Nat) :=
  if b = 3 then s.prtCheck
  else if b = 6 then s.xmtCheck
  else if b = 7 then s.tcmCheck
  else if b = 10 then (if s.fld Reg.MTR_CFG F.MTR_CFG.PRECOLOUR_OFF = 511 then some (Src.MTR_CFG_REJECT, 0) else none)
  else if b = 11 then s.queCheck
  else if b = 12 then s.schCheck
  else if b = 13 then s.lckCheck
  else if b = 15 then s.towCheck
  else if b = 16 then s.hbmCheck
  else none

/-- `f` done at instant `t` of device time. -/
def atTime (s : State) (t : Stamp) (f : State → State) : State := { f { s with time := t * 2 ^ 32 } with time := s.time }

/-- Block `b` applies its shadows at the commit of version `v`. -/
def commitBlock (v : Nat) (s : State) (b : Nat) : State :=
  let bank := s.cfgFld Reg.PRS_CS_BANK F.PRS_CS_BANK.ACTIVE
  let s := if b = 12 then s.schBefore else s
  let s := s.applyBlock b (.version v)
  if b = 2 then s.timAfter
  else if b = 5 then s.afterPrs bank
  else if b = 11 then s.queAfter
  else if b = 12 then s.schAfter
  else if b = 13 then s.lckAfter
  else if b = 14 then s.selectionRecord
  else if b = 15 then s.towJudge
  else s

/-! ## Arming (Table VER-2) -/

/-- The time state allows a commit: TQ 2 or 3, in a joined system TQ 3. -/
def verTimeOk (s : State) : Bool := s.tq == 3 || (s.tq == 2 && !s.isMember)

/-- T as VER_COMMIT_TIME holds it. -/
def commitTime (s : State) : Option Stamp :=
  ofD96 (s.rd Reg.VER_COMMIT_TIME + 2 ^ 64 * s.fld Reg.VER_COMMIT_TIME_HI F.VER_COMMIT_TIME_HI.T_HI)

/-- The status that refuses an ARM; `none` where it is accepted. A module that is not ready refuses it too (R347). -/
def armRefusal (s : State) : Option Nat :=
  if s.openV = 0 ∨ s.armedV ≠ 0 ∨ !(s.flag Reg.SEC_STATUS F.SEC_STATUS.READY) then some 7
  else match s.commitTime with
    | none => some 12
    | some t =>
      if s.isAdrift then some 9
      else if !s.verTimeOk then some 2
      else if t < s.now + s.leadTime then some 3
      else if t ≤ s.currentTime then some 4
      else if t < s.currentTime + s.minSpacing then some 5
      else if (maskBlocks (s.fld Reg.VER_GROUP_BLOCKS F.VER_GROUP_BLOCKS.MASK)).any (fun b => (s.blockCheck b).isSome) then some 8
      else none

/-- The open group is armed for `t`. -/
def arm (s : State) (t : Stamp) : State :=
  let v := s.openV
  let mask := s.fld Reg.VER_GROUP_BLOCKS F.VER_GROUP_BLOCKS.MASK
  let cmds := s.ver.openCmds
  let s := s.putBytes (Reg.VER_DIGEST 0) 4 (s.groupDigest v t mask cmds)
  let s := { s with ver := { s.ver with armedCmds := cmds, armedT := t, armedMask := mask, agreed := false } }
  ((s.setFld Reg.VER_STATE F.VER_STATE.ARMED v).setFld Reg.VER_STATE F.VER_STATE.OPEN 0).setOpenCmds []

/-! ## The commit instant (Table VER-3) -/

/-- The status that refuses the armed group at T. -/
def commitRefusal (s : State) : Option Nat :=
  if s.inFerry then some 10
  else if s.isAdrift then some 9
  else if !s.verTimeOk then some 2
  else if s.isMember && !s.ver.agreed then some 11
  else none

/-- The VERSION_COMMIT control event (Table WIT-4). -/
def commitEvent (s : State) (v status : Nat) (t : Stamp) : State :=
  s.control 0 0x03 (le 2 v ++ le 1 status ++ zeros 1 ++ le 12 (d96 t) ++ s.getBytes (Reg.VER_DIGEST 0) 4) t

/-- The armed group commits at T (R180, R181, R185). -/
def commitGroup (s : State) (v : Nat) (t : Stamp) : State :=
  let blocks := maskBlocks s.ver.armedMask
  let s := s.setFld Reg.VER_STATE F.VER_STATE.ARMED 0
  let s := { s with ver := { s.ver with armedCmds := [], armedMask := 0 } }
  let s := s.setCurrent v t
  let s := s.atTime t (fun s => blocks.foldl (commitBlock v) s)
  let s := (s.verStatus 5 v 1).count Ctr.VER_COMMITS
  (s.commitEvent v 1 t).raiseAt Src.VER_COMMIT v t

/-- The armed group is refused at T and is open again (R181, Table VER-1). -/
def refuseGroup (s : State) (v status : Nat) (t : Stamp) : State :=
  let s := s.abortOpen
  let s := (s.setFld Reg.VER_STATE F.VER_STATE.ARMED 0).setFld Reg.VER_STATE F.VER_STATE.OPEN v
  let s := s.setOpenCmds s.ver.armedCmds
  let s := { s with ver := { s.ver with armedCmds := [], armedMask := 0 } }
  let s := (s.verStatus 5 v status).count Ctr.VER_REFUSALS
  (s.commitEvent v status t).raiseAt Src.VER_REFUSED (v + 65536 * status) t

/-- A group armed for an instant not after `t` commits or is refused (R180). -/
def commitDue (s : State) (t : Stamp) : State :=
  let v := s.armedV
  if v = 0 ∨ t < s.ver.armedT then s
  else match s.commitRefusal with
    | none => s.commitGroup v s.ver.armedT
    | some st => s.refuseGroup v st s.ver.armedT

/-! ## Retirement (R189, R190) -/

/-- A packet that is still in a barge, a buffer, a queue, the lock or replication, or on its way there (R189). -/
def present (p : Packet) : Bool := p.stage != .stored || p.refs != 0 || p.heldBy.isSome

/-- OLDEST may retire but for its sweep: a later version is committed and no packet of OLDEST is left. -/
def retirable (s : State) : Bool :=
  s.oldestV != 0 && s.currentV != s.oldestV && !(s.pkts.any (fun e => e.2.ver == s.oldestV && present e.2))

/-- Ternary row `e` is the second copy of a WIDE group's row (R152). -/
def secondCopy (s : State) (e : Nat) : Bool :=
  (List.range 16).any (fun g =>
    let x := s.groupOf g
    x.en && x.wide && decide (2048 * (x.first + x.count / 2) ≤ e ∧ e < 2048 * (x.first + x.count)))

/-- The changes of the sweep of version `u`, those that invalidate an entry counted. -/
def sweep (s : State) (u : Nat) : State :=
  let n := nextVer u
  let ends (valid imm : Bool) (b : Nat) : Nat := b2n (valid && !imm && b == n)
  let k := (s.tab.em ++ s.tab.stash).foldl (fun a e => a + ends e.2.valid e.2.immediate e.2.vuntil) 0
    + s.tab.tc.foldl (fun a e => a + (if s.secondCopy e.1 then 0 else ends e.2.valid e.2.immediate e.2.vuntil)) 0
    + s.egr.groups.foldl (fun a e => a + ends e.2.valid e.2.immediate e.2.vuntil) 0
  (s.mapRanges (fun a b => (if a = u then n else a, b, b != n)) (fun _ => false)).count Ctr.VER_SWEEP_INVALIDATED k

/-- Values bound to the version that retires govern every live packet. -/
def rebind (s : State) (u : Nat) : State :=
  let f (m : SMap Bound) : SMap Bound := m.map (fun e => (e.1, if e.2 = .version u then .version (nextVer u) else e.2))
  { s with stg := { s.stg with bound := f s.stg.bound, bound0 := f s.stg.bound0 } }

/-- A write of VER_CTL reaches the block and is the operation `f`. -/
def verCtl (s : State) (by_ : Agent) (f : State → State) : State := s.accept by_ Reg.VER_CTL f

end State

open State

/-! ## The commands -/

/-- VER_CTL operation OPEN (R174, R175). -/
def verOpen (by_ : Agent) (s : State) : State :=
  s.verCtl by_ (fun s =>
    let v := nextVer (if s.armedV = 0 then s.currentV else s.armedV)
    if s.openV ≠ 0 then s.verStatus 1 s.openV 7
    else if 32767 < s.verDist v then s.verStatus 1 v 6
    else ((s.setFld Reg.VER_STATE F.VER_STATE.OPEN v).setOpenCmds []).verStatus 1 v 1)

/-- VER_CTL operation ARM (R177 to R179). -/
def verArm (by_ : Agent) (s : State) : State :=
  s.verCtl by_ (fun s =>
    let v := s.openV
    match s.armRefusal with
    | some st => (s.verStatus 2 v st).count Ctr.VER_REFUSALS
    | none => (s.arm (s.commitTime.getD 0)).verStatus 2 v 1)

/-- VER_CTL operation ABORT_ALL (Table VER-1). -/
def verAbortAll (by_ : Agent) (s : State) : State :=
  s.verCtl by_ (fun s =>
    let v := s.armedV
    if v = 0 then s.verStatus 3 v 7
    else
      let s := (s.abortOpen.abortEntries v).setFld Reg.VER_STATE F.VER_STATE.ARMED 0
      { s with ver := { s.ver with armedCmds := [], armedMask := 0 } }.verStatus 3 v 1)

/-- VER_CTL operation ABORT_OPEN (Table VER-1). -/
def verAbortOpen (by_ : Agent) (s : State) : State :=
  s.verCtl by_ (fun s =>
    let v := s.openV
    if v = 0 then s.verStatus 4 v 7 else s.abortOpen.verStatus 4 v 1)

/-- A write of VER_CTL with any other operation completes with STATE (Table VER-10). LAST_OP has no value stated for it
(log entry 4). -/
def verCtlInvalid (by_ : Agent) (s : State) : State :=
  s.verCtl by_ (fun s =>
    let (x, s) := s.takeFree 4
    s.verStatus x 0 7)

/-- At T less half of LEAD_US a joined member confirms agreement: every Authoritative member it reaches has armed the same
version for the same T (R182). -/
def verAgreementCheck (s : State) : State :=
  if s.isMember && s.armedV != 0 && decide (s.ver.armedT ≤ s.now + s.leadTime / 2) then
    let ok := bitOf s.ownFlags 1 && s.reachSet.all (fun i => let f := (s.entryOf i).1; !(bitOf f 0) || bitOf f 1)
    { s with ver := { s.ver with agreed := ok } }
  else s

/-- The commit instant T arrives (R180). -/
def verCommitInstant (s : State) : State := s.commitDue s.now

/-- The sweep of OLDEST starts; `reported` says that, in a joined system, every Authoritative member has reported that no
packet of it is left there (R189, R190). -/
def verSweepStart (reported : Bool) (s : State) : State :=
  if s.retirable && (reported || !s.isMember) then { s with ver := { s.ver with sweeping := true } } else s

/-- The sweep has visited every entry, those under move after their move, and OLDEST retires (R189, R190). -/
def verRetire (s : State) : State :=
  let u := s.oldestV
  if s.ver.sweeping && s.retirable && s.tab.move.isNone then
    let s := (s.sweep u).rebind u
    let s := { s with ver := { s.ver with sweeping := false, commits := s.ver.commits.filter (fun c => c.1 != u) } }
    let s := s.setFld Reg.VER_STATE F.VER_STATE.OLDEST (nextVer u)
    (s.controlNow 0x04 (le 2 u)).raise Src.VER_RETIRED u
  else s

end Sys2Proof.Machine
end

