-- ==== Sys2Proof/Machine/Towpath.lean ====
section
/-! DEFINITION. Towpath frames (chapter "Joined Systems over Towpath Links"): data frames, membership, time and anchor
frames, and the rejoin (R312 to R322, R327, R335, R336). -/
namespace Sys2Proof.Machine
namespace State

/-! ## Headers -/

/-- The header of a frame of TYPE 1 or 2 that port `p` transmits. Of its other fields the spec states IN_TIME and DEADLINE
alone (Table TOW-1; log entry 4). -/
def towCtlHeader (s : State) (p type : Nat) : Bytes × State :=
  let (x, s) := s.takeFree 128
  let w2 := putBits (putBits (putBits (x % 2 ^ 64) 40 32 s.ownSys) 50 41 p) 63 62 type
  (zeros 16 ++ le 8 w2 ++ le 8 (x / 2 ^ 64), s)

/-- A field of word 2 of a towpath header. -/
def towW2 (b : Bytes) (hi lo : Nat) : Nat := bits (leAt b 16 8) hi lo

/-- A field of word 3 of a towpath header. -/
def towW3 (b : Bytes) (hi lo : Nat) : Nat := bits (leAt b 24 8) hi lo

/-- The ingress stamp of a towpath header (R313): the seconds nearest the device's own. -/
def carriedStamp (s : State) (b : Bytes) : Stamp :=
  let own := s.now / second
  let sec := ((own : Int) + asInt 16 ((towW2 b 15 0 + 65536 - own % 65536) % 65536)).toNat
  let t := leAt b 0 8
  sec * second + (t / 65536) * 65536 + t % 65536

/-- A frame received on towpath port `p` that is whole and in order (R82); otherwise what its drop counts. -/
def towFrameOk (s : State) (p : Nat) (bytes : Bytes) : Bool × State :=
  let l := bytes.length
  if l < 64 then (false, s.count (Ctr.PRT_RX_RUNT p))
  else if s.cfgFld (Reg.PRT_CFG p) F.PRT_CFG.MTU < l then (false, s.count (Ctr.PRT_RX_OVERSIZE p))
  else if bytes.drop (l - 4) != fcs (bytes.take (l - 4)) then (false, s.count (Ctr.PRT_RX_ERR p))
  else (true, s)

/-- A member outside ferry mode receives on towpath port `p`, which is not in loopback (R94). -/
def towReceives (s : State) (p : Nat) : Bool :=
  s.towPort p && s.linkUp p && !(s.portHalted p) && !(s.loopback p) && s.isMember && !s.inFerry

/-- The towpath ports that transmit. -/
def towPorts (s : State) : List Nat := (List.range 512).filter (fun p => s.towPort p && s.linkUp p && !(s.portHalted p))

/-- Port `p`'s peer has been heard now. -/
def hear (s : State) (p : Nat) (bytes : Bytes) : State :=
  let x := s.towPeer p
  let s := s.setTowPeer p { x with heard := some s.now }
  (s.setFld (Reg.TOW_PORT_STAT p) F.TOW_PORT_STAT.PEER_SYSID (towW2 bytes 40 32)).syncUp p

/-! ## Membership frames (R327) -/

/-- The body of a membership frame (Table TOW-5). -/
def memberBody (s : State) : Bytes :=
  let (pv, pt) := s.pendingPair
  let entry (i : Nat) : Bytes :=
    let (f, pr) := s.entryOf i
    let sq := if i = s.ownSys then s.tow.ownSeq else (mget {} s.tow.entries i).seq
    le 1 sq ++ le 1 f ++ le 1 pr ++ zeros 1
  zeros 1 ++ le 1 s.towSt ++ le 2 (s.fld Reg.TOW_STATE F.TOW_STATE.PEPOCH) ++ le 4 s.cfgHash ++ le 2 s.currentV ++ le 2 pv ++ le 12 pt
    ++ le 6 s.epochNo ++ le 2 (s.tow.master.getD 0xFFFF) ++ (List.range 512).flatMap entry

/-- A sequence is newer than another (R327). -/
def newer (new old : Nat) : Bool := let d := (new + 256 - old) % 256; decide (1 ≤ d ∧ d ≤ 127)

/-- Entry `i` of a received vector is taken over where its sequence is newer. -/
def takeEntry (body : Bytes) (s : State) (i : Nat) : State :=
  let b := sub body (32 + 4 * i) 4
  let q := byteAt b 0
  if i = s.ownSys then
    if newer q s.tow.ownSeq then
      { s with tow := { s.tow with conflict := true } }.raise Src.TOW_SYSID_CONFLICT i
    else s
  else if newer q (mget {} s.tow.entries i).seq then
    { s with tow := { s.tow with entries := mput s.tow.entries i ⟨q, byteAt b 1, byteAt b 2, s.now⟩ } }
  else s

/-- What the parent's or the master's own frame says of the system (R327, R331). -/
def takeSystem (s : State) (body : Bytes) : State :=
  { s with tow := { s.tow with
    masterHash := some (leAt body 4 4), sysCurrent := leAt body 8 2, pVer := leAt body 10 2, pT := leAt body 12 12, sysEpoch := leAt body 24 6 } }

/-! ## Time frames (R320 to R322) -/

/-- The body of port `p`'s next time frame (Table TOW-3). -/
def timeBody (s : State) (p : Nat) : Bytes :=
  let x := s.towPeer p
  let (q, t) := x.rx.getD (0, 0)
  let st := s.towSt
  le 4 (x.tseq + 1) ++ le 12 (d96 x.txPrev) ++ le 4 q ++ le 12 (d96 t) ++ le 2 (s.tow.master.getD 0xFFFF)
    ++ le 1 (s.fld Reg.TOW_STATE F.TOW_STATE.HOPS) ++ le 1 (b2n s.localTracking + 2 * b2n (st == 2) + 4 * b2n s.isAdrift)
    ++ le 4 (s.fld Reg.TIM_TS_UNC F.TIM_TS_UNC.W_TS_PS) ++ zeros 8

/-- The mean of samples, rounded to nearest. -/
def meanInt (l : List Int) : Int := roundDivInt (l.foldl (· + ·) 0) l.length

/-- θ of a parent exchange reaches the servo (R321, R325, R335): the servo owner's uncertainty is written, a reference that
has become too uncertain is lost, and a HEALING member removes its offset by slew alone. -/
def parentTheta (s : State) (p : Nat) (theta : Int) : State :=
  let wp := (s.towPeer p).peer.wts
  let unc := s.cfgFld (Reg.TOW_PORT_CFG p) F.TOW_PORT_CFG.ASYM_UNC_PS
  let sq := wp * wp + 10000 + unc * unc
  let w := if Nat.sqrt sq * Nat.sqrt sq = sq then Nat.sqrt sq else Nat.sqrt sq + 1
  let s := s.setTsUnc w
  if s.towSt = 4 then
    let within := decide (theta.natAbs * 1000 ≤ s.cfgFld Reg.TIM_TRACK_CFG F.TIM_TRACK_CFG.TRACK_PS * 65536)
    if s.tim.slew ≠ 0 then { s with tim := { s.tim with inTrack := 0 } }
    else if within then { s with tim := { s.tim with inTrack := s.tim.inTrack + 1 } }
    else { s with tim := { s.tim with inTrack := 0, slew := theta * (2 ^ 32 : Nat) } }
  else if s.isAdrift then s
  else if 600 < w then
    if s.refInUse = 4 ∧ s.refValid 4 then s.declareLost else s.dropSystemTime
  else (s.validate 4).servoUpdate 4 (-theta)

/-- An asymmetry sample, in 2^-16 ns (R322). -/
def asymSample (s : State) (p : Nat) (x : Int) : State :=
  let e := s.towPeer p
  let r := Reg.TOW_PORT_CFG p
  if s.flag r F.TOW_PORT_CFG.ASYM_MEAS && s.localTracking && bitOf e.peer.flags 0 && decide (e.peer.wts ≤ 200)
      && decide (s.fld Reg.TIM_TS_UNC F.TIM_TS_UNC.W_TS_PS ≤ 200) then
    let l := (e.asym ++ [x]).drop (e.asym.length + 1 - 4096)
    let mean := roundDivInt (l.foldl (· + ·) 0 * 1000) (65536 * l.length)
    let a := Reg.TOW_PORT_ASYM p
    ((s.setTowPeer p { e with asym := l }).setFld a F.TOW_PORT_ASYM.COUNT l.length).setFld a F.TOW_PORT_ASYM.MEAS_PS (ofIntW 32 mean)
  else s

/-- An exchange of port `p` is complete (R321). -/
def exchange (s : State) (p : Nat) (t1 t2 t3 t4 : Stamp) : State :=
  let e := s.towPeer p
  let ab : Int := (t2 : Int) - t1
  let ba : Int := (t4 : Int) - t3
  let d := roundDivInt (ab + ba) 2
  let a := asInt 32 (s.cfgFld (Reg.TOW_PORT_CFG p) F.TOW_PORT_CFG.ASYM_PS)
  let theta := roundDivInt ((ab - ba) * 1000 - a * 65536) 2000
  if e.accepted < 16 ∨ (d - meanInt e.delays).natAbs ≤ 131072 then
    let l := (e.delays ++ [d]).drop (e.delays.length + 1 - 16)
    let s := s.setTowPeer p { e with delays := l, accepted := e.accepted + 1 }
    let s := s.setFld (Reg.TOW_PORT_STAT p) F.TOW_PORT_STAT.MEAN_DELAY (ofIntW 32 (meanInt l))
    let s := s.wr (Reg.TOW_PORT_OFFSET p) (ofIntW 64 theta)
    let s := s.asymSample p (ab - ba)
    if s.parentPort = some p then s.parentTheta p theta else s
  else (s.count (Ctr.TOW_TIME_DISCARD p)).raise Src.TOW_DELAY_JUMP p

/-! ## Anchors and the rejoin (R335, R336) -/

/-- An anchor frame is to leave on port `p` (R318, Table TOW-7). -/
def sendAnchor (s : State) (p : Nat) : State :=
  let (h, s) := s.towCtlHeader p 1
  let body := h ++ le 1 1 ++ zeros 5 ++ le 6 s.tow.lastSealE ++ sub s.wit.sealPrev 0 32 ++ zeros 4
  s.sendAhead p (body ++ fcs body)

/-- A pending pair stands in the way of the rejoin: P_T lies within LEAD_US from now. -/
def pairPending (s : State) : Bool :=
  s.tow.pVer != 0 && (match ofD96 s.tow.pT with
    | some t => decide (s.now ≤ t ∧ t ≤ s.now + s.leadTime)
    | none => false)

/-- The conditions of the rejoin instant H. -/
def mayRejoin (s : State) : Bool :=
  s.towSt == 4 && s.majority && s.parentPort.isSome && decide (s.tim.slew = 0)
    && decide (s.cfgFld Reg.TIM_TRACK_CFG F.TIM_TRACK_CFG.TRACK_COUNT ≤ s.tim.inTrack) && s.tim.inTrack != 0
    && decide (s.tow.healAt + 2 * s.towTimeout ≤ s.now) && !s.pairPending

/-- At H the system's CURRENT is the member's, and its open group is taken as committed where it is not later (R183). -/
def takeCurrent (s : State) (v : Nat) : State :=
  let o := s.openV
  let s := if o ≠ 0 ∧ s.verDist o ≤ s.verDist v then (s.setFld Reg.VER_STATE F.VER_STATE.OPEN 0).setOpenCmds [] else s
  if v = s.currentV ∨ v = 0 then s else s.setCurrent v s.now

end State

open State

/-! ## The commands -/

/-- A data frame, `bytes` from its header through its frame check sequence, has been received on towpath port `p`
(R315, R316). -/
def towpathDataReceive (p : Nat) (bytes : Bytes) (s : State) : State :=
  if !(s.towPort p) || !(s.linkUp p) || s.portHalted p || s.loopback p then s
  else if !(s.towReceives p) then s.count (Ctr.PRT_RX_DISCARD p)
  else if towW2 bytes 63 62 ≠ 0 then s
  else
    match s.towFrameOk p bytes with
    | (false, s) => s
    | (true, s) =>
      let s := s.count (Ctr.TOW_RX_DATA p)
      let kind := towW3 bytes 9 8
      let dest := towW3 bytes 28 10
      let hops := towW3 bytes 63 60
      let t := s.carriedStamp bytes
      let v := towW2 bytes 31 16
      let live := s.verLive v
      let ver := if live then v else s.currentV
      let body := sub bytes 32 (bytes.length - 36)
      let pk : Packet := { port := p, stamp := t, tq := towW2 bytes 59 56, ub := towW3 bytes 7 0, ver := ver, stage := .accept,
                           readyAt := s.now, bytes := body ++ fcs body, ended := true, cls := towW2 bytes 53 51, clsKnown := true,
                           colour := towW2 bytes 55 54, tow := true, towHdr := bytes.take 32, inPort := towW2 bytes 50 41,
                           system := towW2 bytes 40 32, rot := s.rotOf t }
      let put (s : State) (q : Packet) : State :=
        { s with nextPkt := s.nextPkt + 1, nextRel := s.nextRel + 1 }.setPkt s.nextPkt { q with rel := s.nextRel }
      let sys := bits dest 18 10
      let s := if live || kind == 3 then s else s.count Ctr.VER_FOREIGN_RX
      if kind = 3 then s
      else if kind ≠ 1 ∧ sys ≠ s.ownSys then
        if hops = 0 then s.count Ctr.TOW_HOPS_DROP
        else match s.routeFor sys ver t with
          | none => s.count Ctr.TOW_UNREACH_DROP
          | some _ => put (s.count (Ctr.TOW_TRANSIT p)) { pk with kind := 1, foreign := some sys, outPort := bits dest 9 0 }
      else if kind = 0 then
        let o := bits dest 9 0
        if !(s.portExists o) || s.towPort o then s.count Ctr.TOW_UNREACH_DROP else put s { pk with kind := 1, outPort := o }
      else
        if kind = 1 then put s { pk with kind := 2, group := dest % 65536 }
        else
          let prof := s.profileOf p ver t
          put s { pk with stage := .receiving, profile := prof, depth := profDepth (s.cfgAt (Reg.PRS_PROFILE (parseSlice p) prof) ver t) }

/-- Every 10 µs a member sends a membership frame on every towpath port (R327); a port that has heard none from its peer in
these 10 µs counts it. -/
def membershipFrameSend (s : State) : State :=
  let due := isDue s.tow.beatAt (10 * microsecond) s.now
  if !s.isMember || s.inFerry || !due then s
  else
    let s := { s with tow := { s.tow with ownSeq := (s.tow.ownSeq + 1) % 256, beatAt := some s.now } }
    let body := s.memberBody
    s.towPorts.foldl (fun s p =>
      let missed := match (s.towPeer p).beat with
        | some t => decide (t + 10 * microsecond < s.now)
        | none => true
      let s := if missed then s.count (Ctr.TOW_HB_MISS p) else s
      let (h, s) := s.towCtlHeader p 1
      s.sendAhead p (h ++ body ++ fcs (h ++ body))) s

/-- A membership frame has been received on towpath port `p` (R327, R329): newer entries are taken over, and of the parent or
the master what it says of the system. -/
def membershipFrameReceive (p : Nat) (bytes : Bytes) (s : State) : State :=
  if !(s.towReceives p) || towW2 bytes 63 62 != 1 || byteAt bytes 32 != 0 then s
  else
    match s.towFrameOk p bytes with
    | (false, s) => s
    | (true, s) =>
      let body := sub bytes 32 2080
      let s := s.hear p bytes
      let s := s.setTowPeer p { s.towPeer p with beat := some s.now }
      let s := (List.range 512).foldl (takeEntry body) s
      let s := s.towJudge
      if s.parentPort = some p ∨ s.tow.master = some (towW2 bytes 40 32) then (s.takeSystem body).towJudge else s

/-- A member sends a time frame on towpath port `p`, stamped at the ball of `lane` (R55, R56, R320), once a TIME_PERIOD_US, at the first
slot that is free of the frame in transmission and of any flow-control frame that is due (R318). -/
def timeFrameSend (p lane d n : Nat) (s : State) : State :=
  let t := s.txStamp p lane d n
  let due := isDue ((s.towPeer p).lastSent) (s.updateInterval 4) s.now
  let e := s.egress p
  let owes := (List.range 8).any (fun k => (mget {} s.que.pfc (8 * p + k)).owed)
  if !s.isMember || s.inFerry || !(s.towPorts.contains p) || !(s.maySend p) || s.portOfLane lane != p || !due then s
  else if e.sending.isSome || owes || t < s.now || t < e.freeAt then s
  else
    let body := s.timeBody p
    let x := s.towPeer p
    let q := (x.tseq + 1) % 2 ^ 32
    let s := s.setTowPeer p { x with tseq := q, txPrev := t, sent := mput x.sent q t, lastSent := some s.now }
    let (h, s) := s.towCtlHeader p 2
    let f := h ++ body ++ fcs (h ++ body)
    (s.emit (.frame p t f)).onEgress p (fun e => { e with freeAt := t + s.byteSpan p (f.length + 20) })

/-- A time frame has been received on towpath port `p`, stamped at the ball of `lane` (R55, R56, R320 to R322). -/
def timeFrameReceive (p : Nat) (bytes : Bytes) (lane d : Nat) (phi : Int) (n : Nat) (s : State) : State :=
  let t := s.rxStamp p lane d phi n
  if !(s.towReceives p) || s.portOfLane lane != p || towW2 bytes 63 62 != 2 then s
  else
    match s.towFrameOk p bytes with
    | (false, s) => s
    | (true, s) =>
      let body := sub bytes 32 48
      let s := s.hear p bytes
      let s := s.setFld (Reg.TOW_PORT_STAT p) F.TOW_PORT_STAT.PEER_PORT (towW2 bytes 50 41)
      let x := s.towPeer p
      let q := leAt body 0 4
      let k := leAt body 16 4
      let t1 := mfind x.sent k
      let prev := match x.rx with
        | some (m, r) => if (m + 1) % 2 ^ 32 = q then some r else none
        | none => none
      let peer : TowPeer := ⟨leAt body 32 2, byteAt body 34, byteAt body 35, leAt body 36 4⟩
      let s := s.setTowPeer p { x with rx := some (q, t), peer := peer, sent := x.sent.filter (fun e => decide (k < e.1)) }
      let s := s.towJudge
      match t1, prev, ofD96 (leAt body 20 12), ofD96 (leAt body 4 12) with
      | some a, some d, some b, some c => s.exchange p a b c d
      | _, _, _, _ => s

/-- An anchor frame has been received on towpath port `p` (R335, R336): it is recorded, and answered unless it is itself the
answer. -/
def anchorFrameReceive (p : Nat) (bytes : Bytes) (s : State) : State :=
  if !(s.towReceives p) || towW2 bytes 63 62 != 1 || byteAt bytes 32 != 1 then s
  else
    match s.towFrameOk p bytes with
    | (false, s) => s
    | (true, s) =>
      let body := sub bytes 32 48
      let s := s.controlNow 0x07 (le 2 (towW2 bytes 40 32) ++ le 1 16 ++ zeros 1 ++ sub body 6 6 ++ zeros 6 ++ sub body 12 32)
      if s.tow.anchorDue.contains p then { s with tow := { s.tow with anchorDue := s.tow.anchorDue.filter (· != p) } }
      else s.sendAnchor p

/-- The rejoin instant H of a HEALING member (R335). -/
def rejoinInstant (s : State) : State :=
  match s.parentPort with
  | none => s
  | some p =>
    if !s.mayRejoin then s
    else
      let s := { s with tow := { s.tow with healIntent := false } }
      let s := s.setTowState 2 4
      let s := (s.validate 4).setRef 4
      let s := s.setTq 3
      let s := s.takeCurrent s.tow.sysCurrent
      ({ s with tow := { s.tow with anchorDue := s.tow.anchorDue ++ [p] } }).sendAnchor p

end Sys2Proof.Machine
end

