-- ==== Sys2Proof/Machine/Security.lean ====
section
/-! DEFINITION. The security module (chapter "Identity, Keys and Protection"): self-tests, ownership, sessions, the protection
table and attestation. -/
namespace Sys2Proof.Machine
namespace State

/-! ## Readiness and the error state (R343 to R346) -/

/-- SEC_STATUS.READY. -/
def secReady (s : State) : Bool := s.flag Reg.SEC_STATUS F.SEC_STATUS.READY

/-- READY becomes `b`; a change raises SEC_READY_CHANGE, and the readiness bit follows (R345, Table SEC-18). -/
def setSecReady (s : State) (b : Bool) : State :=
  if s.secReady = b then s
  else
    let s := s.setFld Reg.SEC_STATUS F.SEC_STATUS.READY (b2n b)
    ((s.setReady 0 b).raise Src.SEC_READY_CHANGE (b2n b + 2 * s.fld Reg.SEC_STATUS F.SEC_STATUS.ERROR)).secTake

/-- A signature by key `k` over a SHA-384 digest, counted (R348). -/
def secSign (s : State) (k : Nat) (digest : Bytes) : Bytes × State :=
  (be 96 (Config.ecdsaSign k s.free (BitVec.ofNat 384 (beNat digest))).toNat, { s with free := s.free + 1 }.count Ctr.SEC_SIGNATURES)

/-- A signature over `digest` is checked with `key`, counted and noted; `ok` is the outcome, which the operand of the
command says (log entry 6). -/
def secVerify (s : State) (ok : Bool) (key digest sig : Bytes) : State :=
  (s.count Ctr.SEC_VERIFICATIONS).emit (.verify key digest sig ok)

/-- A certificate in slot `k` of SEC_CERT, its length with it (R351). -/
def setCert (s : State) (k : Nat) (der : Bytes) : State :=
  (s.putBytes (Reg.SEC_CERT k 0) 512 der).setFld (Reg.SEC_CERT_LEN k) F.SEC_CERT_LEN.LEN der.length

/-- The identifier of a certificate (R350). -/
def certIdOf (der : Bytes) : Bytes := sub (sha256 der) 0 16

/-- What the module publishes of the ownership: owner and LDevID certificates, identifiers and counter steps. -/
def publishOwner (s : State) : State :=
  let own := !s.sec.owner.isEmpty
  let id := if own then certIdOf s.sec.owner else []
  let key := if own then s.sec.ownerPub else []
  let s := { s with sec := { s.sec with ownerId := id, ownerKey := key } }
  let s := ((s.setCert 3 s.sec.owner).setCert 4 s.sec.ldev).putBytes (Reg.SEC_ID 2) 2 id
  let st := Reg.SEC_STATUS
  ((s.setFld st F.SEC_STATUS.OWNED (b2n own)).setFld st F.SEC_STATUS.LDEV (b2n (!s.sec.ldev.isEmpty))).setFld st
    F.SEC_STATUS.OWNER_STEPS_LEFT s.sec.stepsLeft

/-- The unit's identity is rebuilt and the module is ready (R345). -/
def becomeReady (s : State) : State :=
  let st := Reg.SEC_STATUS
  let s := { s with sec := { s.sec with testing := false, failedAt := none, retried := false, certId := certIdOf (Config.certDer 0) } }
  let s := [0, 1, 2].foldl (fun s k => s.setCert k (Config.certDer k)) s
  let s := (s.putBytes (Reg.SEC_ID 0) 2 s.sec.certId).publishOwner
  (((s.setFld st F.SEC_STATUS.ERROR 0).setFld st F.SEC_STATUS.SELFTEST 0)).setSecReady true

/-- A test fails: the error state (R343, R346). -/
def secError (s : State) (id : Nat) : State :=
  let st := Reg.SEC_STATUS
  let s := { s with sec := { s.sec with testing := false, failedAt := some s.now } }
  let s := ((s.setFld st F.SEC_STATUS.SELFTEST 0).setFld st F.SEC_STATUS.ERROR 1).setFld st F.SEC_STATUS.FAILED_TEST id
  (s.setSecReady false).raise Src.SEC_SELFTEST_FAIL (id % 256)

/-- A run of the periodic self-test begins (R346). -/
def startSelfTest (s : State) : State :=
  let s := { s with sec := { s.sec with testing := true, lastSelfTest := s.now } }
  (s.setFld Reg.SEC_STATUS F.SEC_STATUS.SELFTEST 1).count Ctr.SEC_SELFTESTS |>.setSecReady false

/-! ## Sessions (R357, R358) -/

/-- A Warden session is open. -/
def session (s : State) : Bool := s.flag Reg.SEC_STATUS F.SEC_STATUS.SESSION

/-- The session, if open, closes for `cause` (Table SEC-18). -/
def closeSession (s : State) (cause : Nat) : State :=
  if s.session then (s.setFld Reg.SEC_STATUS F.SEC_STATUS.SESSION 0).raise Src.SEC_SESSION (2 * cause) else s

/-- The nonce as issued. -/
def nonceBytes (s : State) : Bytes := s.getBytes (Reg.SEC_NONCE 0) 4

/-- A nonce is in force: issued, not used and not 10 s old (R357). -/
def nonceLive (s : State) : Bool :=
  match s.sec.nonce with
  | some t => decide (s.now < t + 10 * second)
  | none => false

/-- The nonce is void. -/
def voidNonce (s : State) : State := { s with sec := { s.sec with nonce := none } }

/-! ## SEC_OP (R352, R348) -/

/-- SEC_OP shows operation `op` with `status`; BUSY while it runs. -/
def opStatus (s : State) (op status : Nat) : State :=
  let r := Reg.SEC_OP
  ((s.setFld r F.SEC_OP.LAST_OP op).setFld r F.SEC_OP.STATUS status).setFld r F.SEC_OP.BUSY (b2n (status == 1))

/-- A write of SEC_OP with operation `op` and argument `arg` by an agent that must be PF0 or the Warden: ignored while one
runs, denied to others, else `f` (R352). -/
def secOp (s : State) (by_ : Agent) (op arg : Nat) (warden : Bool) (f : State → State) : State :=
  s.accept by_ Reg.SEC_OP (fun s =>
    if s.flag Reg.SEC_OP F.SEC_OP.BUSY then s
    else
      let role := s.roleOf by_
      let s := s.setFld Reg.SEC_OP F.SEC_OP.ARG arg
      if (if warden then role == 1 else by_ == .host 0) then f s
      else (s.deny role 7 (Reg.SEC_OP / 8)).opStatus op 4)

/-- An operation starts and runs until SEC_OP_COMPLETE; the signature and the certificate are those of this instant. -/
def startOp (s : State) (op : Nat) : State :=
  let n := bits (s.fld Reg.SEC_OP F.SEC_OP.ARG) 11 0
  let buf := (List.range 512).flatMap (fun i => le 8 (mget 0 s.sec.ownerBuf i).toNat)
  { s with sec := { s.sec with sig := s.getBytes (Reg.SEC_SIG 0) 12, der := buf.take n } }.opStatus op 1 |>.secTake

/-- An operation without signature work is done at once, or waits for the module (R347). -/
def doOrWait (s : State) (op : Nat) (f : State → State) : State := if s.secReady then f s else s.startOp op

/-! ## Ownership (R353 to R355) -/

/-- A failed OPEN (R357): after eight in a row, OPEN is locked out for 60 s. -/
def openFailed (s : State) (status : Nat) : State :=
  let s := if status = 7 then s
    else
      let n := s.sec.fails + 1
      { s with sec := { s.sec with fails := if 8 ≤ n then 0 else n,
                                   lockedUntil := if 8 ≤ n then some (s.now + 60 * second) else s.sec.lockedUntil } }
  ((s.count Ctr.SEC_AUTH_FAILS).raise Src.SEC_AUTH_FAIL status).opStatus 2 status

/-- The OPEN's signature has been verified (R357, R358). -/
def openDone (s : State) (ok : Bool) : State :=
  let msg := ascii "DLWS" ++ s.nonceBytes ++ s.sec.certId ++ s.sec.ownerId ++ le 4 s.sec.ownerSeq
  let s := s.voidNonce
  let s := s.secVerify ok s.sec.ownerKey (sha384 msg) s.sec.sig
  if ok then
    let s := { s with sec := { s.sec with fails := 0, lastPf0 := s.now } }
    ((s.setFld Reg.SEC_STATUS F.SEC_STATUS.SESSION 1).raise Src.SEC_SESSION 1).opStatus 2 2
  else s.openFailed 5

/-- The owner record changes: one counter step is used, any LDevID is erased, the session closes (R353, R354). -/
def changeOwner (s : State) (der pub : Bytes) (seq : Nat) : State :=
  let s := { s with sec := { s.sec with owner := der, ownerPub := pub, ownerSeq := seq, ldev := [], stepsLeft := s.sec.stepsLeft - 1 } }
  (s.publishOwner.closeSession 3).raise Src.SEC_OWNER_CHANGE (seq % 2 ^ 32)

/-- OWNER_INSTALL's certificate and signature are checked (R353): `cert` is the key of the buffer's certificate where it is
exactly one DER certificate with a P-384 key and the usage digitalSignature. -/
def installDone (s : State) (ok : Bool) (cert : Option Bytes) : State :=
  let live := s.nonceLive
  let nonce := s.nonceBytes
  let s := s.voidNonce
  match (if s.sec.der.isEmpty then none else cert) with
  | none => s.opStatus 4 8
  | some key =>
    if !live then s.opStatus 4 6
    else
      let msg := ascii "DLOI" ++ nonce ++ s.sec.certId ++ sha256 s.sec.der
      let s := s.secVerify ok key (sha384 msg) s.sec.sig
      if !ok then s.opStatus 4 5
      else if s.sec.stepsLeft = 0 then s.opStatus 4 10
      else (s.changeOwner s.sec.der (sub key 0 96) (s.sec.ownerSeq + 1)).opStatus 4 2

/-- OWNER_RELEASE, or ZEROISE which also reseeds the DRBG (R352, R354). -/
def releaseOwner (s : State) (op : Nat) : State :=
  if s.sec.owner.isEmpty then s.opStatus op 9
  else if s.sec.stepsLeft = 0 then s.opStatus op 10
  else (s.changeOwner [] [] s.sec.ownerSeq).opStatus op 2

/-- The LDevID public key derived for the owner (R349). -/
def ldevPublic (s : State) : BitVec 768 := Config.ldevKey (BitVec.ofNat 128 (beNat s.sec.ownerId)) s.sec.ownerSeq

/-- LDEV_GEN's derivation and proof (R355). -/
def ldevGenDone (s : State) : State :=
  let pub := be 96 s.ldevPublic.toNat
  let (sig, s) := s.secSign 0 (sha384 (ascii "DLLD" ++ pub ++ s.sec.certId ++ s.sec.ownerId))
  ((s.putBytes (Reg.SEC_LDEV 0) 12 pub).putBytes (Reg.SEC_LDEV 12) 12 sig).opStatus 6 2

/-- LDEV_INSTALL (R355): `certOk` says that the buffer's certificate is one for the derived LDevID key. -/
def ldevInstallDone (s : State) (certOk : Bool) : State :=
  if s.sec.der.isEmpty ∨ !certOk then s.opStatus 7 8
  else ({ s with sec := { s.sec with ldev := s.sec.der } }.publishOwner).opStatus 7 2

/-! ## The protection table (R359 to R363) -/

/-- The last unit of a kind (Table SEC-5). -/
def kindLimit (k : Nat) : Nat :=
  if k = 1 then 0x007F_FFFF else if k = 2 then 0x1FFF_FFFF else if k = 3 then 0xFFFF_FFFF else if k = 4 then 63 else if k = 5 then 15
  else 0xFFFF_FFFF

/-- Whether a staged entry may become active (R362). -/
def protEntryOk (w0 w1 : Nat) : Bool :=
  let k := bits w0 2 0
  decide (k ≤ 5) && !(bitOf w0 3) && !(bitOf w0 7) && !(bitOf w0 11) && bits w0 15 12 == 0 && bits w0 63 48 == 0
    && bits w1 63 32 == 0 && decide (bits w0 47 16 ≤ bits w1 31 0 ∧ bits w1 31 0 ≤ kindLimit k)

/-- The staged entries `first` and the `n` after it become active; the staging equals the active table again; the change is
hashed, witnessed and raised (R362, R363). -/
def protCommit (s : State) (first n role : Nat) : State :=
  let s := (List.range n).foldl (fun s i => [0, 1].foldl (fun s w =>
    s.wr (Reg.SEC_PROT_ACTIVE (first + i) w) (s.rd (Reg.SEC_PROT_STAGE (first + i) w))) s) s
  let s := (List.range 256).foldl (fun s e => [0, 1].foldl (fun s w =>
    s.wr (Reg.SEC_PROT_STAGE e w) (s.rd (Reg.SEC_PROT_ACTIVE e w))) s) s
  let hash := sha256 ((List.range 256).flatMap (fun e => le 8 (s.rd (Reg.SEC_PROT_ACTIVE e 0)) ++ le 8 (s.rd (Reg.SEC_PROT_ACTIVE e 1))))
  let s := s.putBytes (Reg.SEC_PROT_HASH 0) 4 hash
  (s.controlNow 0x05 (le 4 first ++ le 2 n ++ le 1 role ++ zeros 1 ++ hash)).raise Src.SEC_PROT_CHANGE (first + 256 * n)

/-! ## Attestation (R364) -/

/-- Bytes 0–831 of the report built now (Table SEC-9). -/
def attestBody (s : State) : Bytes :=
  let st := Reg.SEC_STATUS
  let flags := b2n (s.flag st F.SEC_STATUS.APPROVED) + 2 * b2n (s.flag st F.SEC_STATUS.OWNED) + 4 * b2n s.session
    + 8 * b2n (s.flag Reg.SEC_CFG F.SEC_CFG.ATTEST_LDEV) + 16 * b2n (s.flag st F.SEC_STATUS.CAL_OK)
  let bank := s.cfgFld Reg.PRS_CS_BANK F.PRS_CS_BANK.ACTIVE
  let digest := if bank = 0 then (if s.flag Reg.PRS_CS_BANK F.PRS_CS_BANK.VALID0 then s.prs.digest0 else [])
    else (if s.flag Reg.PRS_CS_BANK F.PRS_CS_BANK.VALID1 then s.prs.digest1 else [])
  ascii "DLAT" ++ le 2 1 ++ le 2 flags ++ s.getBytes (Reg.SEC_ATTEST_NONCE 0) 4 ++ le 12 (d96 s.now) ++ le 1 s.tq ++ le 1 s.ubBase
    ++ le 2 s.sysId ++ sub s.sec.certId 0 16 ++ sub s.sec.ownerId 0 16 ++ le 4 s.sec.ownerSeq
    ++ le 1 (s.fld Reg.CFG_BOOT_STAT F.CFG_BOOT_STAT.SLOT) ++ zeros 3 ++ s.getBytes (Reg.CFG_IMAGE_DIGEST 0) 6
    ++ le 4 (s.fld Reg.PRS_UCODE_VENDOR_VER F.PRS_UCODE_VENDOR_VER.VER)
    ++ le 4 (s.fld Reg.PRS_UCODE_CUSTOMER_VER F.PRS_UCODE_CUSTOMER_VER.BANK0_VER)
    ++ le 4 (s.fld Reg.PRS_UCODE_CUSTOMER_VER F.PRS_UCODE_CUSTOMER_VER.BANK1_VER) ++ le 1 bank ++ zeros 3 ++ sub digest 0 48
    ++ le 4 (s.fld (Reg.KPR_STATUS 0) F.KPR_STATUS.FW_VER) ++ le 4 Config.moduleVersion.toNat ++ s.getBytes (Reg.SEC_PROT_HASH 0) 4
    ++ le 2 s.currentV ++ zeros 6 ++ le 8 s.epochNo ++ (List.range 17).flatMap (fun i => s.getBytes (Reg.WIT_HEAD i 0) 4) ++ zeros 24

end State

open State

/-! ## The commands: readiness and self-tests -/

/-- The power-up tests have passed and the keys are derived (R345); `calOk` says that the calibration record verifies (R66). -/
def secReadyEvent (calOk : Bool) (s : State) : State :=
  if s.secReady || !s.sec.testing || s.flag Reg.SEC_STATUS F.SEC_STATUS.SELFTEST then s
  else
    let s := s.setFld Reg.SEC_STATUS F.SEC_STATUS.CAL_OK (b2n calOk)
    let s := { s with sec := { s.sec with lastSelfTest := s.now } }
    s.becomeReady

/-- The supply or the module's temperature leaves its range (R343): volatile secrets are zeroised, the session state among
them, whose closing has no cause stated (log entry 4). -/
def envFailure (s : State) : State :=
  let (x, s) := s.takeFree 3
  let s := (s.closeSession x).voidNonce
  let s := { s with sec := { s.sec with ownerKey := [], retried := false } }
  s.secError 0xFE

/-- PERIODIC_H hours have passed since the last run (R346). -/
def periodicSelftest (s : State) : State :=
  let h := s.periodicHours
  if s.secReady && h != 0 && decide (s.sec.lastSelfTest + h * 3600 * second ≤ s.now) then s.startSelfTest else s

/-- A run of the tests ends, with the id of the test that failed if one did (R346). -/
def selftestDone (failed : Option Nat) (s : State) : State :=
  if !s.sec.testing then s
  else match failed with
    | none => s.becomeReady
    | some id => s.secError id

/-- 1 s after a failure every power-up test is run again, once (R346). -/
def selftestRetry (s : State) : State :=
  match s.sec.failedAt with
  | some t =>
    if !s.sec.retried && t + second ≤ s.now then
      { s with sec := { s.sec with testing := true, retried := true, failedAt := none } }
    else s
  | none => s

/-! ## The commands: SEC_OP -/

/-- NONCE (R352, R357): a fresh nonce of the DRBG. -/
def nonceOp (by_ : Agent) (arg : Nat) (s : State) : State :=
  s.secOp by_ 1 arg false (fun s =>
    if !s.secReady then s.opStatus 1 3
    else
      let (x, s) := s.takeFree 256
      ({ s with sec := { s.sec with nonce := some s.now } }.putBytes (Reg.SEC_NONCE 0) 4 (le 32 x)).opStatus 1 2)

/-- OPEN (R357): what is wrong at once completes it; else the signature is verified. -/
def secOpen (by_ : Agent) (arg : Nat) (s : State) : State :=
  s.secOp by_ 2 arg false (fun s =>
    if !s.secReady then s.opStatus 2 3
    else if (match s.sec.lockedUntil with
      | some t => decide (s.now < t)
      | none => false) then s.voidNonce.openFailed 7
    else if s.sec.owner.isEmpty || s.session then s.voidNonce.openFailed 9
    else if !s.nonceLive then s.voidNonce.openFailed 6
    else s.startOp 2)

/-- CLOSE (R358). -/
def secClose (by_ : Agent) (arg : Nat) (s : State) : State :=
  s.secOp by_ 3 arg true (fun s => (s.closeSession 0).opStatus 3 2)

/-- OWNER_INSTALL (R353): permitted to PF0 while the unit is unowned, then to the Warden. -/
def ownerInstall (by_ : Agent) (arg : Nat) (s : State) : State :=
  s.secOp by_ 4 arg (!s.sec.owner.isEmpty) (fun s => s.startOp 4)

/-- OWNER_RELEASE (R354). -/
def ownerRelease (by_ : Agent) (arg : Nat) (s : State) : State :=
  s.secOp by_ 5 arg true (fun s => s.doOrWait 5 (fun s => s.releaseOwner 5))

/-- LDEV_GEN (R355). -/
def ldevGen (by_ : Agent) (arg : Nat) (s : State) : State := s.secOp by_ 6 arg true (fun s => s.startOp 6)

/-- LDEV_INSTALL (R355). -/
def ldevInstall (by_ : Agent) (arg : Nat) (certOk : Bool) (s : State) : State :=
  s.secOp by_ 7 arg true (fun s => s.doOrWait 7 (fun s => (s.startOp 7).ldevInstallDone certOk))

/-- SELFTEST (R346): a run starts. -/
def selftestOp (by_ : Agent) (arg : Nat) (s : State) : State :=
  s.secOp by_ 8 arg true (fun s => s.doOrWait 8 (fun s => s.startSelfTest.opStatus 8 2))

/-- ZEROISE (R352). -/
def zeroise (by_ : Agent) (arg : Nat) (s : State) : State :=
  s.secOp by_ 9 arg true (fun s => s.doOrWait 9 (fun s => s.releaseOwner 9))

/-- PROT_COMMIT (R362): the table changes at the instant of the write. -/
def protCommitOp (by_ : Agent) (arg : Nat) (s : State) : State :=
  s.secOp by_ 10 arg true (fun s =>
    let first := bits arg 7 0
    let n := bits arg 16 8
    if n = 0 || decide (256 < first + n) || (List.range n).any (fun i =>
        !(protEntryOk (s.rd (Reg.SEC_PROT_STAGE (first + i) 0)) (s.rd (Reg.SEC_PROT_STAGE (first + i) 1)))) then s.opStatus 10 11
    else (s.protCommit first n (s.roleOf by_)).opStatus 10 2)

/-- An operation code that Table SEC-4 does not name (R352). -/
def secOpBadOp (by_ : Agent) (op arg : Nat) (s : State) : State :=
  s.accept by_ Reg.SEC_OP (fun s =>
    if s.flag Reg.SEC_OP F.SEC_OP.BUSY then s else (s.setFld Reg.SEC_OP F.SEC_OP.ARG arg).opStatus op 12)

/-- The running operation completes once the module is ready and serves it (R347, R348): `ok` is the outcome of the check it makes, and
`cert` the key of the certificate it was given, where that is one (R353). -/
def secOpComplete (ok : Bool) (cert : Option Bytes) (s : State) : State :=
  if s.secServing != some 4 then s
  else
    let op := s.fld Reg.SEC_OP F.SEC_OP.LAST_OP
    State.secTake <|
    if op = 2 then s.openDone ok
    else if op = 4 then s.installDone ok cert
    else if op = 5 then s.releaseOwner 5
    else if op = 6 then s.ldevGenDone
    else if op = 7 then s.ldevInstallDone ok
    else if op = 8 then s.startSelfTest.opStatus 8 2
    else s.releaseOwner op

/-- 10 s have passed since the nonce was issued (R357). -/
def nonceExpiry (s : State) : State := if s.sec.nonce.isSome && !s.nonceLive then s.voidNonce else s

/-- The lockout of OPEN ends (R357). -/
def lockoutExpiry (s : State) : State :=
  match s.sec.lockedUntil with
  | some t => if t ≤ s.now then { s with sec := { s.sec with lockedUntil := none } } else s
  | none => s

/-- SESSION_IDLE_S seconds have passed without a transaction from PF0 (R358). -/
def sessionIdleTimeout (s : State) : State :=
  let idle := max 60 (s.fld Reg.SEC_CFG F.SEC_CFG.SESSION_IDLE_S) * second
  if s.session && decide (s.sec.lastPf0 + idle ≤ s.now) then s.closeSession 1 else s

/-! ## The commands: attestation -/

/-- A write of 1 to SEC_ATTEST_CTL.GO (R364): ignored while a report is being built. -/
def attestGo (by_ : Agent) (s : State) : State :=
  s.accept by_ Reg.SEC_ATTEST_CTL (fun s =>
    let r := Reg.SEC_ATTEST_CTL
    if s.fld r F.SEC_ATTEST_CTL.STATUS = 1 then s
    else if !s.secReady then s.setFld r F.SEC_ATTEST_CTL.STATUS 3
    else if s.flag Reg.SEC_CFG F.SEC_CFG.ATTEST_LDEV && !(s.flag Reg.SEC_STATUS F.SEC_STATUS.LDEV) then s.setFld r F.SEC_ATTEST_CTL.STATUS 5
    else { s with sec := { s.sec with attestDue := s.attestBody } }.setFld r F.SEC_ATTEST_CTL.STATUS 1 |>.secTake)

/-- The report's signature is made, once the module serves it (R348, R364). -/
def attestReportDone (s : State) : State :=
  let r := Reg.SEC_ATTEST_CTL
  if s.secServing != some 5 then s
  else
    let body := s.sec.attestDue
    let (sig, s) := s.secSign (if bitOf (leAt body 6 2) 3 then 1 else 0) (sha384 body)
    let s := s.putBytes (Reg.SEC_ATTEST_REPORT 0) 116 (body ++ sig)
    let s := { s with sec := { s.sec with attestDue := [] } }
    ((s.setFld r F.SEC_ATTEST_CTL.STATUS 2).raise Src.SEC_ATTEST_DONE 2).secTake

end Sys2Proof.Machine
end

