-- ==== Sys2Proof/Machine/Resets.lean ====
section
/-! DEFINITION. Resets (R382, R383): the chip's, the pins', a block's, and what a flush of packets leaves (R453, R383). -/
namespace Sys2Proof.Machine
namespace State

/-! ## Packets that are dropped by a reset or at the entry of ferry mode -/

/-- A frame whose INGRESS record is not written yet: before its lookups have completed (R453). -/
def beforeLookup (p : Packet) : Bool :=
  match p.stage with
  | .receiving => true
  | .dispatch => true
  | .barge _ => true
  | .closed => true
  | .lookup => true
  | _ => false

/-- A frame that is past its lookups and holds no reference yet. -/
def beforeQueues (p : Packet) : Bool :=
  match p.stage with
  | .meter => true
  | .accept => true
  | _ => false

/-- Packet `id` leaves the dispatch queues and the barges. -/
def leaveParse (s : State) (id : Nat) : State :=
  { s with prs := { s.prs with
    queues := (s.prs.queues.map (fun e => (e.1, e.2.filter (· != id)))).filter (fun e => !e.2.isEmpty),
    barges := s.prs.barges.filter (fun e => e.2.pkt != id) } }

/-- Every packet that `sel` picks among those not yet in queues is dropped with its INGRESS record; `tally` counts it. -/
def dropEarly (s : State) (sel : Packet → Bool) (tally : Packet → State → State) : State :=
  (s.pkts.filter (fun e => !e.2.decided && sel e.2)).foldl (fun s e =>
    let s := (tally e.2 s).leaveParse e.1
    let s := s.onPkt e.1 (fun p => { p with outPort := 0x3FF, cpu := [], capture := none })
    s.dropFrame e.1) s

/-- The drop of a packet with no egress port decided: one EGRESS record with OUT_PORT 0x3FF under the ING bit of its
ingress port (R453). -/
def flushRecord (s : State) (id : Nat) : State :=
  match mfind s.pkts id with
  | none => s
  | some p =>
    let (len, s) := s.takeFree 16
    let c : Copy := { pkt := id, kind := .unicast, port := 0x3FF, cls := p.cls, queue := 0, gran := 0 }
    s.egressRecordAt c p s.now s.tq s.ubBase len true (sliceOf p.port) 0x3FF (s.selects p p.port p.cls false)

/-- The drop of a copy: its EGRESS record at its egress port. -/
def flushCopy (s : State) (c : Copy) : State :=
  let (len, s) := s.takeFree 16
  s.egressRecord c s.now s.tq s.ubBase len true

/-- Packets whose lookups are complete and that hold no reference yet are dropped, each with one EGRESS record. -/
def flushDecided (s : State) (tally : Nat → State → State) : State :=
  (s.pkts.filter (fun e => beforeQueues e.2)).foldl (fun s e =>
    let p := e.2
    let one := p.kind == 1 && p.outPort != 0x3FF
    let c : Copy := { pkt := e.1, kind := .unicast, port := p.outPort, cls := p.cls, queue := 0, gran := 0, nh := p.nextHop }
    let s := if one then s.flushCopy c else s.flushRecord e.1
    let s := tally (if one then sliceOf p.outPort else sliceOf p.port) s
    (s.onPkt e.1 (fun p => { p with dropped := true, decided := true, witnessed := true, stage := .stored, cpu := [], capture := none })).forget
      e.1) s

/-- Every copy and reference that has not begun transmission is dropped: on its way out, in queues, in replication, due to
the processor and to the capture ring; with `keepDue`, not the copies already released to transmission. -/
def flushStored (s : State) (keepDue : Bool) (tally : Nat → State → State) : State :=
  let copies : List Copy := s.egr.ports.flatMap (fun e =>
    e.2.offers.filter (fun c => c.kind == .multicast) ++ e.2.crossing ++ e.2.staging ++ e.2.fifo ++ (if keepDue then [] else e.2.due))
  let clear (e : EgressPort) : EgressPort :=
    { e with offers := [], crossing := [], staging := [], fifo := [], due := if keepDue then e.due else [] }
  let s := { s with egr := { s.egr with ports := s.egr.ports.map (fun e => (e.1, clear e.2)) }, que := { s.que with offered := [] } }
  let s : State := copies.foldl (fun s c => (tally (sliceOf c.port) (s.flushCopy c)).releaseCopy c) s
  let wait := s.que.queues.filter (fun e => decide (65792 ≤ e.1))
  let whole : List Nat := ((wait.flatMap (fun e => e.2.map (·.pkt))) ++ (s.egr.replicas.filter (fun r => !r.made)).map (·.pkt)
    ++ s.pkts.filterMap (fun e => if e.2.stage == .stored && (!e.2.cpu.isEmpty || e.2.capture.isSome) && e.2.refs == e.2.cpu.length + b2n e.2.capture.isSome
        then some e.1 else none)).eraseDups
  let s : State := whole.foldl (fun s id => tally (match mfind s.pkts id with
    | some p => sliceOf p.port
    | none => 0) (s.flushRecord id)) s
  let s : State := s.que.queues.foldl (fun s e => e.2.foldl (fun s d =>
    let s := if 65792 ≤ e.1 then s else
      match mfind s.pkts d.pkt with
      | some p => tally (sliceOf d.port) (s.flushCopy (s.copyOf e.1 d p))
      | none => s
    (s.leaveQueue e.1 d).releaseRef d.pkt) s) s
  let gone := s.egr.replicas.filter (fun r => !r.made)
  let s := { s with egr := { s.egr with replicas := s.egr.replicas.filter (fun r => r.made) } }
  let s : State := gone.foldl (fun s r => (s.useGran r.queue (-(r.gran : Int))).releaseRef r.pkt) s
  (s.pkts.map (·.1)).foldl dropQueued s

/-- The frame in transmission on port `p` is cut off: nothing of it counts as sent. -/
def cutSending (s : State) (p : Nat) : State :=
  match (s.egress p).sending with
  | none => s
  | some x =>
    let s := (s.onEgress p (fun e => { e with sending := none })).inFlight p (-1)
    if x.witnessed then s.releaseCopy x.copy else s.dropCopy x.copy true

/-! ## The registers of a block -/

/-- Every register of block `b` at its reset value but those in `keep`, with nothing of its shadows in force. -/
def resetRegs (s : State) (b : Nat) (keep : List Nat) : State :=
  let out (m : SMap Word64) : SMap Word64 := m.filter (fun e => blockOf e.1 != b || keep.contains e.1)
  { s with
    regs := out s.regs,
    stg := { force := out s.stg.force, prev := out s.stg.prev, bound := mdel s.stg.bound b, bound0 := mdel s.stg.bound0 b } }

/-- The registers of a block that a reset of it leaves: what an NVM, a fuse or the DRAM copy restores at once, and the mode
of the whole device. -/
def keptRegs (b : Nat) : List Nat :=
  if b = 5 then [Reg.PRS_CS_BANK, Reg.PRS_UCODE_VENDOR_VER, Reg.PRS_UCODE_CUSTOMER_VER] ++ (List.range 32).map Reg.PRS_VEXPORT
  else if b = 20 then [Reg.FLT_LAST_CHIP, Reg.FLT_FERRY_STAT]
  else []

/-- The bits of CFG_READY that are clear while block `b` is reset (Table BOOT-6, R383). -/
def blockBits (b : Nat) : List Nat :=
  let slices := (List.range 16).map (16 + ·)
  if b = 1 then [0, 3]
  else if b = 3 ∨ b = 5 then slices
  else if b = 9 then [13]
  else if b = 10 then [9]
  else if b = 11 ∨ b = 12 then 9 :: slices
  else if b = 13 then 10 :: slices
  else if b = 14 then [7, 14]
  else if b = 15 then [11]
  else if b = 20 then [2]
  else if b = 22 then [5]
  else []

/-- Links of every port go down and what PRT receives and sends is dropped. -/
def resetPorts (s : State) : State :=
  let s := s.dropEarly (fun p => p.stage == .receiving) (fun p s => s.count (Ctr.PRT_RX_DISCARD p.port))
  let s : State := (s.egr.ports.filter (fun e => e.2.sending.isSome)).foldl (fun s e => (s.count (Ctr.PRT_EGR_DOWN_DROP e.1)).cutSending e.1) s
  let up := s.regs.filterMap (fun e => match regAt e.1 with
    | some (_, i :: _) => if e.1 = Reg.PRT_STATUS i then some i else if e.1 = Reg.PRT_STATUS (512 + i) then some (512 + i) else none
    | _ => none)
  let s := up.foldl (fun s p => linkDownEvent p s) s
  { s with ports := [] }

/-- What a reset of block `b` does beside its registers (R383): its state returns to what it is after a chip reset, and the
packets it holds are dropped and counted where the block has a counter for them. -/
def resetState (s : State) (b : Nat) : State :=
  let lookups (p : Packet) : Bool := match p.stage with
    | .closed => true
    | .lookup => true
    | _ => false
  if b = 1 then
    let s := (s.closeSession 2).setSecReady false
    { s with sec := { owner := s.sec.owner, ownerPub := s.sec.ownerPub, ownerSeq := s.sec.ownerSeq, ldev := s.sec.ldev,
                      stepsLeft := s.sec.stepsLeft } }
  else if b = 2 then { s.setTq 0 with tim := { origin := (s.now : Int), lampV := s.now + 67092480 } }
  else if b = 3 then s.resetPorts
  else if b = 5 then
    let s := s.dropEarly (fun p => match p.stage with
      | .dispatch => true
      | .barge _ => true
      | _ => false) (fun p s => s.count (Ctr.PRS_DISPATCH_DROP (parseSlice p.port)))
    { s with prs := { s.prs with queues := [], barges := [], lastBarge := [], ecc := [], fetched := false } }
  else if b = 6 ∨ b = 7 ∨ b = 8 then
    let s := s.dropEarly lookups (fun p s => s.count (Ctr.FWD_DROP (keySetOf p)))
    { s with tab := { s.tab with move := if b = 6 then s.tab.move else none,
                                 learnFifo := if b = 6 then [] else s.tab.learnFifo, filter := if b = 6 then [] else s.tab.filter } }
  else if b = 9 then { s with ver := {} }
  else if b = 10 then
    let s : State := (s.pkts.filter (fun e => e.2.stage == .meter)).foldl (fun s e =>
      (s.onPkt e.1 (fun p => { p with outPort := 0x3FF, cpu := [], capture := none })).dropFrame e.1) s
    { s with mtr := { s.mtr with meters := s.mtr.meters.map (fun e => (e.1, { e.2 with tc := 0, tp := 0, last := 0 })), base := {} } }
  else if b = 11 then
    let s : State := s.que.queues.foldl (fun s e => s.count (Ctr.QUE_DROP_QUEUE e.1) e.2.length) s
    let s := (s.flushDecided (fun _ s => s)).flushStored false (fun _ s => s)
    { s with que := {}, pkts := s.pkts.map (fun e => (e.1, { e.2 with buf := none })) }
  else if b = 12 then
    let s : State := s.egr.ports.foldl (fun s e => e.2.pauses.foldl (fun s x => s.endPause e.1 x.1) s) s
    let cs : List Copy := s.egr.ports.flatMap (fun e => e.2.crossing ++ e.2.staging)
    let s := { s with egr := { s.egr with ports := s.egr.ports.map (fun e => (e.1, { e.2 with crossing := [], staging := [] })) } }
    let s : State := cs.foldl (fun s c => s.dropCopy c false) s
    let back (e : EgressPort) : EgressPort :=
      { offers := e.offers.filter (fun c => c.kind == .multicast), fifo := e.fifo, due := e.due, sending := e.sending,
        latestBegun := e.latestBegun, wasUp := e.wasUp, freeAt := e.freeAt }
    { s with egr := { s.egr with ports := s.egr.ports.map (fun e => (e.1, back e.2)), gates := [] }, que := { s.que with offered := [] } }
  else if b = 13 then
    let held (s : State) (e : EgressPort) : List Copy := e.fifo ++ e.due.filter s.stillLocked
    let s : State := s.egr.ports.foldl (fun t e => (held s e.2).foldl (fun t c => (t.count (Ctr.LCK_POISON c.port)).dropCopy c true)
      (t.onEgress e.1 (fun x => { x with fifo := [], due := x.due.filter (fun c => !(s.stillLocked c)) }))) s
    s
  else if b = 14 then
    let s := s.stopNs Ctr.WIT_PANIC_NS
    let s := (s.setFld (Reg.HBM_STAT 0) F.HBM_STAT.PANIC 0).setFld (Reg.HBM_STAT 1) F.HBM_STAT.PANIC 0
    { s with wit := {} }
  else if b = 15 then { (if s.towSt = 0 then s else s.leaveSystem) with tow := {} }
  else if b = 17 then { s with scp := {} }
  else if b = 18 then { s with hif := { s.hif with msgs := [], conds := [], queues := [], keeperMem := [] } }
  else if b = 19 then { s with pmc := { s.pmc with snap := none, next := none, samplers := [], posted := [], seq := 0, skipped := 0 } }
  else if b = 20 then { s with flt := { s.flt with faults := [], due := [], chipDue := none, testUntil := none } }
  else if b = 21 then
    { s with cnd := { avsPoint := s.cnd.avsPoint, avsEnd := s.cnd.avsEnd, avsAt := s.cnd.avsAt } }
  else if b = 22 then { s with kpr := [] }
  else s

/-- A reset of block `b` begins (R383): its ready bits clear, and its registers and its state return to what they are after
a chip reset. Blocks CFG, HBM and HIF have none. -/
def blockReset (s : State) (b : Nat) : State :=
  if b = 0 ∨ b = 16 ∨ 23 ≤ b then s
  else
    let was := (blockBits b).filter s.ready
    let old := mget [] s.boot.resetting b
    let s := { s with boot := { s.boot with resetting := mput s.boot.resetting b (old ++ was) } }
    let s := was.foldl (fun s i => s.setReady i false) s
    let s := (s.clearCounters b).resetState b
    let flt := s.rd Reg.FLT_STATUS
    let plan := s.rd Reg.CND_PLAN
    let fact := (List.range 64).map (fun o => s.fld (Reg.CND_REPLICA o) F.CND_REPLICA.FACTORY)
    let verified := s.flag Reg.SEC_STATUS F.SEC_STATUS.CAL_OK
    let s := s.resetRegs b (keptRegs b)
    let s := if b == 1 && verified then s.noteUnverified else s
    if b = 20 then
      (s.setFld Reg.FLT_STATUS F.FLT_STATUS.FERRY (bits flt 3 2)).setFld Reg.FLT_STATUS F.FLT_STATUS.FACTORY_TEST (bits flt 7 7)
    else if b = 21 then
      let s := s.wr Reg.CND_PLAN (plan % 2 ^ 32)
      (List.range 64).foldl (fun s o => s.setFld (Reg.CND_REPLICA o) F.CND_REPLICA.FACTORY (fact.getD o 0)) s
    else if b = 22 then (List.range 4).foldl (fun s k => s.setFld (Reg.KPR_STATUS k) F.KPR_STATUS.HALTED 1) s
    else s

/-! ## The whole chip (R382, R369) -/

/-- The slot that a start-up tries first (R369). -/
def firstSlot (s : State) : Nat :=
  let p := s.fld Reg.CFG_NVM_CTL F.CFG_NVM_CTL.PREF
  if s.flag Reg.CFG_NVM_CTL F.CFG_NVM_CTL.TRY_OTHER then 1 - p else p

/-- Start-up begins (R376, R484): the fuses are read (`vFuse` in 0.1 mV, the path replicas' factory delays), TRY_OTHER is
cleared in the boot selector before any image byte is read (R369), and the loader holds every claim region (R375). The factory
calibration record is not verified yet (R66, R74). -/
def beginLoad (s : State) (vFuse : Nat) (factory : List Nat) : State :=
  let slot := s.firstSlot
  let s := if s.flag Reg.CFG_NVM_CTL F.CFG_NVM_CTL.TRY_OTHER then
      (s.setFld Reg.CFG_NVM_CTL F.CFG_NVM_CTL.TRY_OTHER 0).emit (.nvm 4 0 [BitVec.ofNat 8 (2 * s.fld Reg.CFG_NVM_CTL F.CFG_NVM_CTL.PREF)])
    else s
  let s := { s with boot := { s.boot with running := true, slot := slot, leftAt := s.now, loading := true },
                    cnd := { s.cnd with avsEnd := clamp 7000 8000 vFuse, avsAt := none } }
  let s := s.setFld Reg.CND_PLAN F.CND_PLAN.V_FUSE vFuse
  let s := (factory.zipIdx).foldl (fun s x => if x.2 < 64 then s.setFld (Reg.CND_REPLICA x.2) F.CND_REPLICA.FACTORY x.1 else s) s
  let s := (List.range 64).foldl (fun s r => s.setFld (Reg.FWD_CLAIM r) F.FWD_CLAIM.HOLDER 3) s
  (s.setFld Reg.CFG_BOOT_STAT F.CFG_BOOT_STAT.SLOT slot).noteUnverified

/-- All on-chip state at its reset value (R382): what outlives it is the NVM, with the boot selector and the security
module's records in it, the pins, and, but for a power-on reset, CFG_RESET_CAUSE and FLT_LAST_CHIP (R385, R465). -/
def chipState (s : State) (powerOn : Bool) : State :=
  let sel := (s.rd Reg.CFG_NVM_CTL) &&& 6
  let t : State := {
    pending := s.pending, pins := s.pins, unit := s.unit, out := s.out, free := s.free,
    sec := { owner := s.sec.owner, ownerPub := s.sec.ownerPub, ownerSeq := s.sec.ownerSeq, ldev := s.sec.ldev, stepsLeft := s.sec.stepsLeft },
    boot := { perstN := s.boot.perstN, gpio := s.boot.gpio, tap := s.boot.tap } }
  let t := t.wr Reg.CFG_NVM_CTL sel
  if powerOn then t
  else (t.wr Reg.CFG_RESET_CAUSE (s.rd Reg.CFG_RESET_CAUSE)).wr Reg.FLT_LAST_CHIP (s.rd Reg.FLT_LAST_CHIP)

/-- A cause bit of CFG_RESET_CAUSE is set and the reset counted. -/
def noteReset (s : State) (f : Fld) : State :=
  let r := Reg.CFG_RESET_CAUSE
  (s.setFld r f 1).setFld r F.CFG_RESET_CAUSE.COUNT (s.fld r F.CFG_RESET_CAUSE.COUNT + 1)

/-- A chip reset with cause bit `f` (R382): the device starts up again at once, its fuses as they were. -/
def chipReset (s : State) (f : Fld) : State :=
  let v := s.fld Reg.CND_PLAN F.CND_PLAN.V_FUSE
  let fact := (List.range 64).map (fun o => s.fld (Reg.CND_REPLICA o) F.CND_REPLICA.FACTORY)
  ((s.noteReset f).chipState false).beginLoad v fact

/-- The device is held in reset: PWR_OK or RESET_N is low (R486). -/
def inReset (s : State) : Bool := !s.pins.pwrOk || !s.pins.resetN

end State

open State

/-! ## The commands -/

/-- PWR_OK asserts, or falls (R382, R486): a power-on reset. `resetN` is RESET_N's level, `gpio` the straps sampled at the
rising edge (R492). -/
def powerOnReset (pwrOk resetN : Bool) (gpio : Nat) (s : State) : State :=
  let t := s.chipState true
  { t with pins := ⟨pwrOk, resetN⟩, boot := { t.boot with gpio := if pwrOk then gpio % 4 else t.boot.gpio } }

/-- RESET_N falls with PWR_OK high (R382). -/
def pinReset (s : State) : State :=
  if s.inReset then s
  else
    let t := (s.noteReset F.CFG_RESET_CAUSE.PIN).chipState false
    { t with pins := ⟨true, false⟩ }

/-- PWR_OK and RESET_N are both high: the device leaves reset and start-up begins (R376, R486), with what the fuses hold. -/
def leaveReset (vFuse : Nat) (factory : List Nat) (s : State) : State :=
  if !s.pins.pwrOk || s.boot.running then s
  else { s with pins := ⟨true, true⟩ }.beginLoad vFuse factory

/-- A write of 1 to CFG_RESET.CHIP (R382). -/
def chipResetWrite (by_ : Agent) (v : Word64) (s : State) : State :=
  let r := Reg.CFG_RESET
  s.accept by_ r (fun s =>
    let go := s.acts by_ r F.CFG_RESET.CHIP v.toNat
    let s := s.writeFields by_ r v.toNat
    if go then s.chipReset F.CFG_RESET_CAUSE.SOFT else s)

/-- A write of 1 to CFG_RESET.BLK: the block named in the same write (R383). -/
def blockResetWrite (by_ : Agent) (v : Word64) (s : State) : State :=
  let r := Reg.CFG_RESET
  s.accept by_ r (fun s =>
    let go := s.acts by_ r F.CFG_RESET.BLK v.toNat
    let s := s.writeFields by_ r v.toNat
    if go then s.blockReset (s.fld r F.CFG_RESET.BLOCK) else s)

end Sys2Proof.Machine
end

