-- ==== Sys2Proof/Machine/Link.lean ====
section
/-! DEFINITION. The host link, its DMA channels and the event queues (chapter "Host Link, DMA and Event Queues"). -/
namespace Sys2Proof.Machine
namespace State

/-! ## Functions (R390, R393) -/

/-- The state of PCI Express function `fn`. -/
def fnSt (s : State) (fn : Nat) : FnState := mget {} s.hif.fns fn

/-- A function's state changed. -/
def onFn (s : State) (fn : Nat) (f : FnState → FnState) : State :=
  { s with hif := { s.hif with fns := mset {} s.hif.fns fn (f (s.fnSt fn)) } }

/-- Function `fn` is enabled: a PF, or a VF that PF1 has enabled. -/
def fnOn (s : State) (fn : Nat) : Bool := decide (fn < 2) || decide (fn - 1 ≤ s.fld Reg.HIF_LINK_STAT F.HIF_LINK_STAT.VFS)

/-- PAUSED of each channel of function `fn` follows its power state and its Bus Master Enable (Table HOST-16). -/
def syncPaused (s : State) (fn : Nat) : State :=
  let f := s.fnSt fn
  (List.range 16).foldl (fun s c =>
    if s.chanFn c = fn then s.setFld (Reg.HIF_DMA_STAT c) F.HIF_DMA_STAT.PAUSED (b2n (f.d3hot || !f.busMaster)) else s) s

/-- A channel stops without an error: EN 0, and nothing of it stays outstanding (R394). -/
def chanOff (s : State) (c : Nat) : State :=
  let s := s.setFld (Reg.HIF_DMA_CFG c) F.HIF_DMA_CFG.EN 0
  ({ s with hif := { s.hif with chans := mdel s.hif.chans c } }).syncChan c

/-! ## Event queues (R403 to R409) -/

/-- What queue `q` holds beside its registers. -/
def evq (s : State) (q : Nat) : EvQueue := mget {} s.hif.queues q

/-- Queue `q` changed. -/
def onEvq (s : State) (q : Nat) (f : EvQueue → EvQueue) : State :=
  { s with hif := { s.hif with queues := mset {} s.hif.queues q (f (s.evq q)) } }

/-- The function of queue `q`; none for the keeper queues. -/
def queueFn (s : State) (q : Nat) : Option Nat := if q < 4 then none else some (s.fld (Reg.EVQ_CFG q) F.EVQ_CFG.FUNC)

/-- The queue's function is in D3hot. -/
def queueAsleep (s : State) (q : Nat) : Bool :=
  match s.queueFn q with
  | some fn => (s.fnSt fn).d3hot
  | none => false

/-- TAIL of queue `q`. -/
def evqTail (s : State) (q : Nat) : Nat := s.fld (Reg.EVQ_IDX q) F.EVQ_IDX.TAIL
/-- HEAD of queue `q`. -/
def evqHead (s : State) (q : Nat) : Nat := s.fld (Reg.EVQ_IDX q) F.EVQ_IDX.HEAD
/-- TAIL − HEAD. -/
def evqLevel (s : State) (q : Nat) : Nat := (s.evqTail q + 2 ^ 20 - s.evqHead q) % 2 ^ 20
/-- The number of record slots of queue `q` (R406). -/
def evqSize (s : State) (q : Nat) : Nat := 2 ^ s.fld (Reg.EVQ_BASE q) F.EVQ_BASE.SIZE_LOG2
/-- The ring has room for another record (R406). -/
def evqRoom (s : State) (q : Nat) : Bool := decide (s.evqLevel q < s.evqSize q - 1)

/-- One record written to the ring with the next SEQ (R401, R402, R406). -/
def putRecord (s : State) (q : Nat) (r : EvRec) : State :=
  let tail := s.evqTail q
  let slot := tail % s.evqSize q
  let w0 := BitVec.ofNat 64 (r.src % 2 ^ 12 + tail * 2 ^ 12 + r.payload % 2 ^ 32 * 2 ^ 32)
  let w1 := BitVec.ofNat 64 (d64 (eventBase r.time) r.time)
  let s := if q < 4 then { s with hif := { s.hif with keeperMem := mput s.hif.keeperMem (4096 * q + slot % 4096) (w0, w1) } }
    else s.emit (.eventRecord q slot w0 w1)
  (s.setFld (Reg.EVQ_IDX q) F.EVQ_IDX.TAIL (tail + 1)).count (Ctr.EVQ_RECORDS q)

/-- A claimed record enters the queue's staging, or is lost where it holds 64 (R406); the second part says whether it is
kept. -/
def stageRecord (s : State) (q : Nat) (r : EvRec) : State × Bool :=
  if (s.evq q).staging.length < 64 then (s.onEvq q (fun e => { e with staging := e.staging ++ [r] }), true)
  else
    let (s, first) := s.loseEvent q r.time
    (if first then s.raise Src.EVQ_OVERFLOW_SEEN q else s, false)

/-- The record of source `n` has been written, or lost: the source is inactive, or claimed again at once where it has fired
meanwhile (R404). -/
def recordDone (s : State) (q n : Nat) : State :=
  match mfind s.hif.conds n with
  | none => s
  | some c =>
    match c.phase with
    | .pending => s
    | .active => { s with hif := { s.hif with conds := mdel s.hif.conds n } }
    | .activePending =>
      if c.withdrawn then
        let s := { s with hif := { s.hif with conds := mdel s.hif.conds n } }
        ((s.stageRecord q ⟨Src.SPURIOUS, n, c.time⟩).1).count (Ctr.EVQ_SPURIOUS q)
      else
        let (s, kept) := s.stageRecord q ⟨n, c.payload, c.time⟩
        if kept then { s with hif := { s.hif with conds := mput s.hif.conds n { c with phase := .active } } }
        else { s with hif := { s.hif with conds := mdel s.hif.conds n } }

/-- An overflow record, where one is due and the ring has room (R407). -/
def overflowRecord (s : State) (q : Nat) : State :=
  let st := Reg.EVQ_STAT q
  let lost := s.fld st F.EVQ_STAT.LOST
  if lost ≠ 0 && s.evqRoom q then (s.putRecord q ⟨Src.EVQ_OVERFLOW, lost, (s.evq q).firstLost⟩).setFld st F.EVQ_STAT.LOST 0 else s

/-- The first staged record of queue `q` is written, an overflow record before it where one is due (R406, R407). -/
def writeRecord (s : State) (q : Nat) : State :=
  let s := s.overflowRecord q
  match (s.evq q).staging with
  | [] => s
  | r :: rest =>
    if s.evqRoom q then
      ((s.onEvq q (fun e => { e with staging := rest })).putRecord q r).recordDone q r.src
    else s

/-- An interrupt is owed: the queue is armed and not empty (R408). -/
def evqOwed (s : State) (q : Nat) : Bool := s.flag (Reg.EVQ_STAT q) F.EVQ_STAT.ARMED && decide (s.evqLevel q ≠ 0)

/-- The MSI-X of queue `q` is sent, or its core's interrupt raised, which disarms the queue (R408, R409). -/
def sendMsix (s : State) (q : Nat) : State :=
  let s := (s.setFld (Reg.EVQ_STAT q) F.EVQ_STAT.ARMED 0).onEvq q (fun e => { e with lastMsix := some s.now, pmeSent := false })
  match s.queueFn q with
  | some fn => (s.emit (.msix fn (s.fld (Reg.EVQ_CFG q) F.EVQ_CFG.VECTOR))).count (Ctr.EVQ_MSIX q)
  | none => s.kprPend q 2

/-- Queue `q` is disabled; with `discard` its staged records are lost (R394). -/
def evqOff (s : State) (q : Nat) (discard : Bool) : State :=
  let s := s.setFld (Reg.EVQ_CFG q) F.EVQ_CFG.EN 0
  if !discard then s
  else
    let rs := (s.evq q).staging
    let s := s.onEvq q (fun e => { e with staging := [] })
    rs.foldl (fun s r =>
      let (s, first) := s.loseEvent q r.time
      let s := if first then s.raise Src.EVQ_OVERFLOW_SEEN q else s
      { s with hif := { s.hif with conds := mdel s.hif.conds r.src } }) s

/-! ## Link resets (Table HOST-2) -/

/-- The configuration space of the functions that `p` picks returns to its state after a reset; what HIF_READ_TIME and the
TIM_NOW latch hold stays. -/
def resetFns (s : State) (p : Nat → Bool) : State :=
  let ks := (s.hif.fns.map (·.1)).filter p
  let s := ks.foldl (fun s fn => s.onFn fn (fun f => { secHi := f.secHi, readTime := f.readTime })) s
  (List.range 16).foldl (fun s c => if p (s.chanFn c) then s.setFld (Reg.HIF_DMA_STAT c) F.HIF_DMA_STAT.PAUSED 0 else s) s

/-- PUSH_EN and PULL_EN are written 0. -/
def exportOff (s : State) : State :=
  let r := Reg.WIT_EXP_CTL
  let old := s.rd r
  ((s.setFld r F.WIT_EXP_CTL.PUSH_EN 0).setFld r F.WIT_EXP_CTL.PULL_EN 0).exportEnables old

/-- The channels and the host queues of the functions that `p` picks stop. -/
def stopFns (s : State) (p : Nat → Bool) (discard : Bool) : State :=
  let s := (List.range 16).foldl (fun s c => if p (s.chanFn c) then s.chanOff c else s) s
  (List.range 124).foldl (fun s i =>
    let q := i + 4
    if s.queueOn q && p (s.fld (Reg.EVQ_CFG q) F.EVQ_CFG.FUNC) then s.evqOff q discard else s) s

/-- Hot reset, link down or link loss (Table HOST-2). -/
def linkReset (s : State) : State :=
  let s := s.stopFns (fun _ => true) true
  let s := (s.resetFns (fun _ => true)).setFld Reg.HIF_LINK_STAT F.HIF_LINK_STAT.VFS 0
  ({ s with hif := { s.hif with l12 := false } }.closeSession 2).exportOff

/-- The link's state becomes `up` at `speed` and `width`; a change raises HIF_LINK_CHANGE (Table HOST-22). -/
def setLink (s : State) (up : Bool) (speed width : Nat) (flit : Bool) : State :=
  let r := Reg.HIF_LINK_STAT
  let was := s.flag r F.HIF_LINK_STAT.UP
  let same := was == up && s.fld r F.HIF_LINK_STAT.SPEED == speed % 16 && s.fld r F.HIF_LINK_STAT.WIDTH == width % 32
  let s := (((s.setFld r F.HIF_LINK_STAT.UP (b2n up)).setFld r F.HIF_LINK_STAT.SPEED speed).setFld r F.HIF_LINK_STAT.WIDTH width).setFld r
    F.HIF_LINK_STAT.FLIT (b2n flit)
  let s := if was && !up then s.setFld r F.HIF_LINK_STAT.DOWNS (s.fld r F.HIF_LINK_STAT.DOWNS + 1) else s
  if same then s else s.raise Src.HIF_LINK_CHANGE (b2n up + 2 * (speed % 16) + 32 * (width % 32))

/-! ## DMA descriptors (Tables HOST-4 to HOST-6) -/

/-- A descriptor is well formed for channel use `use` (Table HOST-4, code 6). -/
def descOk (use : Nat) (d : Bytes) : Bool :=
  let len := leAt d 8 4
  leAt d 0 8 % 64 == 0 && allZero (sub d 15 17) &&
    (if use = 2 then decide (60 ≤ len ∧ len ≤ 10236 ∧ leAt d 12 2 < 1024 ∧ byteAt d 14 < 8) else leAt d 12 3 == 0)

/-- The channel stops on error `code`; the completion of the descriptor at its head carries it (R399). What else that
completion holds is not stated. -/
def descFail (s : State) (c code : Nat) : State :=
  let (x, s) := s.takeFree 192
  let idx := s.fld (Reg.HIF_DMA_IDX c) F.HIF_DMA_IDX.DESC_HEAD
  (s.complete c (le 24 x ++ le 2 idx ++ le 1 code ++ zeros 5)).dmaStop c code

/-- Processor copy `reason` of packet `id` is over: its reference is released. -/
def endCpu (s : State) (id reason : Nat) : State :=
  (s.onPkt id (fun p => { p with cpu := p.cpu.filter (fun c => c.reason != reason || c.keeper) })).releaseRef id

end State

open State

/-! ## The commands: link and power -/

/-- The link goes down, is lost or is hot-reset, or trains to a new speed and width (R388, R394, R488). -/
def pcieLinkChange (up hotReset : Bool) (speed width : Nat) (flit : Bool) (s : State) : State :=
  let was := s.flag Reg.HIF_LINK_STAT F.HIF_LINK_STAT.UP
  let s := if up then { s with boot := { s.boot with perstN := true } } else s
  let s := if hotReset || (was && !up) then s.linkReset else s
  if up then s.setLink true speed width flit else s.setLink false 0 0 false

/-- PERST_N falls: a host-link reset (R488). -/
def perstAssert (s : State) : State :=
  ({ s with boot := { s.boot with perstN := false } }.linkReset).setLink false 0 0 false

/-- A function-level reset of function `fn` (Table HOST-2). -/
def functionLevelReset (fn : Nat) (s : State) : State :=
  if 64 ≤ fn || !(s.fnOn fn) then s
  else
    let p (x : Nat) : Bool := if fn = 0 then x == 0 else if fn = 1 then x != 0 else x == fn
    let s := (s.stopFns p false).resetFns p
    let s := if fn = 0 then s.closeSession 2
      else if fn = 1 then (s.setFld Reg.HIF_LINK_STAT F.HIF_LINK_STAT.VFS 0).exportOff else s
    s.raise Src.HIF_FLR fn

/-- Function `fn` enters D3hot (R393). -/
def d3hotEntry (fn : Nat) (s : State) : State :=
  if 64 ≤ fn || !(s.fnOn fn) || (s.fnSt fn).d3hot then s
  else ((s.onFn fn (fun f => { f with d3hot := true })).syncPaused fn).raise Src.HIF_PM_CHANGE (fn + 64 * 3)

/-- Function `fn` returns to D0 (R393, R409): its queues' staged records are written in order and every interrupt owed is
sent at once. -/
def d0Return (fn : Nat) (s : State) : State :=
  if !(s.fnSt fn).d3hot then s
  else
    let s := (s.onFn fn (fun f => { f with d3hot := false })).syncPaused fn
    let qs := ((List.range 124).map (· + 4)).filter (fun q => s.queueOn q && s.fld (Reg.EVQ_CFG q) F.EVQ_CFG.FUNC == fn)
    let s := qs.foldl (fun s q =>
      let s := (s.evq q).staging.foldl (fun s _ => s.writeRecord q) s
      if s.evqOwed q then s.sendMsix q else s) s
    s.raise Src.HIF_PM_CHANGE fn

/-- A configuration write by the host (R390, Table HOST-16): the VFs of PF1 enabled, and Bus Master Enable and PME_En of
function `fn`. -/
def pcieConfigWrite (fn : Nat) (vfs : Option Nat) (busMaster pmeEn : Bool) (s : State) : State :=
  let s := match vfs with
    | some n => if fn = 1 ∧ n ≤ 62 then s.setFld Reg.HIF_LINK_STAT F.HIF_LINK_STAT.VFS n else s
    | none => s
  if 64 ≤ fn || !(s.fnOn fn) then s
  else (s.onFn fn (fun f => { f with busMaster := busMaster, pmeEn := pmeEn })).syncPaused fn

/-- The device requests L1.2, its upstream request queues being empty (R393). -/
def l12Entry (s : State) : State :=
  let idle := s.hif.queues.all (fun e => e.2.staging.isEmpty || s.queueAsleep e.1) && s.hif.chans.all (fun e => e.2.waiting.isEmpty)
  if s.hif.l12 || !idle || !(s.flag Reg.HIF_LINK_STAT F.HIF_LINK_STAT.UP) then s
  else { s with hif := { s.hif with l12 := true } }.emit .l12

/-! ## The commands: DMA channels -/

/-- A write of HIF_DMA_CFG(c) with EN 1 (R395): ignored with code 7 where the use and the function do not go together. -/
def dmaEnable (by_ : Agent) (c : Nat) (v : Word64) (s : State) : State :=
  if 16 ≤ c then s else
  let r := Reg.HIF_DMA_CFG c
  s.accept by_ r (fun s =>
    let t := s.writeFields by_ r (putBits v.toNat 63 63 1)
    let use := t.fld r F.HIF_DMA_CFG.USE
    let fn := t.fld r F.HIF_DMA_CFG.FUNC
    if (use = 2 ∧ fn ≠ 0) ∨ (use = 3 ∧ fn ≠ 1) then s.raise Src.HIF_DMA_ERR (c + 16 * 7)
    else (t.syncChan c).syncPaused fn)

/-- A write of DESC_TAIL (R396): ignored where it moves the tail backward or past what the ring allows. -/
def descTailWrite (by_ : Agent) (c : Nat) (v : Word64) (s : State) : State :=
  if 16 ≤ c then s else
  let r := Reg.HIF_DMA_TAIL c
  s.accept by_ r (fun s =>
    let head := s.fld (Reg.HIF_DMA_IDX c) F.HIF_DMA_IDX.DESC_HEAD
    let d := (v.toNat % 65536 + 65536 - head) % 65536
    if s.descsPosted c ≤ d ∧ d ≤ 2 ^ s.fld (Reg.HIF_DMA_DESC_BASE c) F.HIF_DMA_DESC_BASE.SIZE_LOG2 then s.writeFields by_ r v.toNat
    else s)

/-- A write of HIF_DMA_IDX(c): CPL_HEAD, ignored where it moves backward or past CPL_TAIL, and ARM (R396, Table HOST-14). -/
def cplHeadWrite (by_ : Agent) (c : Nat) (v : Word64) (s : State) : State :=
  if 16 ≤ c then s else
  let r := Reg.HIF_DMA_IDX c
  s.accept by_ r (fun s =>
    let head := s.fld r F.HIF_DMA_IDX.CPL_HEAD
    let d := (v.toNat % 65536 + 65536 - head) % 65536
    let s := if d ≤ (s.fld r F.HIF_DMA_IDX.CPL_TAIL + 65536 - head) % 65536 then s.setFld r F.HIF_DMA_IDX.CPL_HEAD v.toNat else s
    if bits v.toNat F.HIF_DMA_IDX.ARM.hi F.HIF_DMA_IDX.ARM.lo = 1 then
      let ch := mget {} s.hif.chans c
      { s with hif := { s.hif with chans := mset {} s.hif.chans c { ch with armed := true } } }
    else s)

/-- The oldest outstanding transfer of channel `c` completes: its completion is written when the ring has room (R396). -/
def dmaCompletion (c : Nat) (s : State) : State :=
  let ch := mget {} s.hif.chans c
  match ch.waiting with
  | [] => s
  | x :: rest =>
    if !(s.cplRoom c) || s.flag (Reg.HIF_DMA_STAT c) F.HIF_DMA_STAT.PAUSED then s
    else ({ s with hif := { s.hif with chans := mset {} s.hif.chans c { ch with waiting := rest } } }.writeCpl c x).syncChan c

/-- A transfer of channel `c` meets error 3, 4 or 5 of Table HOST-6 (R399). -/
def dmaError (c code : Nat) (s : State) : State :=
  if 16 ≤ c || !(s.flag (Reg.HIF_DMA_CFG c) F.HIF_DMA_CFG.EN) || !([3, 4, 5].contains code) || s.descsPosted c == 0 then s
  else s.descFail c code

/-- The processor copy of packet `id` with `reason` is written to its channel's next buffer, `desc` being the descriptor
(R141, R397): its manifest and then the frame, cut at LEN. -/
def procCopyDma (id reason : Nat) (desc : Bytes) (s : State) : State :=
  match mfind s.pkts id with
  | none => s
  | some p =>
    let r := Reg.FWD_REASON reason
    let c := s.fld r F.FWD_REASON.HOST_CHANNEL
    if !(p.cpu.any (fun x => x.reason == reason && !x.keeper)) || !p.ended || p.stage != .stored
        || s.flag (Reg.HIF_DMA_STAT c) F.HIF_DMA_STAT.PAUSED then s
    else if !(s.chanOn c 1) || s.descsPosted c == 0 then (s.count (Ctr.HIF_CPY_NODESC c)).endCpu id reason
    else if !(s.dmaMay c 1) then
      let (x, s) := s.takeFree 192
      let idx := s.fld (Reg.HIF_DMA_IDX c) F.HIF_DMA_IDX.DESC_HEAD
      ((s.complete c (le 24 x ++ le 2 idx ++ le 1 2 ++ zeros 5)).dmaDenied c).endCpu id reason
    else if !(descOk 1 desc) then (s.descFail c 6).endCpu id reason
    else
      let len := leAt desc 8 4
      let data := (sub p.manifest 0 64 ++ p.bytes).take len
      let cut := decide (len < 64 + p.bytes.length)
      let idx := s.fld (Reg.HIF_DMA_IDX c) F.HIF_DMA_IDX.DESC_HEAD
      let s := ((s.emit (.hostWrite (s.chanFn c) (leAt desc 0 8) data)).takeDesc c).count (Ctr.HIF_DMA_BYTES c) data.length
      let s := s.complete c (cplBytes p.stamp p.tq p.ub p.ver p.inPort reason (b2n cut) data.length idx 1)
      (s.count (Ctr.FWD_CPU (keySetOf p))).endCpu id reason

/-- A USE 2 descriptor's frame is read from the host and queued toward its port (R398): `frame` is what the read returns. In
ferry mode it is dropped (Table FLT-4). -/
def frameInject (c : Nat) (desc frame : Bytes) (s : State) : State :=
  if 16 ≤ c || !(s.chanOn c 2) || s.descsPosted c == 0 then s
  else if !(s.dmaMay c 0) then
    let (x, s) := s.takeFree 192
    let idx := s.fld (Reg.HIF_DMA_IDX c) F.HIF_DMA_IDX.DESC_HEAD
    (s.complete c (le 24 x ++ le 2 idx ++ le 1 2 ++ zeros 5)).dmaDenied c
  else if !(descOk 2 desc) then s.descFail c 6
  else
    let len := leAt desc 8 4
    let port := leAt desc 12 2
    let cls := byteAt desc 14
    let body := sub frame 0 len
    let ver := s.fld Reg.VER_STATE F.VER_STATE.CURRENT
    let idx := s.fld (Reg.HIF_DMA_IDX c) F.HIF_DMA_IDX.DESC_HEAD
    let s := (s.takeDesc c).count (Ctr.HIF_DMA_BYTES c) len
    let s := s.complete c (cplBytes s.now s.tq s.ubBase ver 0x3FF 0 0 len idx 1)
    if s.inFerry || s.towPort port || !(s.portExists port) then s.count (Ctr.HIF_INJECT_DROP c)
    else
      let id := s.nextPkt
      let p : Packet := { port := port, stamp := s.now, tq := s.tq, ub := s.ubBase, ver := ver, stage := .accept, bytes := withFcs body false,
                          ended := true, kind := 1, cls := cls, clsKnown := true, outPort := port, inPort := 0x3FF, system := s.sysId,
                          rot := s.rotOf s.now, bypassed := true, witnessed := true, rel := s.nextRel }
      ({ s with nextPkt := id + 1, nextRel := s.nextRel + 1 }).setPkt id p

/-! ## The commands: event queues -/

/-- The writer of queue `q` claims the earliest pending request, or finds it withdrawn (R404, R405); a full staging gives its first
record to a ring that has room before (R406). With `parity` its staging
word fails parity: it is raised, and its record counted as lost (R436). -/
def evqClaim (q : Nat) (parity : Bool) (s : State) : State :=
  let msgs : List (EvReq × Bool) := (s.hif.msgs.filter (fun m => s.route m.src m.payload == some q)).map (fun m => (m, true))
  let conds : List (EvReq × Bool) := s.hif.conds.filterMap (fun e =>
    if e.2.phase == .pending && s.route e.1 e.2.payload == some q then some (⟨e.1, e.2.payload, e.2.time⟩, false) else none)
  let before (a b : EvReq) : Bool := decide (a.time < b.time) || (a.time == b.time && decide (a.src < b.src))
  let pick := (msgs ++ conds).foldl (fun (x : Option (EvReq × Bool)) y => match x with
    | none => some y
    | some z => if before y.1 z.1 then some y else some z) none
  match pick with
  | none => s
  | some (m, msg) =>
  let s := if !parity && (s.evq q).staging.length == 64 && s.queueOn q && !(s.queueAsleep q) then s.writeRecord q else s
  if parity then
    let s := if msg then { s with hif := { s.hif with msgs := s.hif.msgs.erase m } }
      else { s with hif := { s.hif with conds := mdel s.hif.conds m.src } }
    let (s, first) := s.loseEvent q m.time
    (if first then s.raise Src.EVQ_OVERFLOW_SEEN q else s).raise Src.SCP_FIFO_PAR (1 + 4 * (m.src / 64))
  else if msg then
    ({ s with hif := { s.hif with msgs := s.hif.msgs.erase m } }.stageRecord q ⟨m.src, m.payload, m.time⟩).1
  else
    match mfind s.hif.conds m.src with
    | none => s
    | some c =>
      if c.withdrawn then
        let s := { s with hif := { s.hif with conds := mdel s.hif.conds m.src } }
        ((s.stageRecord q ⟨Src.SPURIOUS, m.src, c.time⟩).1).count (Ctr.EVQ_SPURIOUS q)
      else
        let (s, kept) := s.stageRecord q ⟨m.src, c.payload, c.time⟩
        if kept then { s with hif := { s.hif with conds := mput s.hif.conds m.src { c with phase := .active } } }
        else { s with hif := { s.hif with conds := mdel s.hif.conds m.src } }

/-- The next claimed record of queue `q` is written to its ring (R406, R407): not while its function is in D3hot (R409). -/
def evqRecordWrite (q : Nat) (s : State) : State :=
  if 128 ≤ q || !(s.queueOn q) || s.queueAsleep q then s else s.writeRecord q

/-- A write of EVQ_IDX(q) (R408, Table HOST-19): HEAD, unless behind or beyond, and ARM. Keeper firmware writes those of its
own core's queue, the host those of the others. -/
def evqArm (by_ : Agent) (q : Nat) (v : Word64) (s : State) : State :=
  let r := Reg.EVQ_IDX q
  let mine := match by_ with
    | .keeper k => q == k
    | _ => decide (4 ≤ q)
  if 128 ≤ q then s else
  s.accept by_ r (fun s =>
    if !mine then s else
    let d := (v.toNat % 2 ^ 20 + 2 ^ 20 - s.evqHead q) % 2 ^ 20
    let s := if d ≤ s.evqLevel q then s.setFld r F.EVQ_IDX.HEAD v.toNat else s
    if bits v.toNat F.EVQ_IDX.ARM.hi F.EVQ_IDX.ARM.lo = 1 then s.setFld (Reg.EVQ_STAT q) F.EVQ_STAT.ARMED 1 else s)

/-- A write of EVQ_CFG(q) with EN 1 (R411). -/
def evqEnable (by_ : Agent) (q : Nat) (v : Word64) (s : State) : State :=
  if 128 ≤ q ∨ q < 4 then s else
  let r := Reg.EVQ_CFG q
  s.accept by_ r (fun s =>
    let t := s.writeFields by_ r (putBits v.toNat 63 63 1)
    let fn := t.fld r F.EVQ_CFG.FUNC
    let vec := t.fld r F.EVQ_CFG.VECTOR
    let n := t.fld (Reg.EVQ_BASE q) F.EVQ_BASE.SIZE_LOG2
    if (if fn < 2 then decide (128 ≤ vec) else decide (4 ≤ vec)) || !(decide (6 ≤ n ∧ n ≤ 16)) || !(s.fnOn fn) then
      s.raise Src.EVQ_CFG_REJECT q
    else t)

/-- The moderation interval of queue `q` has passed and an interrupt is owed (R408): it is sent, or, in D3hot, a PME (R409). -/
def msixSend (q : Nat) (s : State) : State :=
  let due := isDue ((s.evq q).lastMsix) (s.fld (Reg.EVQ_CFG q) F.EVQ_CFG.MOD_US * microsecond) s.now
  if 128 ≤ q || !(s.evqOwed q) || !due || !(s.queueOn q) then s
  else
    match s.queueFn q with
    | some fn =>
      if (s.fnSt fn).d3hot then
        if (s.fnSt fn).pmeEn && !(s.evq q).pmeSent then
          ((s.onEvq q (fun e => { e with pmeSent := true })).emit (.pme fn)).count (Ctr.EVQ_PME q)
        else s
      else s.sendMsix q
    | none => s.sendMsix q

/-- Keeper core `k` completes the interrupt it serves, where `done` says so, and takes its highest pending one (R410): while a handler
runs every interrupt waits (R118), one that is pending at the exit is entered at once (R119), and a request withdrawn before the
claim yields 0xFFF (R120). -/
def keeperInterrupt (k : Nat) (done : Bool) (s : State) : State :=
  if 4 ≤ k then s else
  let c := mget {} s.kpr k
  if c.serving.isSome && !done then s
  else
    let live (p : Nat) : Bool :=
      if p = 0 then (List.range 1536).any (fun n => s.sticky n && bitOf (s.react n) 1 && s.fld (Reg.FLT_SRC_CFG n) F.FLT_SRC_CFG.KCORE == k)
      else if p = 2 then decide (s.evqLevel k ≠ 0)
      else true
    match c.pending with
    | [] => { s with kpr := mset {} s.kpr k { c with serving := none } }
    | x :: rest =>
      let p := rest.foldl min x
      let c := { c with pending := c.pending.erase p, serving := some (if live p then p else Src.SPURIOUS), enteredAt := s.tim.cycles }
      { s with kpr := mset {} s.kpr k c }

end Sys2Proof.Machine
end

