-- ==== Sys2Proof/Machine/Faults.lean ====
section
/-! DEFINITION. Fault sources and their reactions, the lantern, ferry mode, the test access port and keeper cores (chapter
"Faults, Ferry Mode and Ageing", R444 to R459 and R464). -/
namespace Sys2Proof.Machine
namespace State

/-! ## Ferry mode (R452 to R458) -/

/-- The exits within the last 3,600 s (R457). -/
def recentExits (s : State) : List Stamp := s.flt.ferry.exits.filter (fun t => decide (s.now ≤ t + 3600 * second))

/-- The quiet period: values outside 1 to 3,600 s taken as the nearer limit (Table FLT-12). -/
def quietSpan (s : State) : Stamp := clamp 1 3600 (s.fld Reg.FLT_FERRY_CFG F.FLT_FERRY_CFG.QUIET_S) * second

/-- The ferry state changed. -/
def onFerry (s : State) (f : FerrySt → FerrySt) : State := { s with flt := { s.flt with ferry := f s.flt.ferry } }

/-- A DEGRADE control event (Table FLT-5). -/
def degradeEvent (s : State) (ev src : Nat) : State :=
  let f := s.flt.ferry
  s.controlNow 0x0B (le 1 ev ++ zeros 1 ++ le 2 src ++ le 4 (s.fld Reg.FLT_FERRY_STAT F.FLT_FERRY_STAT.EXITS)
    ++ le 1 s.recentExits.length ++ zeros 3 ++ le 12 (d96 f.f)
    ++ le 8 (if ev = 1 ∨ ev = 3 then f.flushed else f.forwarded) ++ le 8 f.dropped)

/-- The event is witnessed, and raised where it concerns ferry mode (R458). -/
def ferryEvent (s : State) (ev src : Nat) : State := (s.degradeEvent ev src).raise Src.FLT_FERRY (ev + 8 * src)

/-- FLT_FERRY_MAP as read at F: the ports whose entry is not 0 (R455). -/
def readMap (s : State) : SMap Nat :=
  (List.range 514).filterMap (fun p => let v := s.rd (Reg.FLT_FERRY_MAP p); if v = 0 then none else some (p, v))

/-- A frame flushed at F, counted for `slice` (R453). -/
def flushOne (slice : Nat) (s : State) : State :=
  (s.count (Ctr.FLT_FERRY_FLUSH slice)).onFerry (fun f => { f with flushed := f.flushed + 1 })

/-- The device enters ferry mode at this instant because of source `n` (R453). -/
def enterFerry (s : State) (n : Nat) : State :=
  let bs := (10 :: (List.range 16).map (16 + ·)).filter s.ready
  let s := s.onFerry (fun f => { f with
    f := s.now, version := s.currentV, map := s.readMap, lastDeg := s.now, lastSrc := n, degSrcs := [n], flushed := 0, forwarded := 0,
    dropped := 0, bits := bs ++ f.bits.filter (fun b => !(f.restore.isEmpty) && !(bs.contains b)), restore := [] })
  let s := (s.setFld Reg.FLT_STATUS F.FLT_STATUS.FERRY 1).setFld Reg.FLT_FERRY_STAT F.FLT_FERRY_STAT.CAUSE n
  let s := s.releaseLocks
  let s := s.dropEarly beforeLookup (fun p s => flushOne (sliceOf p.port) s)
  let s := (s.flushDecided flushOne).flushStored true flushOne
  let s := bs.foldl (fun s b => s.setReady b false) s
  let s := if s.towSt = 0 then s else s.leaveSystem
  s.ferryEvent 1 n

/-- A further assertion of DEG in ferry mode restarts the quiet period (R452). -/
def extendFerry (s : State) (n : Nat) : State :=
  s.onFerry (fun f => { f with lastDeg := s.now, lastSrc := n,
                               degSrcs := if f.degSrcs.contains n then f.degSrcs else f.degSrcs ++ [n] })

/-- The bits cleared at F set again once every reset of the exit has completed (R458). -/
def ferryRestore (s : State) : State :=
  if s.inFerry || !s.flt.ferry.restore.isEmpty then s
  else
    let bs := s.flt.ferry.bits
    let s := s.onFerry (fun f => { f with bits := [] })
    bs.foldl (fun s b => s.setReady b true) s

/-- The device leaves ferry mode at X with event `ev` (R458). -/
def leaveFerry (s : State) (ev : Nat) : State :=
  let st := Reg.FLT_FERRY_STAT
  let src := s.flt.ferry.lastSrc
  let blocks := ((s.flt.ferry.degSrcs.map (· / 64)).eraseDups).filter (fun b => b != 0 && b != 16 && decide (b < 23))
  let s := s.setFld Reg.FLT_STATUS F.FLT_STATUS.FERRY 0
  let s := s.setFld st F.FLT_FERRY_STAT.EXITS (s.fld st F.FLT_FERRY_STAT.EXITS + 1)
  let s := s.onFerry (fun f => { f with exits := if ev = 4 then [] else s.recentExits ++ [s.now], restore := blocks, degSrcs := [] })
  let s := blocks.foldl (fun s b => s.blockReset b) s
  let s := { s with egr := { s.egr with lockSince := s.now } }
  let s := (List.range 514).foldl enterRecovery s
  (s.ferryEvent ev src).ferryRestore

/-! ## Reactions that are due (R445) -/

/-- One reaction is performed. -/
def react1 (s : State) : Reaction → State
  | .degrade n => if s.inFerry then s.extendFerry n else s.enterFerry n
  | .blockReset n => s.blockReset (n / 64)

/-- The reactions due, in the order of their assertions; those that these cause in turn follow. -/
def reactions : Nat → State → State
  | 0, s => s
  | k + 1, s =>
    match s.flt.due with
    | [] => s
    | r :: rest => reactions k ({ s with flt := { s.flt with due := rest } }.react1 r)

end State

open State

/-! ## The commands: assertions -/

/-- Source `n` asserts with `payload` (R444, R445): a condition outside this model's other commands, such as a parity error. -/
def sourceAssert (n payload : Nat) (s : State) : State := if 1536 ≤ n then s else s.raise n payload

/-- 20 µs after an assertion with CHIP the chip resets (R445, R383): the source is kept in FLT_LAST_CHIP. -/
def chipReaction (s : State) : State :=
  match s.flt.chipDue with
  | none => s
  | some (n, t) =>
    if s.now < t + 20 * microsecond then s
    else
      let r := Reg.FLT_LAST_CHIP
      let s := (s.setFld r F.FLT_LAST_CHIP.VALID 1).setFld r F.FLT_LAST_CHIP.SOURCE n
      let s := if n = Src.FLT_PLL_LOSS then s.setFld Reg.CFG_RESET_CAUSE F.CFG_RESET_CAUSE.PLL 1 else s
      s.chipReset F.CFG_RESET_CAUSE.FAULT

/-- QUIET_MS have passed without an assertion of source `n`, and it leaves its fault state (R446); a broken pair holds it
there (R448). -/
def faultQuietExpiry (n : Nat) (s : State) : State :=
  let f := mget {} s.flt.faults n
  if 1536 ≤ n || !(s.inFault n) || f.broken || decide (s.now < f.last + s.fld (Reg.FLT_SRC_CFG n) F.FLT_SRC_CFG.QUIET_MS * millisecond) then s
  else
    let s := s.putBit (Reg.FLT_INFAULT (n / 64)) (n % 64) false
    ({ s with flt := { s.flt with faults := mdel s.flt.faults n } }).count (Ctr.FLT_RECOVERIES n)

/-- A write to FLT_STICKY(j): each bit written 1 is cleared, and a request still pending for it is withdrawn (R446, R405).
PMC_SAMPLE, whose condition stands while the sample ring is not empty, asserts again (R478). -/
def stickyClear (by_ : Agent) (j : Nat) (v : Word64) (s : State) : State :=
  if 24 ≤ j then s else
  s.accept by_ (Reg.FLT_STICKY j) (fun s =>
    let own := Src.PMC_SAMPLE
    let again := own / 64 == j && bitOf v.toNat (own % 64) && s.sticky own && s.samplesHeld != 0
    let s := ((List.range 64).filter (fun i => bitOf v.toNat i && s.sticky (64 * j + i))).foldl (fun s i => s.clearSticky (64 * j + i)) s
    if again then s.raise own (s.fld Reg.PMC_SAMPLE_IDX F.PMC_SAMPLE_IDX.TAIL) else s)

/-- The wire pair of source `n` carries equal levels on two consecutive samples and is broken (R448). The payload of the
source's own record is not stated. -/
def pairBreak (n : Nat) (s : State) : State :=
  let f := mget {} s.flt.faults n
  if 1536 ≤ n || f.broken then s
  else
    let s := { s with flt := { s.flt with faults := mput s.flt.faults n { f with broken := true } } }
    let s := s.raise Src.FLT_PAIR_BREAK n
    let (x, s) := s.takeFree 32
    match s.assertSrc n x s.now with
    | (s, none) => s
    | (s, some q) => s.raise Src.EVQ_OVERFLOW_SEEN q

/-- FLT_INJECT (R451): in factory test mode GO asserts SOURCE, with a payload that is not stated; at any other time the
write is ignored. -/
def fltInject (by_ : Agent) (v : Word64) (s : State) : State :=
  let r := Reg.FLT_INJECT
  s.accept by_ r (fun s =>
    if !s.boot.factoryTest then s
    else
      let go := s.acts by_ r F.FLT_INJECT.GO v.toNat
      let s := s.writeFields by_ r v.toNat
      let n := s.fld r F.FLT_INJECT.SOURCE
      if go && decide (n < 1536) then
        let (x, s) := s.takeFree 32
        s.raise n x
      else s)

/-! ## The commands: lantern, test access port -/

/-- The lantern's balls read back as `p` and `n`; a level that is not the one driven is a mismatch (R449). -/
def lanternMismatch (p n : Bool) (s : State) : State :=
  let f := s.lanternFault
  if p = f ∧ n = !f then s
  else (s.setFld Reg.FLT_STATUS F.FLT_STATUS.LANTERN_MISMATCH 1).raise Src.FLT_LANTERN_MISMATCH (b2n p + 2 * b2n n)

/-- A Warden write of 1 to FLT_CTL.LANTERN_TEST (R450). -/
def lanternTest (by_ : Agent) (v : Word64) (s : State) : State :=
  let r := Reg.FLT_CTL
  s.accept by_ r (fun s =>
    let go := s.acts by_ r F.FLT_CTL.LANTERN_TEST v.toNat
    let s := s.writeFields by_ r v.toNat
    if go then { s with flt := { s.flt with testUntil := some (s.now + 100 * millisecond) } } else s)

/-- The 100 ms of the lantern test have passed (R450). -/
def lanternTestEnd (s : State) : State :=
  match s.flt.testUntil with
  | some t => if t ≤ s.now then { s with flt := { s.flt with testUntil := none } } else s
  | none => s

/-- Factory test mode is entered with a signed unlock, `unlock` saying whether its signature holds, or left (R451). -/
def factoryTestEntry (enter unlock : Bool) (s : State) : State :=
  if enter = s.boot.factoryTest || (enter && (!unlock || s.flag Reg.SEC_STATUS F.SEC_STATUS.APPROVED)) then s
  else
    let s := { s with boot := { s.boot with factoryTest := enter } }
    let s := s.setFld Reg.FLT_STATUS F.FLT_STATUS.FACTORY_TEST (b2n enter)
    let s := s.degradeEvent (if enter then 5 else 6) s.flt.ferry.lastSrc
    (List.range 514).foldl (fun s p => s.svcCheck p) s

/-- An instruction is loaded into the test access port (R494): those that take control of pins act only while RESET_N is
low, and as BYPASS at any other time. -/
def jtagInstruction (i : TapInstr) (s : State) : State :=
  let pins := match i with
    | .bypass => false
    | .other _ => false
    | _ => true
  { s with boot := { s.boot with tap := if pins && s.pins.resetN then .bypass else i } }

/-! ## The commands: ferry mode -/

/-- A write of FLT_FERRY_CTL (R505): by the Warden, RELEASE ends ferry mode at once (R457) and ENTER asserts FLT_FERRY_REQ
(R452), RELEASE first where a write holds both (log entry 36). -/
def State.ferryCtl (by_ : Agent) (v : Word64) (s : State) : State :=
  let r := Reg.FLT_FERRY_CTL
  s.accept by_ r (fun s =>
    let release := s.acts by_ r F.FLT_FERRY_CTL.RELEASE v.toNat
    let enter := s.acts by_ r F.FLT_FERRY_CTL.ENTER v.toNat
    let s := s.writeFields by_ r v.toNat
    let s := if release && s.inFerry then s.leaveFerry 4 else s
    if enter then s.raise Src.FLT_FERRY_REQ else s)

/-- A Warden write of FLT_FERRY_CTL.ENTER asserts FLT_FERRY_REQ (R452). -/
def ferryEnterRequest (by_ : Agent) (v : Word64) (s : State) : State := State.ferryCtl by_ v s

/-- A Warden write of FLT_FERRY_CTL.RELEASE ends ferry mode at once (R457). -/
def ferryRelease (by_ : Agent) (v : Word64) (s : State) : State := State.ferryCtl by_ v s

/-- QUIET_S seconds have passed with no DEG assertion (R457): the device leaves ferry mode, or is held where MAX_PER_HOUR
exits lie in the hour before. -/
def ferryQuietExpiry (s : State) : State :=
  let c := Reg.FLT_FERRY_CFG
  if s.fld Reg.FLT_STATUS F.FLT_STATUS.FERRY ≠ 1 ∨ s.now < s.flt.ferry.lastDeg + s.quietSpan ∨ !(s.flag c F.FLT_FERRY_CFG.AUTO_EXIT) then s
  else if s.recentExits.length < s.fld c F.FLT_FERRY_CFG.MAX_PER_HOUR then s.leaveFerry 2
  else (s.setFld Reg.FLT_STATUS F.FLT_STATUS.FERRY 2).ferryEvent 3 s.flt.ferry.lastSrc

/-- A whole frame received in ferry mode, stamped as any other (R56, R454): by its port's entry in the map it is stored for
its egress port, unchanged, or dropped (R455). A frame in error or outside 64 bytes to the MTU does not take the path (R82). -/
def ferryPath (port lane d : Nat) (phi : Int) (n : Nat) (bytes : Bytes) (err : Bool) (s : State) : State :=
  if !s.inFerry || !(s.portExists port) || s.portOfLane lane != port || !(s.linkUp port) || s.portHalted port || (s.portSt port).stopping || s.deaf port then s
  else if s.exportPort port || s.towPort port then s.count (Ctr.PRT_RX_DISCARD port)
  else
    let f := s.flt.ferry
    let t := s.rxStamp port lane d phi n
    let sl := parseSlice port
    let (bytes, s) := s.received port bytes
    let l := bytes.length
    let e := mget 0 f.map port
    let out := bits e F.FLT_FERRY_MAP.EGRESS.hi F.FLT_FERRY_MAP.EGRESS.lo
    let fcsBad := err || bytes.drop (l - 4) != fcs (bytes.take (l - 4))
    let long := decide (s.cfgAtFld (Reg.PRT_CFG port) F.PRT_CFG.MTU f.version t < l)
    let bad := fcsBad || long || decide (l < 64)
    let s := if l < 64 then s.count (Ctr.PRT_RX_RUNT port) else s
    let s := if long then s.count (Ctr.PRT_RX_OVERSIZE port) else s
    let s := if fcsBad then s.count (Ctr.PRT_RX_ERR port) else s
    let id := s.nextPkt
    let on := bitOf e F.FLT_FERRY_MAP.EN.lo && s.portExists out && !(s.towPort out) && !(s.exportPort out)
    let p : Packet := { port := port, lane := lane, stamp := t, tq := s.stampTq lane, ub := s.stampUb lane, ver := f.version, stage := .stored,
                        bytes := bytes, ended := true, bad := bad, depth := 64, kind := 1, cls := 0, clsKnown := true,
                        outPort := if bad then 0x3FF else out, inPort := port, system := s.sysId, rot := s.rotOf t, bypassed := true,
                        decided := true, ferry := true }
    let s := ({ s with nextPkt := id + 1 }).setPkt id p
    if bad then s.dropFrame id
    else
      let drop (s : State) : State :=
        ((s.count (Ctr.FLT_FERRY_DROP port)).onFerry (fun f => { f with dropped := f.dropped + 1 })).dropFrame id
      if !on || decide (16 ≤ ((s.egress out).staging.filter isFerry).length) || s.que.stopped then drop s
      else
        match s.takePtr sl 3 1 with
        | (none, s) => drop s
        | (some (ptr, tag), s) =>
          let s := s.setPkt id { p with buf := some ptr, pool := 3, tag := tag, refs := 1 }
          let s := (s.witnessIngress id).syncPool sl 3
          let k : Copy := { pkt := id, kind := .ferry (bitOf e F.FLT_FERRY_MAP.TRAILER.lo), port := out, cls := 0, queue := voq sl out 0, gran := 0,
                            system := p.system, bypassed := true, lsel := l + (if bitOf e F.FLT_FERRY_MAP.TRAILER.lo then 16 else 0) }
          if s.egressDown out then (s.count (Ctr.PRT_EGR_DOWN_DROP out)).dropCopy k false
          else s.onEgress out (fun x => { x with staging := s.insertCopy k x.staging })

/-! ## The commands: keeper cores (R464) -/

/-- A write to KPR_CMD_DATA(k), whose word may carry a poison tag: it enters the core's command FIFO, or is lost where that
holds 256 words (R464, R435). -/
def keeperCmdWrite (by_ : Agent) (k : Nat) (v : Word64) (poison : Bool) (s : State) : State :=
  if 4 ≤ k then s else
  s.accept by_ (Reg.KPR_CMD_DATA k) (fun s =>
    let st := Reg.KPR_CMD_STAT k
    let c := mget {} s.kpr k
    if 256 ≤ c.fifo.length then (s.setFld st F.KPR_CMD_STAT.OVERRUN 1).raise Src.KPR_CMD_OVERRUN k
    else
      let s := { s with kpr := mset {} s.kpr k { c with fifo := c.fifo ++ [(v, poison)] } }
      s.setFld st F.KPR_CMD_STAT.LEVEL (c.fifo.length + 1))

/-- Keeper firmware of core `k` has not written KPR_STATUS for TIMEOUT_MS (R464). -/
def kprWatchdog (k : Nat) (s : State) : State :=
  let c := mget {} s.kpr k
  let span := max 1 (s.fld Reg.KPR_WDOG_CFG F.KPR_WDOG_CFG.TIMEOUT_MS) * millisecond
  if 4 ≤ k || !(s.flag (Reg.KPR_STATUS k) F.KPR_STATUS.RUNNING) || decide (s.now < c.lastAlive + span) then s
  else
    let s := { s with kpr := mset {} s.kpr k { c with lastAlive := s.now } }
    ((s.setFld (Reg.KPR_STATUS k) F.KPR_STATUS.WDOG_FIRED 1).count (Ctr.KPR_WDOG_FIRES k)).raise Src.KPR_WATCHDOG k

/-- Keeper firmware of core `k` takes the oldest word of its command FIFO; a poisoned one raises the core's priority-1
interrupt as it is delivered (R464), and is raised (R436). -/
def State.keeperTake (s : State) (k : Nat) : State :=
  let c := mget {} s.kpr k
  match c.fifo with
  | [] => s
  | (_, poison) :: rest =>
    if !(s.flag (Reg.KPR_STATUS k) F.KPR_STATUS.RUNNING) then s
    else
      let s := { s with kpr := mset {} s.kpr k { c with fifo := rest } }
      let s := s.setFld (Reg.KPR_CMD_STAT k) F.KPR_CMD_STAT.LEVEL rest.length
      if poison then (s.kprPend k 1).raise Src.SCP_FIFO_PAR (3 + 4 * k) else s

end Sys2Proof.Machine
end

