-- ==== Sys2Proof/Machine/Ageing.lean ====
section
/-! DEFINITION. Wear, re-plans, core voltage and temperature (R460 to R463, R484). -/
namespace Sys2Proof.Machine
namespace State

/-- The wear d in ppm from the counts of the stressed and the unstressed oscillator, rounded to nearest (R460). -/
def wearPpm (cs cu : Nat) : Int := roundDivInt (((cu : Int) - (cs : Int)) * 1000000) cu

/-- One candle's reading (R460): accepted and published, or discarded with CND_MEAS_FAIL. -/
def candleRead (s : State) (i : Nat) (r : Nat × Nat × Nat × Nat) : State :=
  let (cs, cu, factory, temp) := r
  let d := wearPpm cs cu
  let off := (if cu < factory then factory - cu else cu - factory) * 100
  if cu = 0 ∨ 20 * factory < off ∨ d < -500 then s.raise Src.CND_MEAS_FAIL i
  else
    let reg := Reg.CND_CANDLE i
    let s := (s.setFld reg F.CND_CANDLE.TEMP_C temp).setFld reg F.CND_CANDLE.DEG_PPM (ofIntW 32 d)
    ({ s with cnd := { s.cnd with readings := mput s.cnd.readings i d } }).count (Ctr.CND_READINGS i)

/-- The values kept for the rise over the last 24 h: those of that time, and the last one before it (Table FLT-7, step 5). -/
def lastDay (now : Stamp) (xs : List (Stamp × Int)) : List (Stamp × Int) :=
  let old := xs.filter (fun x => decide (x.1 + 86400 * second ≤ now))
  old.drop (old.length - 1) ++ xs.filter (fun x => !(decide (x.1 + 86400 * second ≤ now)))

/-- The largest d_i of the last accepted readings, and its candle (Table FLT-7, step 1). -/
def worstWear (s : State) : Int × Nat :=
  match s.cnd.readings with
  | [] => (0, 0)
  | (i, d) :: rest => rest.foldl (fun (a : Int × Nat) e => if a.1 < e.2 then (e.2, e.1) else a) (d, i)

/-- V_target for a worst wear of `d` ppm, in 0.1 mV, at most 8,000 (Table FLT-7, step 2). -/
def voltageFor (s : State) (d : Int) : Nat :=
  min 8000 ((s.fld Reg.CND_PLAN F.CND_PLAN.V_FUSE : Int) + 25 * (-((-d) / 500))).toNat

/-- Step 3: the margin code of each lane of an enabled port whose eye is below the guarded minimum rises; with the number
of lanes whose code rose. -/
def raiseMargins (s : State) : Nat × State :=
  let lim := s.fld Reg.CND_EYE_CFG F.CND_EYE_CFG.EYE_MIN_MUI + s.fld Reg.CND_EYE_CFG F.CND_EYE_CFG.EYE_GUARD_MUI
  (List.range 512).foldl (fun (a : Nat × State) l =>
    let (n, s) := a
    let r := Reg.CND_MARGIN (l / 8)
    let f := F.CND_MARGIN.MARGIN (l % 8)
    if s.flag (Reg.PRT_CFG (s.portOfLane l)) F.PRT_CFG.EN && decide (s.fld (Reg.SER_STATUS l) F.SER_STATUS.EYE_H < lim)
        && decide (s.fld r f < 7) then (n + 1, s.setFld r f (s.fld r f + 1))
    else (n, s)) (0, s)

/-- A re-plan is due: asked for by the Warden or by CFG_READY.KEEPER setting, or REPLAN_H hours after the last (R461; values
of REPLAN_H outside 1 to 720 taken as the nearer limit). -/
def replanDue (s : State) : Bool :=
  s.cnd.asked || decide (s.cnd.planAt + clamp 1 720 (s.fld Reg.CND_CFG F.CND_CFG.REPLAN_H) * 3600 * second ≤ s.now)

end State

open State

/-! ## The commands -/

/-- Every MEAS_S seconds the candles and the path replicas are measured (R460): per candle the two counts, the factory count
of the unstressed oscillator and the junction temperature; per octet the replica's delay. Once a day d_max is kept.
The period is TIM_CAL_CFG.PERIOD_S where that is smaller (Table FLT-19). -/
def candleMeasure (readings : List (Nat × Nat × Nat × Nat)) (replicas : List Nat) (s : State) : State :=
  let span := min (s.fld Reg.CND_CFG F.CND_CFG.MEAS_S) (s.cfgFld Reg.TIM_CAL_CFG F.TIM_CAL_CFG.PERIOD_S) * second
  if !(isDue s.cnd.measAt span s.now) then s else
  let s := { s with cnd := { s.cnd with measAt := some s.now } }
  let s := ((readings.take 96).zipIdx).foldl (fun s e => s.candleRead e.2 e.1) s
  let s := ((replicas.take 64).zipIdx).foldl (fun s e => s.setFld (Reg.CND_REPLICA e.2) F.CND_REPLICA.DELAY e.1) s
  let s := if s.cnd.readings.isEmpty then s
    else { s with cnd := { s.cnd with wear := lastDay s.now s.cnd.wear ++ [(s.now, s.worstWear.1)] } }
  if s.cnd.dayAt + 86400 * second ≤ s.now && !s.cnd.readings.isEmpty then
    { s with cnd := { s.cnd with daily := s.cnd.daily ++ [s.worstWear.1.toNat], dayAt := s.now } }
  else s

/-- The eye of lane `l` of an enabled port has been scanned, its horizontal opening being `mui`; each lane is scanned every
EYE_S seconds (R460; values outside 60 to 65,535 s taken as the nearer limit). -/
def eyeScan (l mui : Nat) (s : State) : State :=
  let span := clamp 60 65535 (s.fld Reg.CND_CFG F.CND_CFG.EYE_S) * second
  if 514 ≤ l || !(s.flag (Reg.PRT_CFG (s.portOfLane l)) F.PRT_CFG.EN) || !(isDue (mfind s.cnd.eyeAt l) span s.now) then s
  else
    let s := { s with cnd := { s.cnd with eyeAt := mput s.cnd.eyeAt l s.now } }
    let s := s.setFld (Reg.SER_STATUS l) F.SER_STATUS.EYE_H mui
    if mui < s.fld Reg.CND_EYE_CFG F.CND_EYE_CFG.EYE_MIN_MUI then s.raise Src.SER_EYE_LOW l else s

/-- Keeper firmware re-plans (R461, R462, Tables FLT-7 and FLT-8): `remain` and `remain95` are what its fit of the daily
values gives, which the fused constants decide. -/
def replan (remain remain95 : Nat) (s : State) : State :=
  if !(s.ready 5) || !s.replanDue then s
  else
    let r := Reg.CND_PLAN
    let (d, candle) := s.worstWear
    let old := s.fld r F.CND_PLAN.V_TARGET
    let new := max old (s.voltageFor d)
    let s := if new = 8000 ∧ s.cnd.avsEnd ≠ 8000 then s.raise Src.CND_VMAX (d.toNat / 16 % 65536) else s
    let (lanes, s) := s.raiseMargins
    let rise : Nat := (d - (((lastDay s.now s.cnd.wear).head?.map (·.2)).getD d)).toNat
    let age := min 150 (20 + rise / 100)
    let known := decide (7 ≤ s.cnd.daily.length)
    let rem := if known then remain % 2 ^ 32 else 0xFFFFFFFF
    let rem95 := if known then remain95 % 2 ^ 32 else 0xFFFFFFFF
    let s := (s.setFld Reg.CND_LIFE F.CND_LIFE.REMAIN_H rem).setFld Reg.CND_LIFE F.CND_LIFE.REMAIN_95_H rem95
    let s := if known && decide (rem95 < 1000 * s.fld Reg.CND_EYE_CFG F.CND_EYE_CFG.LIFE_WARN_KH) then s.raise Src.CND_LIFE_LOW rem95 else s
    let seq := (s.fld r F.CND_PLAN.SEQ + 1) % 65536
    let s := (s.setFld r F.CND_PLAN.SEQ seq).setFld r F.CND_PLAN.AGE_PS age
    let s := { s with cnd := { s.cnd with avsEnd := new, asked := false, planAt := s.now } }
    let s := s.controlNow 0x0C (le 4 seq ++ le 2 old ++ le 2 new ++ le 4 (ofIntW 32 d) ++ le 1 candle ++ le 1 lanes ++ le 2 age ++ le 4 rem
      ++ le 4 rem95)
    s.raise Src.CND_REPLAN seq

/-- A Warden write of CND_CTL.REPLAN (R461). -/
def replanRequest (by_ : Agent) (v : Word64) (s : State) : State :=
  let r := Reg.CND_CTL
  s.accept by_ r (fun s =>
    let go := s.acts by_ r F.CND_CTL.REPLAN v.toNat
    let s := s.writeFields by_ r v.toNat
    if go then { s with cnd := { s.cnd with asked := true } } else s)

/-- The next point of the voltage staircase is requested, or the last one again where it was not acknowledged (R484): 2.5 mV
nearer the target every 10 ms, rounded up to a whole millivolt, within 700 and 800 mV. `ack`: the regulator acknowledges. -/
def avsStep (ack : Bool) (s : State) : State :=
  let goal := s.cnd.avsEnd
  let p := s.cnd.avsPoint
  if !s.boot.running || !(isDue s.cnd.avsAt (10 * millisecond) s.now) || (p == goal && s.fld Reg.CND_PLAN F.CND_PLAN.V_TARGET == goal) then s
  else
    let next := if p < goal then min goal (p + 25) else max goal (p - 25)
    let s := (s.emit (.avs (clamp 700 800 (ceilDiv next 10))))
    let s := { s with cnd := { s.cnd with avsAt := some s.now, avsPoint := if ack then next else p } }
    if ack && next == goal then s.setFld Reg.CND_PLAN F.CND_PLAN.V_TARGET goal else s

/-- The die sensor of candle `i` reads `temp` °C: above 105 °C CND_TJ_HIGH is raised, and again after each further second
above it (R463). -/
def tjHigh (i temp : Nat) (s : State) : State :=
  if 96 ≤ i then s
  else if temp ≤ 105 then { s with cnd := { s.cnd with hot := mdel s.cnd.hot i } }
  else if isDue (mfind s.cnd.hot i) second s.now then
    let s := { s with cnd := { s.cnd with hot := mput s.cnd.hot i s.now } }
    s.raise Src.CND_TJ_HIGH (i + 256 * (temp % 256))
  else s

end Sys2Proof.Machine
end

