-- ==== Sys2Proof/Machine/Nvm.lean ====
section
/-! DEFINITION. The NVM as software reaches it (R368, R369, R384): reads, erases and programs, and the boot selector. -/
namespace Sys2Proof.Machine
namespace State

/-- The area of the NVM that the host cannot erase or program: the last 2 MiB of either slot (R368). -/
def nvmReserved (a n : Nat) : Bool :=
  let touches (lo hi : Nat) : Bool := decide (a < hi ∧ lo < a + n)
  touches 0x07E00000 0x08000000 || touches 0x0FE00000 0x10000000

/-- What is wrong with operation `op` on `n` bytes at NVM address `a`, as a STATUS of Table BOOT-14; 0 where nothing is. An
access outside the NVM, a length of 0 and one that is not made of whole units are RANGE (Table BOOT-15). -/
def nvmRefusal (s : State) (op a n : Nat) : Nat :=
  let unit := if op = 2 then 65536 else if op = 3 then 256 else 1
  if !([1, 2, 3].contains op) then 3
  else if s.boot.loading then 2
  else if n = 0 ∨ 2 ^ 28 < a + n ∨ n % unit ≠ 0 ∨ a % unit ≠ 0 ∨ (op = 3 ∧ n ≠ 256) then 3
  else if op ≠ 1 && nvmReserved a n then 2
  else 0

/-- An NVM operation completes with `status` (R384). -/
def nvmEnd (s : State) (status : Nat) : State :=
  let r := Reg.CFG_NVM_CTL
  let s := { s with boot := { s.boot with nvmOp := none } }
  ((s.setFld r F.CFG_NVM_CTL.BUSY 0).setFld r F.CFG_NVM_CTL.STATUS status).raise Src.CFG_NVM_DONE status

/-- A write of `v` to CFG_NVM_CMD with operation `op`: ignored while an operation runs. -/
def nvmCmd (s : State) (by_ : Agent) (v : Nat) (op : Nat) : State :=
  let r := Reg.CFG_NVM_CMD
  let v := putBits v 2 0 op
  s.accept by_ r (fun s =>
    if s.flag Reg.CFG_NVM_CTL F.CFG_NVM_CTL.BUSY then s
    else
      let go := s.isWarden by_
      let s := s.writeFields by_ r v
      if !go then s
      else
        let a := s.fld Reg.CFG_NVM_ADDR F.CFG_NVM_ADDR.ADDR
        let n := s.fld r F.CFG_NVM_CMD.LENGTH
        let bad := s.nvmRefusal op a n
        if bad ≠ 0 then s.nvmEnd bad
        else
          ({ s with boot := { s.boot with nvmOp := some (op, a, s.fld Reg.CFG_NVM_HOST F.CFG_NVM_HOST.ADDR, n) } }.setFld
            Reg.CFG_NVM_CTL F.CFG_NVM_CTL.BUSY 1).setFld Reg.CFG_NVM_CTL F.CFG_NVM_CTL.STATUS 0)

end State

open State

/-- Operation 1 of CFG_NVM_CMD: NVM bytes to PF0 host memory (R384). -/
def nvmRead (by_ : Agent) (v : Word64) (s : State) : State := s.nvmCmd by_ v.toNat 1

/-- Operation 2: an erase in units of 64 KiB (R384). -/
def nvmErase (by_ : Agent) (v : Word64) (s : State) : State := s.nvmCmd by_ v.toNat 2

/-- Operation 3: a program of one page group from PF0 host memory (R384). -/
def nvmProgram (by_ : Agent) (v : Word64) (s : State) : State := s.nvmCmd by_ v.toNat 3

/-- Any other operation completes with RANGE (R384, Table BOOT-15). -/
def nvmCmdInvalid (by_ : Agent) (v : Word64) (s : State) : State :=
  let op := v.toNat % 8
  if 1 ≤ op ∧ op ≤ 3 then s else s.nvmCmd by_ v.toNat op

/-- The running NVM operation ends with `status` 1, 4 or 5 and the bytes that were moved: read from the NVM, or from host
memory for a program (R384). -/
def nvmOpDone (status : Nat) (data : Bytes) (s : State) : State :=
  match s.boot.nvmOp with
  | none => s
  | some (op, a, host, n) =>
    if !([1, 4, 5].contains status) then s
    else
      let s := if status ≠ 1 then s
        else if op = 1 then s.emit (.hostWrite 0 host (sub data 0 n))
        else if op = 2 then s.emit (.nvm 2 a (le 4 n))
        else s.emit (.nvm 3 a (sub data 0 n))
      s.nvmEnd status

/-- A write of PREF or TRY_OTHER stores them in the boot selector (R369, Table BOOT-14). -/
def bootSelectorWrite (by_ : Agent) (v : Word64) (s : State) : State :=
  let r := Reg.CFG_NVM_CTL
  s.accept by_ r (fun s =>
    let may := s.isWarden by_
    let s := s.writeFields by_ r v.toNat
    if may then s.emit (.nvm 4 0 [BitVec.ofNat 8 (s.rd r % 8)]) else s)

end Sys2Proof.Machine
end

