-- ==== Sys2Proof/Machine/Route.lean ====
section
/-! DEFINITION. A write of a 64-bit value to any register of BAR0 (R499, R505): to the effect of its own row of the command
table, or field by field. The image loader writes through the same door (R374), and so does REGISTER_WRITE. -/
namespace Sys2Proof.Machine
namespace State

/-- The bits of a field in a written value. -/
def inField (v : Word64) (f : Fld) : Nat := bits v.toNat f.hi f.lo

/-- Block CFG. -/
def routeCfg (by_ : Agent) (off : Nat) (v : Word64) (s : State) : State :=
  if off = Reg.CFG_RESET then
    if inField v F.CFG_RESET.CHIP = 1 then chipResetWrite by_ v s else blockResetWrite by_ v s
  else if off = Reg.CFG_NVM_CTL then bootSelectorWrite by_ v s
  else if off = Reg.CFG_NVM_CMD then
    let op := inField v F.CFG_NVM_CMD.OP
    if op = 1 then nvmRead by_ v s else if op = 2 then nvmErase by_ v s else if op = 3 then nvmProgram by_ v s
    else nvmCmdInvalid by_ v s
  else s.writeThen by_ off v.toNat id

/-- A write of SEC_OP (Table SEC-4). -/
def routeSecOp (by_ : Agent) (v : Word64) (s : State) : State :=
  let op := inField v F.SEC_OP.OP
  let arg := inField v F.SEC_OP.ARG
  if op = 1 then nonceOp by_ arg s
  else if op = 2 then secOpen by_ arg s
  else if op = 3 then secClose by_ arg s
  else if op = 4 then ownerInstall by_ arg s
  else if op = 5 then ownerRelease by_ arg s
  else if op = 6 then ldevGen by_ arg s
  else if op = 7 then s.secOp by_ 7 arg true (fun s => s.startOp 7)
  else if op = 8 then selftestOp by_ arg s
  else if op = 9 then zeroise by_ arg s
  else if op = 10 then protCommitOp by_ arg s
  else secOpBadOp by_ op arg s

/-- Block SEC; SEC_OWNER_BUF reads 0 and keeps what is written (R353). -/
def routeSec (by_ : Agent) (off : Nat) (v : Word64) (s : State) : State :=
  if off = Reg.SEC_OP then routeSecOp by_ v s
  else if off = Reg.SEC_ATTEST_CTL then (if inField v F.SEC_ATTEST_CTL.GO = 1 then attestGo by_ s else s.writeThen by_ off v.toNat id)
  else if Reg.SEC_OWNER_BUF 0 ≤ off ∧ off ≤ Reg.SEC_OWNER_BUF 511 then
    s.writeThen by_ off v.toNat (fun s =>
      { s with sec := { s.sec with ownerBuf := mset 0 s.sec.ownerBuf ((off - Reg.SEC_OWNER_BUF 0) / 8) v } })
  else s.writeThen by_ off v.toNat id

/-- Block TIM; TIM_TS_UNC is the servo owner's (R45). -/
def routeTim (by_ : Agent) (off : Nat) (v : Word64) (s : State) : State :=
  if off = Reg.TIM_CTRL then freeRun by_ v s
  else if off = Reg.TIM_INCR then timIncr by_ v s
  else if off = Reg.TIM_SLEW then timSlew by_ v s
  else if off = Reg.TIM_STEP then timStep by_ v s
  else if off = Reg.TIM_APPLY then timApply by_ v s
  else if off = Reg.TIM_PTP_OFS then ptpServoUpdate by_ v s
  else if off = Reg.TIM_TOD_NEXT then
    s.writeThen by_ off v.toNat (fun s => { s with tim := { s.tim with todWritten := s.now } })
  else if off = Reg.TIM_TS_UNC then s.accept by_ off (fun s => if s.servoOwner by_ then (s.writeFields by_ off v.toNat).tsUncCheck else s)
  else if off = Reg.TIM_PPS_OUT0 then ppsOutWrite by_ 0 v s
  else if off = Reg.TIM_PPS_OUT1 then ppsOutWrite by_ 1 v s
  else s.writeThen by_ off v.toNat id

/-- Blocks PRT and SER; number `x` is a port, a lane or an octet. -/
def routePorts (by_ : Agent) (off x : Nat) (base : Nat) (v : Word64) (s : State) : State :=
  if base = Reg.PRT_CFG 0 then prtCfgWrite by_ x v s
  else if base = Reg.PRT_CFG 512 then prtCfgWrite by_ (512 + x) v s
  else if base = Reg.PRT_OCTET 0 then prtOctetWrite by_ x v s
  else if off = Reg.PRT_APPLY then prtApply by_ v s
  else if base = Reg.SER_CFG 0 then s.writeThen by_ off v.toNat (fun s => s.svcCheck (s.portOfLane x))
  else if base = Reg.SER_CFG 512 then s.writeThen by_ off v.toNat (fun s => s.svcCheck (512 + x))
  else s.writeThen by_ off v.toNat id

/-- Block PRS. -/
def routePrs (by_ : Agent) (off x i : Nat) (base : Nat) (v : Word64) (s : State) : State :=
  if base = Reg.PRS_PROFILE 0 0 then prsProfileWrite by_ x i v s
  else if off = Reg.PRS_CS_BANK then prsCsBankWrite by_ v s
  else if off = Reg.PRS_CS_LOAD_CTL then ucodeLoadGo by_ v s
  else if off = Reg.PRS_APPLY then prsApply by_ v s
  else s.writeThen by_ off v.toNat id

/-- Blocks XMT, TCM and FWD. XMT_SEED is the image's (R143, R374); the ring's base is written while the ring is off. -/
def routeTables (by_ : Agent) (off x : Nat) (base : Nat) (v : Word64) (s : State) : State :=
  if off = Reg.XMT_SEED then (if by_ = .loader then s.wr off v.toNat else s.accept by_ off id)
  else if off = Reg.XMT_APPLY then xmtApply by_ v s
  else if off = Reg.TCM_APPLY then tcmApply by_ v s
  else if off = Reg.FWD_APPLY then fwdApply by_ v s
  else if off = Reg.FWD_RING_BASE then
    s.accept by_ off (fun s => if s.flag Reg.FWD_RING_CTL F.FWD_RING_CTL.EN then s else s.writeFields by_ off v.toNat)
  else if off = Reg.FWD_RING_CTL then fwdRingTailWrite by_ v s
  else if base = Reg.FWD_CLAIM 0 then claimWrite by_ x v s
  else if off = Reg.FWD_CLAIM_FORCE then claimForce by_ v s
  else s.writeThen by_ off v.toNat id

/-- Block VER: the instant and the mask are ignored while a group is armed (Tables VER-8, VER-9). -/
def routeVer (by_ : Agent) (off : Nat) (v : Word64) (s : State) : State :=
  if off = Reg.VER_COMMIT_TIME ∨ off = Reg.VER_COMMIT_TIME_HI ∨ off = Reg.VER_GROUP_BLOCKS then
    s.accept by_ off (fun s => if s.armedV = 0 then s.writeFields by_ off v.toNat else s)
  else if off = Reg.VER_CTL then
    let op := inField v F.VER_CTL.OP
    if op = 1 then verOpen by_ s else if op = 2 then verArm by_ s else if op = 3 then verAbortAll by_ s
    else if op = 4 then verAbortOpen by_ s else verCtlInvalid by_ s
  else s.writeThen by_ off v.toNat id

/-- Blocks MTR, QUE, SCH and LCK. -/
def routeQueues (by_ : Agent) (off x i : Nat) (base : Nat) (v : Word64) (s : State) : State :=
  if off = Reg.MTR_APPLY then mtrApply by_ v s
  else if off = Reg.QUE_CTL then queHaltWrite by_ v s
  else if off = Reg.QUE_APPLY then queApply by_ v s
  else if off = Reg.SCH_APPLY then schApply by_ v s
  else if base = Reg.SCH_GL 0 then schGlWrite by_ x v s
  else if off = Reg.LCK_APPLY then lckApply by_ v s
  else if base = Reg.LCK_CLASS 0 0 then s.writeThen by_ off v.toNat (fun s => s.syncDmin x i false)
  else s.writeThen by_ off v.toNat id

/-- The bytes written to the flow key take effect at the next epoch (R284); the registers read 0. -/
def keyWrite (s : State) (by_ : Agent) (off : Nat) (v : Word64) : State :=
  s.writeThen by_ off v.toNat (fun s =>
    if !(s.isWarden by_) then s
    else
      let w := s.wit
      let w := if off = Reg.WIT_FLOW_KEY_LO then { w with keyLo := v.toNat } else { w with keyHi := v.toNat }
      { s with wit := { w with keyPend := some (w.keyLo + 2 ^ 64 * w.keyHi) } })

/-- Block WIT. -/
def routeWit (by_ : Agent) (off x : Nat) (base : Nat) (v : Word64) (s : State) : State :=
  if off = Reg.WIT_CTL then (if inField v F.WIT_CTL.EN = 1 then witStart by_ s else witStop by_ s)
  else if off = Reg.WIT_RING_CFG then s.regionWrite by_ off v.toNat
  else if off = Reg.WIT_FLOW_KEY_LO ∨ off = Reg.WIT_FLOW_KEY_HI then s.keyWrite by_ off v
  else if off = Reg.WIT_EXP_CTL then let old := s.rd off; s.writeThen by_ off v.toNat (fun s => s.exportEnables old)
  else if base = Reg.WIT_EXP_RING_HEAD 0 then pushHeadWrite by_ x v s
  else if off = Reg.WIT_PULL_HEAD then pullHeadWrite by_ v s
  else if off = Reg.WIT_APPLY then witApply by_ v s
  else s.writeThen by_ off v.toNat id

/-- Blocks TOW, HBM and SCP. -/
def routeTow (by_ : Agent) (off x : Nat) (base : Nat) (v : Word64) (s : State) : State :=
  if off = Reg.TOW_CTL then towHeal by_ v s
  else if off = Reg.TOW_APPLY then towApply by_ v s
  else if base = Reg.TOW_PORT_CFG 0 then towPortCfgWrite by_ x v s
  else if off = Reg.HBM_CAP_RING then s.regionWrite by_ off v.toNat
  else if off = Reg.HBM_APPLY then hbmApply by_ v s
  else if base = Reg.SCP_OWNER 0 then scpHandoverStart by_ x v s
  else s.writeThen by_ off v.toNat id

/-- Block EVQ: queues 0 to 3 are the keeper cores' (R411). -/
def routeEvq (by_ : Agent) (off x : Nat) (base : Nat) (v : Word64) (s : State) : State :=
  if base = Reg.EVQ_CFG 0 then
    if inField v F.EVQ_CFG.EN = 1 then evqEnable by_ x v s
    else if x < 4 then s.accept by_ off id
    else s.writeThen by_ off v.toNat id
  else if base = Reg.EVQ_STAT 0 ∧ x < 4 then s.accept by_ off id
  else if base = Reg.EVQ_BASE 0 then (if x < 4 then s.accept by_ off id else s.writeThen by_ off v.toNat id)
  else if base = Reg.EVQ_IDX 0 then evqArm by_ x v s
  else s.writeThen by_ off v.toNat id

/-- Block PMC: T_LO keeps its value while a snapshot is armed (Table CNT-5), and a sample ring that is not empty after a move of
HEAD raises PMC_SAMPLE (R478). -/
def routePmc (by_ : Agent) (off x : Nat) (base : Nat) (v : Word64) (s : State) : State :=
  if off = Reg.PMC_SNAP_CTL then
    if inField v F.PMC_SNAP_CTL.ARM = 1 then snapArm by_ v s
    else if inField v F.PMC_SNAP_CTL.CANCEL = 1 then snapCancel by_ v s
    else s.writeThen by_ off v.toNat id
  else if base = Reg.PMC_SAMPLE_CFG 0 then samplerCfgWrite by_ x v s
  else if off = Reg.PMC_SAMPLE_IDX then
    s.accept by_ off (fun s =>
      let head := s.fld off F.PMC_SAMPLE_IDX.HEAD
      let d := (inField v F.PMC_SAMPLE_IDX.HEAD + 65536 - head) % 65536
      if s.samplesHeld < d then s
      else
        let s := s.writeFields by_ off v.toNat
        if s.samplesHeld = 0 then s else s.raise Src.PMC_SAMPLE (s.fld off F.PMC_SAMPLE_IDX.TAIL))
  else if off = Reg.PMC_SNAP_TIME then
    s.accept by_ off (fun s => if s.fld Reg.PMC_SNAP_STAT F.PMC_SNAP_STAT.STATE = 1 then s else s.writeFields by_ off v.toNat)
  else s.writeThen by_ off v.toNat id

/-- Blocks FLT and CND. A fixed reaction stays (Table FLT-2). -/
def routeFlt (by_ : Agent) (off x : Nat) (base : Nat) (v : Word64) (s : State) : State :=
  if off = Reg.FLT_CTL then lanternTest by_ v s
  else if off = Reg.FLT_FERRY_CTL then
    ferryCtl by_ v s
  else if off = Reg.FLT_INJECT then fltInject by_ v s
  else if base = Reg.FLT_STICKY 0 then stickyClear by_ x v s
  else if base = Reg.FLT_SRC_CFG 0 then
    s.writeThen by_ off v.toNat (fun s => s.setFld off F.FLT_SRC_CFG.REACT (s.react x))
  else if off = Reg.CND_CTL then replanRequest by_ v s
  else s.writeThen by_ off v.toNat id

/-- Block KPR: a write of KPR_STATUS by keeper firmware is its sign of life (R464). -/
def routeKpr (by_ : Agent) (off x : Nat) (base : Nat) (v : Word64) (s : State) : State :=
  if base = Reg.KPR_CMD_DATA 0 then keeperCmdWrite by_ x v false s
  else if base = Reg.KPR_STATUS 0 then
    s.writeThen by_ off v.toNat (fun s => match by_ with
      | .keeper _ => { s with kpr := mset {} s.kpr x { mget {} s.kpr x with lastAlive := s.now } }
      | _ => s)
  else s.writeThen by_ off v.toNat id

/-- Block HIF. -/
def routeHif (by_ : Agent) (off x : Nat) (base : Nat) (v : Word64) (s : State) : State :=
  if base = Reg.HIF_DMA_CFG 0 then
    if inField v F.HIF_DMA_CFG.EN = 1 then dmaEnable by_ x v s
    else s.writeThen by_ off v.toNat (fun s => (s.syncChan x).syncPaused (s.chanFn x))
  else if base = Reg.HIF_DMA_IDX 0 then cplHeadWrite by_ x v s
  else if base = Reg.HIF_DMA_TAIL 0 then descTailWrite by_ x v s
  else s.writeThen by_ off v.toNat id

/-- A write of `v` to the register at BAR0 offset `off` (R499): nothing where none is assigned (R10). -/
def regWrite (by_ : Agent) (off : Nat) (v : Word64) (s : State) : State :=
  match regAt off with
  | none => s.touch by_
  | some (d, ix) =>
    let x := ix.headD 0
    let i := ix.getLastD 0
    let b := blockOf off
    if b = 0 then routeCfg by_ off v s
    else if b = 1 then routeSec by_ off v s
    else if b = 2 then routeTim by_ off v s
    else if b = 3 ∨ b = 4 then routePorts by_ off x d.base v s
    else if b = 5 then routePrs by_ off x i d.base v s
    else if b ≤ 8 then routeTables by_ off x d.base v s
    else if b = 9 then routeVer by_ off v s
    else if b ≤ 13 then routeQueues by_ off x i d.base v s
    else if b = 14 then routeWit by_ off x d.base v s
    else if b ≤ 17 then routeTow by_ off x d.base v s
    else if b = 18 then routeEvq by_ off x d.base v s
    else if b = 19 then routePmc by_ off x d.base v s
    else if b ≤ 21 then routeFlt by_ off x d.base v s
    else if b = 22 then routeKpr by_ off x d.base v s
    else routeHif by_ off x d.base v s

end State

open State

/-- A host write to BAR0 (R10, R505): of 8 bytes at an aligned offset; one of 4 bytes changes nothing. -/
def registerWrite (by_ : Agent) (off : Nat) (wide : Bool) (v : Word64) (s : State) : State :=
  if wide then s.regWrite by_ off v else s.touch by_

end Sys2Proof.Machine
end

