-- ==== Sys2Proof/Machine/Boot.lean ====
section
/-! DEFINITION. Start-up from the Aimet image (R369 to R378, R381) and what a block reset puts back (R383). -/
namespace Sys2Proof.Machine
namespace State

/-! ## The image (Tables BOOT-1 to BOOT-3) -/

/-- The header's section count. -/
def imageN (s : State) : Nat := leAt s.boot.header 12 2

/-- Entry `i` of the section table. -/
def secEntry (s : State) (i : Nat) : Bytes := sub s.boot.header (64 + 64 * i) 64

/-- The TYPE of section `i`. -/
def secType (s : State) (i : Nat) : Nat := byteAt (s.secEntry i) 0

/-- The BLOCK of section `i`. -/
def secBlock (s : State) (i : Nat) : Nat := byteAt (s.secEntry i) 1

/-- The LENGTH of section `i`. -/
def secLen (s : State) (i : Nat) : Nat := leAt (s.secEntry i) 8 4

/-- A section's bytes have the digest of its table entry. -/
def digestOk (s : State) (i : Nat) (bytes : Bytes) : Bool :=
  decide (bytes.length = s.secLen i) && sha384 bytes == sub (s.secEntry i) 16 48

/-- A section-table entry is well formed in an image of `total` bytes (Tables BOOT-2, BOOT-3). -/
def tableEntryOk (total : Nat) (e : Bytes) : Bool :=
  let ty := byteAt e 0
  let blk := byteAt e 1
  [0x01, 0x02, 0x03, 0x10, 0x11, 0x12, 0x13].contains ty
    && (if ty = 0x10 then decide (blk < 24) else blk == 0)
    && leAt e 2 2 == (if ty = 0x01 ∨ ty = 0x02 then 1 else 0)
    && leAt e 4 4 % 4096 == 0 && decide (leAt e 4 4 + leAt e 8 4 ≤ total) && leAt e 12 4 == 0
    && (ty != 0x10 || leAt e 8 4 % 16 == 0) && (ty != 0x11 || leAt e 8 4 % 128 == 0)

/-- The header and the section table are well formed (Table BOOT-1, R372). -/
def headerOk (h : Bytes) : Bool :=
  let n := leAt h 12 2
  let entries := (List.range n).map (fun i => sub h (64 + 64 * i) 64)
  let cmds := entries.filter (fun e => byteAt e 0 == 0x11)
  let rest := (entries.filter (fun e => byteAt e 0 != 0x11)).map (fun e => (byteAt e 0, byteAt e 1))
  sub h 0 4 == ascii "AIMT" && leAt h 4 2 == 1 && decide (leAt h 6 2 < 4 ∧ 1 ≤ n ∧ n ≤ 64) && leAt h 14 2 == 0
    && decide (leAt h 16 4 ≤ 132120576) && allZero (sub h 24 8) && allZero (sub h 48 16)
    && entries.all (tableEntryOk (leAt h 16 4)) && decide (cmds.length ≤ 16) && decide rest.Nodup

/-! ## The load order (Table BOOT-5) -/

/-- The blocks of step 12, in the order of their loading. -/
def lateBlocks : List Nat := [0, 5, 6, 7, 8, 9, 10, 11, 12, 13, 15, 16, 17, 18, 19, 21, 22, 23]

/-- The step that loads a section of TYPE `ty` and BLOCK `blk`: 100 + b is block b's part of step 12. -/
def stepOf (ty blk : Nat) : Nat :=
  if ty = 0x10 then
    if blk = 20 then 4 else if blk = 14 then 6 else if blk = 1 then 7 else if blk = 2 then 9
    else if blk = 3 ∨ blk = 4 then 10 else 100 + blk
  else if ty = 0x12 then 4
  else if ty = 0x01 ∨ ty = 0x13 then 8
  else if ty = 0x02 ∨ ty = 0x03 then 11
  else 13

/-- The steps that step `k` comes after. -/
def stepAfter (k : Nat) : List Nat :=
  if k = 4 ∨ k = 5 then [3] else if k = 6 then [4, 5] else if k = 7 then [6] else if k = 8 then [5, 7]
  else if k = 9 then [8] else if k = 10 ∨ k = 11 then [7]
  else if k = 12 then [10, 11] ++ lateBlocks.map (100 + ·)
  else if k = 13 then [12]
  else [10, 11] ++ (lateBlocks.filter (fun b => decide (100 + b < k))).map (100 + ·)

/-- Step `k` has been completed. -/
def stepDone (s : State) (k : Nat) : Bool := s.boot.steps.contains k

/-- Step `k` may be under way. -/
def stepOpen (s : State) (k : Nat) : Bool := s.boot.loading && (stepAfter k).all s.stepDone && !(s.stepDone k)

/-- The sections of step `k`, by table index. -/
def stepSections (s : State) (k : Nat) : List Nat :=
  (List.range s.imageN).filter (fun i => stepOf (s.secType i) (s.secBlock i) == k)

/-- The image has a KEEPER section. -/
def hasKeeper (s : State) : Bool := (List.range s.imageN).any (fun i => s.secType i == 0x01)

/-- CFG_LOAD_STAT.PHASE follows the steps completed (Table BOOT-11). -/
def syncPhase (s : State) : State :=
  let d := s.stepDone
  let p := if d 14 then 8 else if d 12 then 7 else if d 10 && d 11 then 6 else if d 10 then 5 else if d 8 then 4
    else if d 7 then 3 else if d 3 then 2 else if s.boot.header.isEmpty then 0 else 1
  s.setFld Reg.CFG_LOAD_STAT F.CFG_LOAD_STAT.PHASE p

/-- A step is complete. -/
def markStep (s : State) (k : Nat) : State := { s with boot := { s.boot with steps := s.boot.steps ++ [k] } }.syncPhase

/-- Bits of CFG_READY set, but in ferry mode those that it holds clear wait for its end (R453, R458). -/
def setBits (s : State) (bs : List Nat) : State :=
  let hold (b : Nat) : Bool := s.inFerry && (b == 10 || decide (16 ≤ b))
  let s' : State := { s with flt := { s.flt with ferry := { s.flt.ferry with
    bits := s.flt.ferry.bits ++ bs.filter (fun b => hold b && !(s.flt.ferry.bits.contains b)) } } }
  let t : State := (bs.filter (fun b => !(hold b))).foldl (fun t b => t.setReady b true) s'
  if bs.contains 9 then (List.range 514).foldl (fun t p => t.svcCheck p) t else t

/-! ## Putting blocks into service -/

/-- The APPLY register of a block (Table MAP-7). -/
def applyOff (b : Nat) : Option Nat :=
  if b = 2 then some Reg.TIM_APPLY else if b = 3 then some Reg.PRT_APPLY else if b = 5 then some Reg.PRS_APPLY
  else if b = 6 then some Reg.XMT_APPLY else if b = 7 then some Reg.TCM_APPLY else if b = 8 then some Reg.FWD_APPLY
  else if b = 10 then some Reg.MTR_APPLY else if b = 11 then some Reg.QUE_APPLY else if b = 12 then some Reg.SCH_APPLY
  else if b = 13 then some Reg.LCK_APPLY else if b = 14 then some Reg.WIT_APPLY else if b = 15 then some Reg.TOW_APPLY
  else if b = 16 then some Reg.HBM_APPLY else none

/-- A block's shadows are applied by the loader; `none` where the block accepts them. Block WIT's SELECTION record comes
when its run has begun (R377). -/
def loaderApply (s : State) (b : Nat) : State × Bool :=
  match applyOff b with
  | none => (s, true)
  | some off =>
    match s.blockCheck b with
    | some (src, payload) => (s.raise src payload, false)
    | none => (if b = 14 then s.applyBlock 14 .pipeline else s.regWrite .loader off 1, true)

/-- The witness runs where WIT_CTL.EN is 1, and its own apply of WIT_SEL is witnessed after what waited (R377). -/
def startWitness (s : State) : State :=
  if s.flag Reg.WIT_CTL F.WIT_CTL.EN then s.runWitness.selectionRecord else s.selectionRecord

/-- Every entry of the protection staging may become active (R362). -/
def stageOk (s : State) : Bool :=
  (List.range 256).all (fun e => protEntryOk (s.rd (Reg.SEC_PROT_STAGE e 0)) (s.rd (Reg.SEC_PROT_STAGE e 1)))

/-- The keeper cores run firmware `ver` (R376, R464). -/
def startKeeper (s : State) (ver : Nat) : State :=
  let s : State := (List.range 4).foldl (fun s k =>
    let r := Reg.KPR_STATUS k
    let s := ((s.setFld r F.KPR_STATUS.RUNNING 1).setFld r F.KPR_STATUS.HALTED 0).setFld r F.KPR_STATUS.FW_VER ver
    { s with kpr := mset {} s.kpr k { mget {} s.kpr k with lastAlive := s.now } }) s
  s.setBits [5]

/-- The work that a step ends with, and the bits it sets (Tables BOOT-5, BOOT-6). -/
def endStep (s : State) (k : Nat) : State :=
  let s :=
    if k = 4 then s.setBits [2]
    else if k = 6 then s.startWitness
    else if k = 7 then (s.protCommit 0 256 0).setBits [3]
    else if k = 111 then s.startPools
    else if k = 112 then s.setBits [9]
    else if k = 113 then s.setBits (10 :: (List.range 16).map (16 + ·))
    else if k = 115 then (if s.towSt = 0 ∨ s.towSt = 2 then s.setBits [11] else s)
    else if k = 12 then s.setBits [14]
    else s
  s.markStep k

/-- Every step whose sections are loaded, and that comes after completed steps alone, is complete. Step 8 ends with the start
of the keeper cores, due within 100 ms of the moment their firmware is ready. -/
def advanceLoad (s : State) : State :=
  ([4, 6, 7, 8, 9, 10, 11] ++ lateBlocks.map (100 + ·) ++ [12]).foldl (fun s k =>
    if s.stepOpen k && (s.stepSections k).all (fun i => s.boot.done.contains i) then
      if k = 8 ∧ s.hasKeeper then
        (if s.boot.keeperAt.isNone then { s with boot := { s.boot with keeperAt := some s.now } } else s)
      else s.endStep k
    else s) s

/-- Section `i` is loaded, its bytes in the copy region. -/
def sectionDone (s : State) (i : Nat) (bytes : Bytes) : State :=
  let s := { s with boot := { s.boot with done := s.boot.done ++ [i], copy := mput s.boot.copy i bytes } }
  (s.setFld Reg.CFG_LOAD_STAT F.CFG_LOAD_STAT.SECTIONS_DONE s.boot.done.length).advanceLoad

/-! ## A failed attempt (R369, R378, R381) -/

/-- Every block but CFG, SEC, HIF and EVQ is returned to its reset values; the stacks are to be trained anew. -/
def returnBlocks (s : State) : State :=
  let blocks := (List.range 24).filter (fun b => !([0, 1, 16, 18, 23].contains b))
  let s := blocks.foldl (fun s b => s.blockReset b) s
  let s := (({ s with hbm := {} }.resetRegs 16 []).resetRegs 22 []).setReady 4 false
  { s with boot := { s.boot with resetting := [] } }

/-- The other slot is tried. -/
def nextSlot (s : State) : State :=
  let slot := 1 - s.boot.slot
  let s := (s.setFld Reg.CFG_RESET_CAUSE F.CFG_RESET_CAUSE.FALLBACK 1).raise Src.CFG_BOOT_FALLBACK (16 * slot)
  let s := ((List.range 31).map (1 + ·)).foldl (fun s b => s.setReady b false) s
  let b := s.boot
  let s := { s with boot := { b with slot := slot, triedOther := true, loading := true, header := [], steps := [], done := [], copy := [],
                                     keeperVer := 0, keeperAt := none, cmds := [], cmdFail := none } }
  let s := (List.range 64).foldl (fun s r => s.setFld (Reg.FWD_CLAIM r) F.FWD_CLAIM.HOLDER 3) s
  let s := (s.setFld Reg.CFG_LOAD_STAT F.CFG_LOAD_STAT.SECTIONS_DONE 0).syncPhase
  s.setFld Reg.CFG_BOOT_STAT F.CFG_BOOT_STAT.SLOT slot

/-- The no-image state (R378, R381): of the ready bits only SEC and HBM, and the protection table's reset contents. -/
def noImage (s : State) : State :=
  let s := ((List.range 31).map (1 + ·)).foldl (fun s b => if b = 4 then s else s.setReady b false) s
  let s := { s with boot := { s.boot with loading := false, steps := [], cmdFail := none, keeperAt := none } }
  let s := (List.range 256).foldl (fun s e => [0, 1].foldl (fun s w =>
    (s.wr (Reg.SEC_PROT_ACTIVE e w) (resetOf (Reg.SEC_PROT_ACTIVE e w))).wr (Reg.SEC_PROT_STAGE e w) (resetOf (Reg.SEC_PROT_STAGE e w))) s) s
  let s := (List.range 64).foldl (fun s r => s.setFld (Reg.FWD_CLAIM r) F.FWD_CLAIM.HOLDER 0) s
  (s.setFld Reg.CFG_BOOT_STAT F.CFG_BOOT_STAT.NO_IMAGE 1).setFld Reg.CFG_LOAD_STAT F.CFG_LOAD_STAT.PHASE 9

/-- The load attempt fails with `code` of Table BOOT-4: codes 2 to 11 fall back to the other slot, once. -/
def attemptFail (s : State) (code sec detail : Nat) : State :=
  let r := Reg.CFG_LOAD_STAT
  let s := ((s.setFld r F.CFG_LOAD_STAT.FAIL_SECTION sec).setFld r F.CFG_LOAD_STAT.CODE code).setFld r F.CFG_LOAD_STAT.DETAIL (detail % 65536)
  let s := s.setFld Reg.CFG_BOOT_STAT (if s.boot.slot = 0 then F.CFG_BOOT_STAT.CODE_A else F.CFG_BOOT_STAT.CODE_B) code
  let s := s.raise Src.CFG_LOAD_FAIL (code + 16 * s.boot.slot)
  let fallback := decide (2 ≤ code ∧ code ≤ 11)
  let s := if fallback then s.returnBlocks else s
  if fallback && !s.boot.triedOther then s.nextSlot else s.noImage

/-! ## Register lists (R374) -/

/-- An entry of block `b`'s list that fails the load with code 7: outside the block, or with a reserved bit set. -/
def regEntryBad (b : Nat) (e : Bytes) : Bool :=
  let off := leAt e 0 4
  let v := leAt e 8 8
  let named := match regAt off with
    | some (d, _) => d.named
    | none => 0
  blockOf off != b || decide (0x01C00000 ≤ off) || !(allZero (sub e 4 4)) || (v ||| named) != named

/-- The entries are written in order; the offset of the first that is bad. -/
def writeEntries (b : Nat) : List Bytes → State → State × Option Nat
  | [], s => (s, none)
  | e :: es, s =>
    if regEntryBad b e then (s, some (leAt e 0 4))
    else writeEntries b es (s.regWrite .loader (leAt e 0 4) (BitVec.ofNat 64 (leAt e 8 8)))

/-- The 16-byte entries of a list. -/
def regEntries (bytes : Bytes) : List Bytes := (List.range (bytes.length / 16)).map (fun i => sub bytes (16 * i) 16)

/-- A FERRY section's layout (R459). -/
def ferryOk (bytes : Bytes) : Bool :=
  decide (bytes.length = 4128) && sub bytes 0 4 == ascii "DLFM" && leAt bytes 4 2 == 1 && leAt bytes 6 2 == 514 && allZero (sub bytes 8 8)

/-- A FERRY section's entries are written to FLT_FERRY_MAP. -/
def loadFerry (s : State) (bytes : Bytes) : State :=
  (List.range 514).foldl (fun s p => s.regWrite .loader (Reg.FLT_FERRY_MAP p) (BitVec.ofNat 64 (leAt bytes (16 + 8 * p) 8))) s

/-- A REGS section of block `b` is loaded and applied; or its code of Table BOOT-4 and DETAIL. -/
def loadRegs (s : State) (b : Nat) (bytes : Bytes) : State × Option (Nat × Nat) :=
  match writeEntries b (regEntries bytes) s with
  | (s, some off) => (s, some (7, off / 8))
  | (s, none) =>
    if b = 1 && !s.stageOk then (s, some (8, 0))
    else match s.loaderApply b with
      | (s, true) => (s, none)
      | (s, false) => (s, some (8, 0))

/-! ## Commands executed by the load (R375) -/

/-- The CMDS sections in table order, each with the number of its commands. -/
def cmdSections (s : State) : List (Nat × Nat) := (s.stepSections 13).map (fun i => (i, s.secLen i / 128))

/-- The section that command `n` of the load lies in, and its index there. -/
def cmdPlace : Nat → List (Nat × Nat) → Nat × Nat
  | _, [] => (0xFF, 0)
  | n, (i, c) :: rest => if n < c then (i, n) else cmdPlace (n - c) rest

/-- The CMDS sections' bytes as executed have the digests of the table. -/
def cmdsOk (s : State) : List (Nat × Nat) → List Bytes → Option Nat
  | [], _ => none
  | (i, c) :: rest, cs => if s.digestOk i (cs.take c).flatten then cmdsOk s rest (cs.drop c) else some i

/-- Version 1 comes into force now with the digest already in VER_DIGEST (R171). -/
def bringUpVersion (s : State) : State :=
  let s := (s.setCurrent 1 s.now).setFld Reg.VER_STATE F.VER_STATE.OLDEST 1
  let s := ((s.setFld Reg.VER_STATE F.VER_STATE.OPEN 0).setFld Reg.VER_STATE F.VER_STATE.ARMED 0).setOpenCmds []
  let s := { s with ver := { s.ver with armedCmds := [], armedMask := 0 } }
  (s.commitEvent 1 1 s.now).raise Src.VER_COMMIT 1

end State

open State

/-! ## The commands -/

/-- The header, section table and signature of the slot are read (R370): `ok` says that the NVM answered. -/
def imageHeaderRead (ok : Bool) (bytes : Bytes) (s : State) : State :=
  if !s.boot.running || !s.boot.loading || !s.boot.header.isEmpty then s
  else if !ok then s.attemptFail 2 0xFF 0
  else
    let n := leAt bytes 12 2
    let h := sub bytes 0 (64 + 64 * min n 64 + 96)
    let s := { s with boot := { s.boot with header := h } }.syncPhase.secTake
    if headerOk h then s else s.attemptFail 3 0xFF 0

/-- The security module's verification of the image ends, `ok` being the outcome of the signature's check (R371). -/
def imageVerified (ok : Bool) (s : State) : State :=
  let h := s.boot.header
  if !s.boot.loading || h.isEmpty || s.stepDone 3 || s.secServing != some 3 then s
  else
    let n := s.imageN
    let owned := !s.sec.ownerId.isEmpty
    let id := if owned then s.sec.ownerId else certIdOf (Config.certDer 3)
    let key := if owned then s.sec.ownerKey else Config.certDer 3
    let flags := leAt h 6 2
    let digest := sha384 (sub h 0 (64 + 64 * n))
    let s := s.secVerify ok key digest (sub h (64 + 64 * n) 96)
    if bitOf flags 1 != owned || sub h 32 16 != id || !ok then s.attemptFail 4 0xFF 0
    else
      let s := s.setFld Reg.SEC_STATUS F.SEC_STATUS.APPROVED (b2n (bitOf flags 0))
      let s := s.putBytes (Reg.CFG_IMAGE_DIGEST 0) 6 digest
      let s := s.setFld Reg.CFG_BOOT_STAT F.CFG_BOOT_STAT.IMAGE_VER (leAt h 8 4)
      ((s.setBits [1]).markStep 3).advanceLoad

/-- Section `i`, of TYPE REGS, FERRY, KCFG or UCODE, is read and loaded (R372 to R374, R459): `sigOk` is the outcome of the
check of a microcode package's signature. -/
def regsSectionLoad (i : Nat) (bytes : Bytes) (sigOk : Bool) (s : State) : State :=
  let ty := s.secType i
  if s.imageN ≤ i || s.boot.header.isEmpty || s.boot.done.contains i || !([0x03, 0x10, 0x12, 0x13].contains ty)
      || !(s.stepOpen (stepOf ty (s.secBlock i))) then s
  else if !(s.digestOk i bytes) then s.attemptFail 5 i 0
  else if ty = 0x12 then (if ferryOk bytes then (s.loadFerry bytes).sectionDone i bytes else s.attemptFail 3 i 0)
  else if ty = 0x13 then s.sectionDone i bytes
  else if ty = 0x03 then
    if !s.secReady then s
    else
      let s := s.installPackage (some 0) sigOk bytes
      let st := s.fld Reg.PRS_CS_LOAD_CTL F.PRS_CS_LOAD_CTL.STATUS
      if st = 2 then s.sectionDone i bytes else s.attemptFail 10 i st
  else match s.loadRegs (s.secBlock i) bytes with
    | (s, none) => s.sectionDone i bytes
    | (s, some (code, detail)) => s.attemptFail code i detail

/-- Vendor section `i` is verified and decrypted (R373): `sigOk` is the outcome of the check of its wrapper's signature,
`plain` the plaintext where its tag holds, and `exports` the export words in it; those of version 0x0001_0400 are Table
PARSE-13's (R127). -/
def vendorSectionDecrypt (i : Nat) (bytes : Bytes) (sigOk : Bool) (plain : Option Bytes) (exports : List Word64)
    (s : State) : State :=
  let ty := s.secType i
  if s.imageN ≤ i || s.boot.header.isEmpty || s.boot.done.contains i || !([0x01, 0x02].contains ty) || !s.secReady
      || !(s.stepOpen (stepOf ty 0)) then s
  else if !(s.digestOk i bytes) then s.attemptFail 5 i 0
  else
    let wrapper := sub bytes 0 4 == ascii "DLVS" && leAt bytes 4 4 == ty && allZero (sub bytes 88 8)
    let s := s.secVerify sigOk (Config.certDer 3) (sha384 (sub bytes 0 96)) (sub bytes 96 96)
    let opened := match plain with
      | some x => sha384 x == sub bytes 40 48
      | none => false
    if !wrapper || !sigOk || !opened then s.attemptFail 6 i 0
    else
      let ver := leAt bytes 8 4
      let s :=
        if ty = 0x01 then { s with boot := { s.boot with keeperVer := ver } }
        else
          let s := s.setFld Reg.PRS_UCODE_VENDOR_VER F.PRS_UCODE_VENDOR_VER.VER ver
          (List.range 32).foldl (fun s k =>
            s.wr (Reg.PRS_VEXPORT k) (if ver = 0x00010400 then vexportWord k else (exports.getD k 0).toNat)) s
      s.sectionDone i bytes

/-- Both stacks have been trained, or one of them failed (R376). -/
def hbmTrainingDone (ok : Bool) (s : State) : State :=
  if !s.boot.running || s.ready 4 || !(s.stepDone 3 || s.flag Reg.CFG_BOOT_STAT F.CFG_BOOT_STAT.NO_IMAGE) then s
  else if !ok then (if s.boot.loading then s.attemptFail 12 0xFF 0 else s)
  else
    let s := (s.setFld (Reg.HBM_STAT 0) F.HBM_STAT.TRAINED 1).setFld (Reg.HBM_STAT 1) F.HBM_STAT.TRAINED 1
    let s := s.setBits [4]
    if s.boot.loading then (s.markStep 5).advanceLoad else s

/-- The keeper cores start the firmware that has been loaded (R376). -/
def keeperStart (s : State) : State :=
  if s.boot.keeperAt.isNone || s.stepDone 8 then s else ((s.startKeeper s.boot.keeperVer).markStep 8).advanceLoad

/-- Keeper firmware has not started within 100 ms (Table BOOT-4, code 11). -/
def keeperStartTimeout (s : State) : State :=
  match s.boot.keeperAt with
  | some t => if !(s.stepDone 8) && decide (t + 100 * millisecond ≤ s.now) then s.attemptFail 11 0xFF 0 else s
  | none => s

/-- The security module is not ready within 1 s (R376, code 13). -/
def secReadyTimeout (s : State) : State :=
  if s.boot.running && s.boot.loading && !s.secReady && !(s.stepDone 3) && decide (s.boot.leftAt + second ≤ s.now) then
    s.attemptFail 13 0xFF 0
  else s

/-- The last command of the image has completed (R375): TABLES sets, version 1 comes into force and the claim regions are
released. -/
def cmdsSectionsDone (s : State) : State :=
  let cs : List (Nat × Nat) := s.cmdSections
  if !(s.stepOpen 13) || s.boot.cmdFail.isSome || s.tab.move.isSome || s.boot.cmds.length != (cs.map (·.2)).sum then s
  else match s.cmdsOk cs s.boot.cmds with
    | some i => s.attemptFail 5 i 0
    | none =>
      let ids : List Nat := cs.map (·.1)
      let s := { s with boot := { s.boot with done := s.boot.done ++ ids } }
      let s := s.setFld Reg.CFG_LOAD_STAT F.CFG_LOAD_STAT.SECTIONS_DONE s.boot.done.length
      let s := (s.setBits [12]).markStep 13
      let digest := s.groupDigest 1 s.now 0 s.ver.openCmds
      let s := (s.putBytes (Reg.VER_DIGEST 0) 4 digest).setOpenCmds []
      let s := s.bringUpVersion.setBits [13]
      let s := (List.range 64).foldl (fun s r => s.setFld (Reg.FWD_CLAIM r) F.FWD_CLAIM.HOLDER 0) s
      let s := { s with boot := { s.boot with loading := false, cmds := [] } }
      let r := Reg.CFG_LOAD_STAT
      let s := ((s.setFld r F.CFG_LOAD_STAT.FAIL_SECTION 0xFF).setFld r F.CFG_LOAD_STAT.CODE 1).setFld r F.CFG_LOAD_STAT.DETAIL 0
      let s := s.setFld Reg.CFG_BOOT_STAT (if s.boot.slot = 0 then F.CFG_BOOT_STAT.CODE_A else F.CFG_BOOT_STAT.CODE_B) 1
      (s.markStep 14).setBits [15]

/-- The sections of block `b` have been reapplied from the DRAM copy (R383): the block is in service again and the ready bits
that its reset cleared are set. SEC sets when the module is ready again; the mode of the module is again the image's (R344). -/
def blockResetDone (b : Nat) (s : State) : State :=
  match mfind s.boot.resetting b with
  | none => s
  | some bs =>
    let mine : List Nat := (List.range s.imageN).filter (fun i => s.boot.done.contains i && s.secType i == 0x10 && s.secBlock i == b)
    let s : State := mine.foldl (fun s i => (s.loadRegs b (mget [] s.boot.copy i)).1) s
    let s : State := if b = 20 then
        ((List.range s.imageN).filter (fun i => s.boot.done.contains i && s.secType i == 0x12)).foldl (fun s i =>
          s.loadFerry (mget [] s.boot.copy i)) s
      else s
    let live (k : Nat) : Bool := s.stepDone k
    let s : State := if b = 1 && live 3 then
        s.setFld Reg.SEC_STATUS F.SEC_STATUS.APPROVED (b2n (bitOf (leAt s.boot.header 6 2) 0))
      else s
    let s : State :=
      if b = 1 && live 7 then s.protCommit 0 256 0
      else if b = 9 && live 14 then
        (s.putBytes (Reg.VER_DIGEST 0) 4 (s.groupDigest 1 s.now 0 [])).bringUpVersion
      else if b = 11 && live 111 then s.startPools
      else if b = 12 then (List.range 514).foldl enterRecovery s
      else if b = 14 && live 6 then s.startWitness
      else if b = 22 && live 8 && bs.contains 5 then s.startKeeper s.boot.keeperVer
      else s
    let s := { s with boot := { s.boot with resetting := mdel s.boot.resetting b } }
    let s := s.setBits (bs.filter (fun x => x != 0 && !(s.ready x) && !(x == 11 && s.towSt != 0) && (x != 7 || s.flag Reg.WIT_CTL F.WIT_CTL.EN)))
    (s.onFerry (fun f => { f with restore := f.restore.filter (· != b) })).ferryRestore

end Sys2Proof.Machine
end

