-- ==== Sys2Proof/Machine/Reads.lean ====
section
/-! DEFINITION. What the host and the sideband read: BAR0, BAR2 and BAR4 (R31, R392, R499 to R503), the reads that change
state (R161, R500), and the SMBus sideband (R493). -/
namespace Sys2Proof.Machine
namespace State

/-! ## BAR0 -/

/-- A field of a value replaced. -/
def withFld (v : Nat) (f : Fld) (x : Nat) : Nat := putBits v f.hi f.lo x

/-- Whole seconds until ferry mode would be left, 0 outside it (Table FLT-13). -/
def quietLeft (s : State) : Nat :=
  if s.inFerry then ceilDiv (s.flt.ferry.lastDeg + s.quietSpan - s.now) second else 0

/-- A TIM register whose fields follow device time. -/
def readTim (s : State) (fn off x base : Nat) : Nat :=
  let v := s.rd off
  if off = Reg.TIM_NOW_LO then d96 s.now % 2 ^ 64
  else if off = Reg.TIM_NOW_HI then (s.fnSt fn).secHi
  else if off = Reg.TIM_STATE then
    let hold := if s.tq = 4 ∨ s.tq = 5 ∨ s.tq = 6 then min ((s.now - s.tim.holdEntry) / millisecond) (2 ^ 24 - 1) else 0
    withFld (withFld v F.TIM_STATE.HOLD_MS hold) F.TIM_STATE.UB_BASE s.ubBase
  else if off = Reg.TIM_SLEW then withFld v F.TIM_SLEW.OFFSET (ofIntW 48 (s.tim.slew / (2 ^ 32 : Nat)))
  else if base = Reg.TIM_CAL_STAT 0 then
    withFld (withFld (withFld v F.TIM_CAL_STAT.AGE_S (s.calAge x)) F.TIM_CAL_STAT.STALE (b2n (s.boot.running && s.calStaleNow x)))
      F.TIM_CAL_STAT.SLEWING (b2n (s.calLag x != 0))
  else v

/-- Blocks PRT and SER (R94): number `x` of the register whose first is `base`. A port the octet mode does not have reads as a
halted port with PHY 0. -/
def readPorts (s : State) (off x base : Nat) : Nat :=
  let p := if base = Reg.PRT_CFG 512 ∨ base = Reg.PRT_STATUS 512 ∨ base = Reg.PRT_SLOT 512 then 512 + x else x
  let own := off = Reg.PRT_CFG p ∨ off = Reg.PRT_STATUS p ∨ off = Reg.PRT_SLOT p
  if own ∧ !(s.portExists p) then resetOf off
  else if off = Reg.PRT_SLOT p then s.slotReg p
  else if base = Reg.SER_FRAMING 0 then s.framingReg x
  else if base = Reg.SER_FRAMING 512 then s.framingReg (512 + x)
  else s.rd off

/-- Word `w` of the control-store window (Tables PARSE-33 to PARSE-36): register `k` of its four; the vendor region reads 0
(R127). -/
def readCs (s : State) (w k : Nat) : Nat :=
  if w < 12288 then 0
  else
    let m := s.csWord (s.fld Reg.PRS_CS_SEL F.PRS_CS_SEL.BANK) w
    if k = 3 then csCheck m else bits m.toNat (64 * k + 63) (64 * k)

/-- Whether word `w` of the slice and bank in the window holds a double-bit error (R126). -/
def csShownBad (s : State) (w : Nat) : Bool :=
  s.prs.ecc.contains (s.fld Reg.PRS_CS_SEL F.PRS_CS_SEL.SLICE, s.fld Reg.PRS_CS_SEL F.PRS_CS_SEL.BANK, w)

/-- Whether a move runs in ternary group `g`. -/
def groupMoving (s : State) (g : Nat) : Bool :=
  match s.tab.move with
  | some m => m.group == g
  | none => false

/-- A table register whose fields follow the tables. -/
def readTables (s : State) (off x base : Nat) : Nat :=
  let v := s.rd off
  if base = Reg.XMT_PART_STAT 0 then
    let st := (s.tab.stash.filter (fun e => e.1 / 256 == x && e.2.valid)).length
    let b := 4 * s.partBase x
    let n := (s.tab.em.filter (fun e => decide (b ≤ e.1 ∧ e.1 < b + 4 * s.partSize x) && e.2.valid)).length
    withFld (withFld (withFld v F.XMT_PART_STAT.STASH st) F.XMT_PART_STAT.LOAD_PM
      (if s.partSize x = 0 then 0 else s.loadPm x)) F.XMT_PART_STAT.ENTRIES (n + st)
  else if base = Reg.TCM_GROUP_STAT 0 then
    let g := s.groupOf x
    let lo := 2048 * g.first
    let hi := lo + 2048 * (if g.wide then g.count / 2 else g.count)
    let n := (s.tab.tc.filter (fun e => decide (lo ≤ e.1 ∧ e.1 < hi) && e.2.valid)).length
    withFld (withFld v F.TCM_GROUP_STAT.MOVING (b2n (s.groupMoving x))) F.TCM_GROUP_STAT.VALID_ROWS (if g.en then n else 0)
  else v

/-- A register of blocks PRS, QUE, SCH, LCK and TOW whose fields follow the queues, the lists and the routes. -/
def readQueues (s : State) (off x base : Nat) : Nat :=
  let v := s.rd off
  if base = Reg.PRS_STATUS 0 then
    withFld (withFld v F.PRS_STATUS.QUEUED (s.dispatchQ x).length) F.PRS_STATUS.BUSY (s.busyOf x)
  else if base = Reg.QUE_SLICE_STAT 0 then
    let o := s.owed s.cfgFld x
    withFld (withFld v F.QUE_SLICE_STAT.OWED o) F.QUE_SLICE_STAT.SHARED_FREE (s.freeGran x - o)
  else if base = Reg.SCH_GL 0 then
    let p := s.fld Reg.SCH_GL_SEL F.SCH_GL_SEL.PORT
    if 513 < p then 0 else s.gateEntry p (s.fld Reg.SCH_GL_SEL F.SCH_GL_SEL.BANK) x
  else if base = Reg.LCK_PORT_STAT 0 then withFld v F.LCK_PORT_STAT.ACTIVE (s.activeClasses x)
  else if base = Reg.TOW_ROUTE 0 then withFld v F.TOW_ROUTE.USING_ALT (b2n (s.usingAlt x))
  else if off = Reg.TOW_VOTE_STAT then
    withFld (withFld v F.TOW_VOTE_STAT.TOTAL s.totalWeight) F.TOW_VOTE_STAT.REACH s.reachWeight
  else if off = Reg.TOW_SYS_STAT then withFld v F.TOW_SYS_STAT.CFG_HASH s.cfgHash
  else v

/-- A register of blocks SEC, EVQ, FLT, PMC and HIF whose fields follow other state. A snapshot's copies have closed by 30 µs after T,
and it is being written from then on (R472, log entry 38). -/
def readOthers (s : State) (fn off x base : Nat) : Nat :=
  let v := s.rd off
  if off = Reg.SEC_CFG then s.shown off
  else if base = Reg.EVQ_STAT 0 then
    withFld (withFld v F.EVQ_STAT.OWED (b2n (s.evqOwed x))) F.EVQ_STAT.STAGED (s.evq x).staging.length
  else if off = Reg.FLT_STATUS then withFld v F.FLT_STATUS.LANTERN (b2n s.lanternFault)
  else if off = Reg.FLT_FERRY_STAT then
    withFld (withFld v F.FLT_FERRY_STAT.EXITS_HOUR s.recentExits.length) F.FLT_FERRY_STAT.QUIET_LEFT_S s.quietLeft
  else if off = Reg.PMC_SNAP_STAT then
    match s.pmc.snap with
    | some p => if p.frozen.isSome ∧ p.frozenAt + 30 * microsecond ≤ s.now then withFld v F.PMC_SNAP_STAT.STATE 3 else v
    | none => v
  else if off = Reg.HIF_READ_TIME then d96 (s.fnSt fn).readTime % 2 ^ 64
  else if off = Reg.HIF_READ_TIME_HI then d96 (s.fnSt fn).readTime / 2 ^ 64
  else v

/-- What function `fn` reads at BAR0 offset `off`, apart from FWD_CLAIM_TRY (R10, R499). -/
def regValue (s : State) (fn off : Nat) : Nat :=
  match regAt off with
  | none => 0
  | some (d, ix) =>
    let x := ix.headD 0
    let b := blockOf off
    if b = 2 then s.readTim fn off x d.base
    else if b = 3 ∨ b = 4 then s.readPorts off x d.base
    else if d.base = Reg.PRS_CS_W0 0 then s.readCs x 0
    else if d.base = Reg.PRS_CS_W1 0 then s.readCs x 1
    else if d.base = Reg.PRS_CS_W2 0 then s.readCs x 2
    else if d.base = Reg.PRS_CS_ECC 0 then s.readCs x 3
    else if b = 6 ∨ b = 7 then s.readTables off x d.base
    else if b = 5 ∨ b = 11 ∨ b = 12 ∨ b = 13 ∨ b = 15 then s.readQueues off x d.base
    else s.readOthers fn off x d.base

/-- Whether the register at `off` shows a control-store word that holds an error, whose bits are then not stated. -/
def regOpen (s : State) (off : Nat) : Bool :=
  match regAt off with
  | none => false
  | some (d, ix) =>
    let w := ix.headD 0
    [Reg.PRS_CS_W0 0, Reg.PRS_CS_W1 0, Reg.PRS_CS_W2 0].contains d.base && decide (12288 ≤ w) && s.csShownBad w

/-- A read of TIM_NOW_LO latches SEC_HI for the function (R500). -/
def latchHi (s : State) (fn : Nat) : State := s.onFn fn (fun f => { f with secHi := d96 s.now / 2 ^ 64 })

/-- A read of FWD_CLAIM_TRY(r) takes region `r` for the host if it is free (R161); the second part is what it returns. -/
def tryClaim (s : State) (r : Nat) : State × Nat :=
  if 36 ≤ r then (s, 0)
  else if s.holder r = 0 then (s.setFld (Reg.FWD_CLAIM r) F.FWD_CLAIM.HOLDER 1, 2 ^ 63 + 1)
  else (s, s.holder r)

/-- One register read: what it returns, and the state after it (R500). -/
def readReg (s : State) (fn off : Nat) : Nat × State :=
  if off = Reg.TIM_NOW_LO then (s.regValue fn off, s.latchHi fn)
  else if Reg.FWD_CLAIM_TRY 0 ≤ off ∧ off ≤ Reg.FWD_CLAIM_TRY 63 ∧ off % 8 = 0 then
    let (s, v) := s.tryClaim ((off - Reg.FWD_CLAIM_TRY 0) / 8)
    (v, s)
  else if s.regOpen off then s.takeFree 64
  else (s.regValue fn off, s)

/-- A counted read of function `fn` (R392). -/
def stampRead (s : State) (fn : Nat) : State := s.onFn fn (fun f => { f with readTime := s.now })

/-- A commit and a snapshot whose T has come are made before device time goes on (R180, R472). -/
def dueNow (s : State) : State := (s.commitDue s.now).snapDue false

/-- A commit and a snapshot whose T is not after `t` are made. -/
def madeBy (s : State) (t : Stamp) : State :=
  let s := s.commitDue t
  if s.pmc.snap.any (fun p => decide (p.t ≤ t)) then s.snapDue false else s

/-- The epoch in force ends where its END has come, after what is due before END (R288, R294). -/
def epochDue (s : State) : State :=
  let e := s.wit.epochEnd
  if s.witOn && decide (e ≤ s.now) then (s.madeBy (e - 1)).atTime e epochEnd else s

/-- The instant at which a member confirms agreement, T less half of LEAD_US, has come since `t` (R182). -/
def agreementDue (s : State) (t : Stamp) : State :=
  let a := s.ver.armedT - s.leadTime / 2
  if t < a ∧ a ≤ s.now then verAgreementCheck s else s

/-- What device time has passed since `t` is done before anything of a later instant (R26, R27, R34, R288): an agreement, the
epoch's end, a commit and a snapshot. -/
def duePassed (s : State) (t : Stamp) : State := ((s.agreementDue t).epochDue).madeBy (s.now - 1)

/-- Device time advances by one time-domain cycle (R42): what is due at the instant left is done first, and what the cycle has passed
after it. -/
def cycle (s : State) : State := s.dueNow.tick.duePassed s.now

/-- The instant at which a read of function `fn` is served: later than that of its read before (R32), by a cycle where no
time has passed between them (log entry 2). -/
def readInstant (s : State) (fn : Nat) : State :=
  let s := if (s.fnSt fn).servedAt = some s.now then s.cycle else s
  s.onFn fn (fun f => { f with servedAt := some s.now })

/-! ## BAR2 (Tables MAP-8, LOOK-13, LOCK-17, SCHED-22) -/

/-- The 64-byte image of a ternary row (Table LOOK-13). -/
def rowImage (r : TcRow) : Bytes :=
  be 20 r.value ++ be 20 r.care ++ le 8 r.action ++ le 2 r.vfrom ++ le 2 r.vuntil ++ le 1 (b2n r.valid + 2 * b2n r.immediate + 4 * b2n r.hit)
    ++ zeros 11

/-- The byte at `a` of an array of `w`-byte entries. -/
def entryByte (f : Nat → Bytes) (w a : Nat) : Nat := byteAt (f (a / w)) (a % w)

/-- The byte at offset `a` of the read-only table windows. -/
def tableByte (s : State) (a : Nat) : Nat :=
  if a < 0x0400_0000 then entryByte (fun i => emBytes (mget {} s.tab.em i)) 32 a
  else if a < 0x0402_0000 then entryByte (fun i => emBytes (mget {} s.tab.stash i)) 32 (a - 0x0400_0000)
  else if a < 0x0500_0000 then 0
  else if a < 0x0700_0000 then entryByte (fun i => rowImage (mget {} s.tab.tc i)) 64 (a - 0x0500_0000)
  else if a < 0x0740_0000 then entryByte (fun i => le 16 (mget 0 s.tab.nh i)) 16 (a - 0x0700_0000)
  else if a < 0x0742_0000 then entryByte (fun i => le 2 (mget 0 s.tab.sel i)) 2 (a - 0x0740_0000)
  else if a < 0x0742_4000 then entryByte (fun i => le 4 (mget 0 s.tab.vlan i)) 4 (a - 0x0742_0000)
  else if a < 0x0742_4800 then entryByte (fun i => le 8 (mget 0 s.tab.smac i)) 8 (a - 0x0742_4000)
  else if a < 0x0742_8800 then entryByte (fun i => le 64 (mget 0 s.tab.tun i)) 64 (a - 0x0742_4800)
  else if a < 0x0744_0000 then 0
  else if a < 0x0764_0000 then entryByte (fun i => slotBytes (s.slotAt i)) 16 (a - 0x0744_0000)
  else if a < 0x0780_0000 then 0
  else if a < 0x0800_0000 then entryByte (fun i => le 4 (mget 0 s.egr.lists i)) 4 (a - 0x0780_0000)
  else if a < 0x0900_0000 then entryByte (fun i => meterBytes (s.meterAt i)) 16 (a - 0x0800_0000)
  else if a < 0x0902_0000 then
    entryByte (fun i => le 8 (s.mtrProfile i).1 ++ le 8 (s.mtrProfile i).2 ++ zeros 16) 32 (a - 0x0900_0000)
  else 0

/-- Whether a double-bit error that is not restored leaves the byte at table offset `a` open (R149). -/
def tableBad (s : State) (a : Nat) : Bool :=
  s.tab.bad.any (fun b =>
    if b.mem = 0 then a / 128 == b.index && decide (a < 0x0400_0000)
    else if b.mem = 1 then decide (0x0400_0000 ≤ a ∧ a < 0x0402_0000) && (a - 0x0400_0000) / 32 == b.index
    else if b.mem = 2 then
      decide (0x0500_0000 ≤ a ∧ a < 0x0700_0000) && (a - 0x0500_0000) / 64 == b.index && decide (40 ≤ a % 64 ∧ a % 64 < 48)
    else decide (0x0700_0000 ≤ a ∧ a < 0x0740_0000) && (a - 0x0700_0000) / 16 == b.index)

/-- An 8-byte unit of the scratchpad window: its value, whether it is poisoned, and the state after the access; `ecc` is 1
for a single-bit and 2 for a double-bit error in the word (R428, R431, R432). -/
def scpWindow (s : State) (a ecc : Nat) : Nat × Bool × State :=
  let b := scpBank a
  let s := s.count (Ctr.SCP_ACCESSES b)
  let s := if ecc = 1 then s.count Ctr.SCP_CORRECTED else if ecc = 2 then s.raise Src.SCP_ECC (a / 8) else s
  if ecc = 2 || s.scp.bad.contains (2048 * b + bits a 16 0 / 64) then
    let (x, s) := s.takeFree 64
    (x, true, s)
  else (s.scpWord a, false, s)

/-- An 8-byte unit of the capture window, read with the error `ecc` (R422, R426): its value, whether it is poisoned, and the state
after. -/
def captureWindow (s : State) (a ecc : Nat) : Nat × Bool × State :=
  let o := 2 ^ 30 * s.fld Reg.HBM_CAP_WIN F.HBM_CAP_WIN.SEG + a
  if s.captureSize ≤ o then (0, false, s)
  else
    let d := 4096 * s.fld Reg.HBM_CAP_RING F.HBM_CAP_RING.BASE + o
    let s := (s.hbmRead 3 d 8).hbmError d ecc
    if ecc = 2 then
      let (x, s) := s.takeFree 64
      (x, true, s)
    else (leNat (s.captureRead o 8), false, s)

/-- The 8-byte unit at BAR2 offset `a` (R502). -/
def readBar2 (s : State) (a ecc : Nat) : Nat × Bool × State :=
  if 0x1000_0000 ≤ a ∧ a < 0x1200_0000 then s.scpWindow (a - 0x1000_0000) ecc
  else if 0x4000_0000 ≤ a ∧ a < 0x8000_0000 then s.captureWindow (a - 0x4000_0000) ecc
  else if (List.range 8).any (fun i => s.tableBad (a + i)) then
    let (x, s) := s.takeFree 64
    (x, false, s)
  else (leNat ((List.range 8).map (fun i => BitVec.ofNat 8 (s.tableByte (a + i)))), false, s)

/-! ## BAR4 (R302, R306, R503) -/

/-- The 8-byte unit at BAR4 offset `a`, read with the error `ecc`: the bytes of ring slot `a / 4096` as read, zero from slot SIZE
on (R300, R302, R422). -/
def readBar4 (s : State) (a ecc : Nat) : Nat × State :=
  let k := a / 4096
  let size := s.fld Reg.WIT_RING_CFG F.WIT_RING_CFG.SIZE
  if size ≤ k then (0, s)
  else
    let d := s.ringAddr k + a % 4096
    let s := (s.hbmRead 3 d 8).hbmError d ecc
    if ecc = 2 then
      let wr := s.rd Reg.WIT_RING_WR
      let (x, s) := s.takeFree 64
      (x, s.raise Src.WIT_RING_ECC ((wr - 1 - (wr - 1 - k) % size) % 2 ^ 32))
    else (leAt (s.ringUnit k) (a % 4096) 8, s)

/-! ## A host read -/

/-- The protection table's kind of a BAR (Table SEC-5). -/
def barKind (bar : Nat) : Nat := if bar = 0 then 1 else if bar = 2 then 2 else 3

/-- The size of a BAR of function `fn` in bytes; 0 where the function has none (Table HOST-1). -/
def barSize (fn bar : Nat) : Nat :=
  if bar = 0 then 0x0400_0000
  else if 2 ≤ fn then 0
  else if bar = 2 then 0x1_0000_0000
  else if bar = 4 then 0x8_0000_0000
  else 0

/-- The 8-byte units `u`, `u + 1`, … read one by one: their bytes, whether one was poisoned, and the state after. -/
def readUnits (fn bar : Nat) (ecc : List Nat) : Nat → Nat → State → Bytes × Bool × State
  | 0, _, s => ([], false, s)
  | n + 1, u, s =>
    let a := 8 * u
    let (v, p, s) :=
      if bar = 0 then (let (v, s) := s.readReg fn a; (v, false, s))
      else if bar = 2 then s.readBar2 a (ecc.headD 0)
      else (let (v, s) := s.readBar4 a (ecc.headD 0); (v, false, s))
    let (bs, q, s) := readUnits fn bar (ecc.drop 1) n (u + 1) s
    (le 8 v ++ bs, p || q, s)

/-- Whether the read of BAR0 offset `off` is one of HIF_READ_TIME or HIF_READ_TIME_HI, which do not count (R392). -/
def timeRead (off : Nat) : Bool :=
  (Reg.HIF_READ_TIME ≤ off && decide (off < Reg.HIF_READ_TIME + 8)) || (Reg.HIF_READ_TIME_HI ≤ off && decide (off < Reg.HIF_READ_TIME_HI + 8))

/-- A read of `len` bytes at offset `off` of a BAR by function `fn` (R10, R31, R359, R360, R392, R500, R502, R503): every
byte needs the right to be read, or the completion's data is zero and the read counts as one denial. -/
def serveRead (s : State) (fn bar off len : Nat) (ecc : List Nat) : State :=
  let by_ : Agent := .host fn
  let s := s.touch by_
  if barSize fn bar < off + len ∨ len = 0 then s.emit (.unsupported fn)
  else
    let u := off / 8
    let n := (off + len + 7) / 8 - u
    let k := barKind bar
    let s := s.readInstant fn
    let s := if bar = 4 ∨ (bar = 0 ∧ timeRead off) then s else s.stampRead fn
    match (List.range n).find? (fun i => !(s.permits (s.roleOf by_) k (u + i) 0)) with
    | some i => (s.deny (s.roleOf by_) k (u + i)).emit (.readCpl fn (zeros len) false)
    | none =>
      let (bs, p, s) := readUnits fn bar ecc n u s
      s.emit (.readCpl fn (sub bs (off % 8) len) p)

/-- The hottest die sensor's last reading, °C. -/
def hottestDie (s : State) : Nat := (List.range 96).foldl (fun a i => max a (s.fld (Reg.CND_CANDLE i) F.CND_CANDLE.TEMP_C)) 0

/-- The hotter HBM stack's temperature, °C. -/
def hottestHbm (s : State) : Nat := max (s.fld (Reg.HBM_STAT 0) F.HBM_STAT.TEMP_C) (s.fld (Reg.HBM_STAT 1) F.HBM_STAT.TEMP_C)

/-- The value an SMBus command code returns (Table ELEC-7). -/
def smbusValue (s : State) (code : Nat) : Option Nat :=
  if code = 1 then some (s.regValue 0 Reg.CFG_READY)
  else if code = 2 then some (s.regValue 0 Reg.FLT_STATUS)
  else if code = 3 then some (s.regValue 0 Reg.TIM_STATE)
  else if code = 4 then some (s.regValue 0 Reg.CND_PLAN)
  else if code = 5 then some (s.regValue 0 Reg.CND_LIFE)
  else if code = 6 then some (s.hottestDie + 256 * s.hottestHbm)
  else if code = 7 then some (s.regValue 0 Reg.CFG_BOOT_STAT)
  else if code = 8 then some (s.regValue 0 (Reg.SEC_ID 0))
  else if code = 9 then some (s.regValue 0 (Reg.SEC_ID 1))
  else none

end State

open State

/-- A host read of BAR0, BAR2 or BAR4 (R392); `ecc` names the errors found in the scratchpad words read. -/
def hostRead (fn bar off len : Nat) (ecc : List Nat) (s : State) : State :=
  if 64 ≤ fn || !(s.fnOn fn) then s else s.serveRead fn bar off len ecc

/-- A 64-bit read of TIM_NOW_LO by function `fn` (R500). -/
def timNowLoRead (fn : Nat) (s : State) : State :=
  if 64 ≤ fn || !(s.fnOn fn) then s else s.serveRead fn 0 Reg.TIM_NOW_LO 8 []

/-- A 64-bit read of FWD_CLAIM_TRY(r) by function `fn` (R161). -/
def claimTryRead (fn r : Nat) (s : State) : State :=
  if 64 ≤ fn || 64 ≤ r || !(s.fnOn fn) then s else s.serveRead fn 0 (Reg.FWD_CLAIM_TRY r) 8 []

/-- An AtomicOp other than a 64-bit Swap to FWD_CLAIM completes with Unsupported Request (R388). -/
def atomicopUnsupported (fn : Nat) (s : State) : State :=
  if 64 ≤ fn || !(s.fnOn fn) then s else (s.touch (.host fn)).emit (.unsupported fn)

/-- An SMBus Block Read of command `code`, from 50 ms after the device has left reset; any other code is not acknowledged
(R493). -/
def smbusRead (code : Nat) (s : State) : State :=
  if !s.boot.running || decide (s.now < s.boot.leftAt + 50 * millisecond) then s
  else match s.smbusValue code with
    | some v => s.emit (.smbus (le 8 v))
    | none => s

end Sys2Proof.Machine
end

