-- ==== Sys2Proof/WellFormed.lean ====
section
/-! DEFINITION. Which commands are well formed: their numbers name something the device has. -/
namespace Sys2Proof

/-- The candles (R460): 0 to 95. -/
def isCandle (x : Nat) : Bool := decide (x < 96)

/-- The traffic classes (R208): 0 to 7. -/
def isClass (x : Nat) : Bool := decide (x < 8)

/-- The customer banks, and 2 for the vendor region (R125): 0 to 2. -/
def isCsBank (x : Nat) : Bool := decide (x < 3)

/-- The control-store words (R125): 0 to 16383. -/
def isCsWord (x : Nat) : Bool := decide (x < 16384)

/-- The DMA channels (R395): 0 to 15. -/
def isDmaChannel (x : Nat) : Bool := decide (x < 16)

/-- The event queues (R403): 0 to 127. -/
def isEventQueue (x : Nat) : Bool := decide (x < 128)

/-- The line port numbers (R76): 0 to 511. -/
def isFrontPort (x : Nat) : Bool := decide (x < 512)

/-- The PCI Express functions (Table HOST-1): 0 to 63. -/
def isFunction (x : Nat) : Bool := decide (x < 64)

/-- The gate list entries (R238): 0 to 255. -/
def isGateEntry (x : Nat) : Bool := decide (x < 256)

/-- The keeper cores (R464): 0 to 3. -/
def isKeeperCore (x : Nat) : Bool := decide (x < 4)

/-- The lane numbers (R76): 0 to 513. -/
def isLane (x : Nat) : Bool := decide (x < 514)

/-- The system identifiers (R309): 0 to 511. -/
def isMember (x : Nat) : Bool := decide (x < 512)

/-- The octets (R77): 0 to 63. -/
def isOctet (x : Nat) : Bool := decide (x < 64)

/-- The buffer pools (R194): 0 to 3. -/
def isPool (x : Nat) : Bool := decide (x < 4)

/-- The port numbers (R76): 0 to 513. -/
def isPort (x : Nat) : Bool := decide (x < 514)

/-- The PPS inputs and outputs (R47, R48): 0 to 1. -/
def isPps (x : Nat) : Bool := decide (x < 2)

/-- The profiles of a slice (PRS_PROFILE): 0 to 15. -/
def isProfile (x : Nat) : Bool := decide (x < 16)

/-- The DRAM pseudo-channels (R414): 0 to 63. -/
def isPseudoChannel (x : Nat) : Bool := decide (x < 64)

/-- The push rings (R301): 0 to 7. -/
def isPushRing (x : Nat) : Bool := decide (x < 8)

/-- The lamplighter quads (R50): 0 to 128. -/
def isQuad (x : Nat) : Bool := decide (x < 129)

/-- The queues (R208): 0 to 67839. -/
def isQueue (x : Nat) : Bool := decide (x < 67840)

/-- The claim registers (R161): 0 to 63. -/
def isRegion (x : Nat) : Bool := decide (x < 64)

/-- The ternary rows (R151): 0 to 524287. -/
def isRow (x : Nat) : Bool := decide (x < 524288)

/-- The samplers (R477): 0 to 7. -/
def isSampler (x : Nat) : Bool := decide (x < 8)

/-- The scratchpad banks (R427): 0 to 255. -/
def isScpBank (x : Nat) : Bool := decide (x < 256)

/-- The slices (R13): 0 to 15. -/
def isSlice (x : Nat) : Bool := decide (x < 16)

/-- The DRAM stacks (R414): 0 to 1. -/
def isStack (x : Nat) : Bool := decide (x < 2)

/-- The FLT_STICKY registers (Table FLT-10): 0 to 23. -/
def isStickyWord (x : Nat) : Bool := decide (x < 24)

/-- The senders of register accesses from outside the loader: a function of the host link or a keeper core (R356). -/
def Agent.isSender : Agent → Bool
  | .host fn => isFunction fn
  | .keeper core => isKeeperCore core
  | .loader => false

/-- The well-formed commands. -/
def Instr.wellFormed : Instr → Bool
  | .registerWrite by_ _ _ _ => by_.isSender
  | .timNowLoRead fn => isFunction fn
  | .atomicopUnsupported fn => isFunction fn
  | .powerOnReset _ _ _ => true
  | .pinReset => true
  | .leaveReset _ _ => true
  | .chipReset by_ _ => by_.isSender
  | .blockReset by_ _ => by_.isSender
  | .blockResetDone _ => true
  | .imageHeaderRead _ _ => true
  | .imageVerified _ => true
  | .vendorSectionDecrypt _ _ _ _ _ => true
  | .regsSectionLoad _ _ _ => true
  | .hbmTrainingDone _ => true
  | .keeperStart => true
  | .keeperStartTimeout => true
  | .secReadyTimeout => true
  | .cmdsSectionsDone => true
  | .nvmRead by_ _ => by_.isSender
  | .nvmErase by_ _ => by_.isSender
  | .nvmProgram by_ _ => by_.isSender
  | .nvmCmdInvalid by_ _ => by_.isSender
  | .nvmOpDone _ _ => true
  | .bootSelectorWrite by_ _ => by_.isSender
  | .timStep by_ _ => by_.isSender
  | .timSlew by_ _ => by_.isSender
  | .timIncr by_ _ => by_.isSender
  | .ptpServoUpdate by_ _ => by_.isSender
  | .ppsEdge i _ => isPps i
  | .ppsMissing i => isPps i
  | .freqCompare _ _ => true
  | .servoUpdateTimeout => true
  | .holdoverSecond => true
  | .refRevert => true
  | .freeRun by_ _ => by_.isSender
  | .wickPulseLaunch => true
  | .wickPulseArrival q _ _ => isQuad q
  | .wickEcho q _ => isQuad q
  | .calRemeasure l _ _ _ => isLane l
  | .calSlewStep => true
  | .calAgeStale l => isLane l
  | .timApply by_ _ => by_.isSender
  | .prtApply by_ _ => by_.isSender
  | .prsApply by_ _ => by_.isSender
  | .xmtApply by_ _ => by_.isSender
  | .tcmApply by_ _ => by_.isSender
  | .fwdApply by_ _ => by_.isSender
  | .mtrApply by_ _ => by_.isSender
  | .queApply by_ _ => by_.isSender
  | .schApply by_ _ => by_.isSender
  | .lckApply by_ _ => by_.isSender
  | .witApply by_ _ => by_.isSender
  | .towApply by_ _ => by_.isSender
  | .hbmApply by_ _ => by_.isSender
  | .prtCfgWrite by_ p _ => by_.isSender && isPort p
  | .prtOctetWrite by_ o _ => by_.isSender && isOctet o
  | .portDisable by_ p => by_.isSender && isPort p
  | .portHalted p => isPort p
  | .anAttempt p _ _ => isPort p
  | .linkUp p _ _ => isPort p
  | .linkDown p => isPort p
  | .cdrLoss l _ => isLane l
  | .alignLost p _ => isPort p
  | .frameReceive port lane _ _ _ _ => isPort port && isLane lane
  | .rxFrameEnd port _ _ => isPort port
  | .frameReady port _ => isPort port
  | .bargeDispatch sl => isSlice sl
  | .nop _ _ => true
  | .mov _ _ => true
  | .add _ _ => true
  | .sub _ _ => true
  | .and _ _ => true
  | .or _ _ => true
  | .xor _ _ => true
  | .shl _ _ => true
  | .shr _ _ => true
  | .cmp _ _ => true
  | .cmpm _ _ => true
  | .mwr _ _ => true
  | .msg _ _ _ => true
  | .setlen _ _ => true
  | .lkup _ _ => true
  | .scprd _ _ _ _ _ => true
  | .scpadd _ _ _ _ _ => true
  | .scpswp _ _ _ _ _ => true
  | .csum _ _ => true
  | .call _ _ => true
  | .ret _ _ => true
  | .loop _ _ => true
  | .djnz _ _ => true
  | .switch _ _ => true
  | .mwDone _ _ => true
  | .abort _ _ => true
  | .rtt _ _ _ _ => true
  | .reservedOpcode _ _ => true
  | .lkupResult _ _ _ => true
  | .scpStallTimeout _ => true
  | .poisonArrival _ _ _ => true
  | .samplingRequest _ _ => true
  | .trapEntry _ _ _ => true
  | .runLimit _ => true
  | .manifestRelease port => isPort port
  | .prsProfileWrite by_ sl i _ => by_.isSender && isSlice sl && isProfile i
  | .prsCsBankWrite by_ _ => by_.isSender
  | .oldBankDrained => true
  | .ucodeLoadGo by_ _ => by_.isSender
  | .ucodePackageFetched _ _ => true
  | .ucodeLoadComplete _ => true
  | .csBackgroundCheck sl bank w _ => isSlice sl && isCsBank bank && isCsWord w
  | .csRestoreDone sl bank w => isSlice sl && isCsBank bank && isCsWord w
  | .packetLookup _ _ => true
  | .meterCharge _ _ => true
  | .meterSweep => true
  | .bufferAdmit sl _ _ _ => isSlice sl
  | .cacheRefill sl k _ => isSlice sl && isPool k
  | .cacheSpill sl k => isSlice sl && isPool k
  | .bufferFree sl _ pool _ => isSlice sl && isPool pool
  | .auditPass => true
  | .queHaltWrite by_ _ => by_.isSender
  | .pfcFrameTransmit p lane _ _ => isPort p && isLane lane
  | .pfcRepeat p c => isPort p && isClass c
  | .pfcHoldExpiry p c => isPort p && isClass c
  | .pfcFrameReceive p _ _ _ => isPort p
  | .pauseExpiry p c => isPort p && isClass c
  | .schPfcLong p c => isPort p && isClass c
  | .offerArrival q => isQueue q
  | .schedulerGrant p _ _ _ => isPort p
  | .mcastArbiterGrant e _ => isSlice e
  | .replicate e => isSlice e
  | .crossbarArrival p => isPort p
  | .lockRelease p _ _ => isPort p
  | .frameTransmitStart p lane _ _ _ _ => isPort p && isLane lane
  | .frameTransmitEnd p _ => isPort p
  | .shaperRecoveryEnd p => isPort p
  | .gateEntryChange p => isPort p
  | .gateScheduleStart p => isPort p
  | .schGlWrite by_ i _ => by_.isSender && isGateEntry i
  | .emInsert _ _ => true
  | .emDelete _ _ => true
  | .emUpdate _ _ => true
  | .emLookup _ _ => true
  | .tcWrite _ _ => true
  | .tcInvalidate _ _ => true
  | .tcInsertShift _ _ => true
  | .tcMoveStep => true
  | .nhWrite _ _ => true
  | .selWrite _ _ => true
  | .vlanWrite _ _ => true
  | .smacWrite _ _ => true
  | .tunWrite _ _ => true
  | .replListWrite _ _ => true
  | .replGroupWrite _ _ => true
  | .replGroupRead _ _ => true
  | .mtrProfWrite _ _ => true
  | .mtrSet _ _ => true
  | .mtrRead _ _ => true
  | .tableCmdBadOp _ _ => true
  | .fwdRingTailWrite by_ _ => by_.isSender
  | .tableRestoreDone _ _ => true
  | .tcmScrub e _ => isRow e
  | .claimSwap by_ r _ => by_.isSender && isRegion r
  | .claimWrite by_ r _ => by_.isSender && isRegion r
  | .claimTryRead fn _ => isFunction fn
  | .claimForce by_ _ => by_.isSender
  | .verOpen by_ => by_.isSender
  | .verArm by_ => by_.isSender
  | .verAbortAll by_ => by_.isSender
  | .verAbortOpen by_ => by_.isSender
  | .verCtlInvalid by_ => by_.isSender
  | .verAgreementCheck => true
  | .verCommitInstant => true
  | .verSweepStart _ => true
  | .verRetire => true
  | .epochEnd => true
  | .sealSigned _ => true
  | .witStop by_ => by_.isSender
  | .witStart by_ => by_.isSender
  | .ringUnitWrite _ => true
  | .pushExportUnit _ => true
  | .pushHeadWrite by_ i _ => by_.isSender && isPushRing i
  | .pullHeadWrite by_ _ => by_.isSender
  | .exportFrameTransmit _ _ => true
  | .towPortCfgWrite by_ p _ => by_.isSender && isFrontPort p
  | .towpathDataReceive p _ => isFrontPort p
  | .membershipFrameSend => true
  | .membershipFrameReceive p _ => isFrontPort p
  | .timeFrameSend p lane _ _ => isFrontPort p && isLane lane
  | .timeFrameReceive p _ lane _ _ _ => isFrontPort p && isLane lane
  | .anchorFrameReceive p _ => isFrontPort p
  | .memberTimeout i => isMember i
  | .towFreqCheck p _ => isFrontPort p
  | .towHeal by_ _ => by_.isSender
  | .rejoinInstant => true
  | .secReady _ => true
  | .envFailure => true
  | .periodicSelftest => true
  | .selftestDone _ => true
  | .selftestRetry => true
  | .nonce by_ _ => by_.isSender
  | .secOpen by_ _ => by_.isSender
  | .secClose by_ _ => by_.isSender
  | .ownerInstall by_ _ => by_.isSender
  | .ownerRelease by_ _ => by_.isSender
  | .ldevGen by_ _ => by_.isSender
  | .ldevInstall by_ _ _ => by_.isSender
  | .selftest by_ _ => by_.isSender
  | .zeroise by_ _ => by_.isSender
  | .protCommit by_ _ => by_.isSender
  | .secOpBadOp by_ _ _ => by_.isSender
  | .nonceExpiry => true
  | .lockoutExpiry => true
  | .sessionIdleTimeout => true
  | .attestGo by_ => by_.isSender
  | .pcieLinkChange _ _ _ _ _ => true
  | .perstNAssert => true
  | .functionLevelReset fn => isFunction fn
  | .d3hotEntry fn => isFunction fn
  | .d0Return fn => isFunction fn
  | .dmaEnable by_ c _ => by_.isSender && isDmaChannel c
  | .dmaDescTailWrite by_ c _ => by_.isSender && isDmaChannel c
  | .procCopyDma _ _ _ => true
  | .frameInject c _ _ => isDmaChannel c
  | .dmaCompletion c => isDmaChannel c
  | .dmaError c _ => isDmaChannel c
  | .sourceAssert _ _ => true
  | .evqClaim q _ => isEventQueue q
  | .evqRecordWrite q => isEventQueue q
  | .evqArm by_ q _ => by_.isSender && isEventQueue q
  | .evqEnable by_ q _ => by_.isSender && isEventQueue q
  | .msixSend q => isEventQueue q
  | .keeperInterrupt k _ => isKeeperCore k
  | .hbmRefresh pc _ _ => isPseudoChannel pc
  | .selfRefreshEntry k => isStack k
  | .selfRefreshExit k => isStack k
  | .hbmPatrol _ _ => true
  | .captureWrite _ => true
  | .scpHostWrite fn _ _ _ => isFunction fn
  | .scpHandoverStart by_ b _ => by_.isSender && isScpBank b
  | .scpHandoverDone b => isScpBank b
  | .marchTest _ _ _ => true
  | .keeperCmdWrite by_ k _ _ => by_.isSender && isKeeperCore k
  | .kprWatchdog k => isKeeperCore k
  | .chipReaction => true
  | .faultQuietExpiry _ => true
  | .stickyClear by_ j _ => by_.isSender && isStickyWord j
  | .pairBreak _ => true
  | .lanternMismatch _ _ => true
  | .lanternTest by_ _ => by_.isSender
  | .lanternTestEnd => true
  | .fltInject by_ _ => by_.isSender
  | .factoryTestEntry _ _ => true
  | .jtagInstruction _ => true
  | .ferryEnterRequest by_ _ => by_.isSender
  | .ferryPath port lane _ _ _ _ _ => isPort port && isLane lane
  | .ferryQuietExpiry => true
  | .ferryRelease by_ _ => by_.isSender
  | .candleMeasure _ _ => true
  | .eyeScan l _ => isLane l
  | .replan _ _ => true
  | .replanRequest by_ _ => by_.isSender
  | .avsStep _ => true
  | .tjHigh i _ => isCandle i
  | .snapArm by_ _ => by_.isSender
  | .snapCancel by_ _ => by_.isSender
  | .snapInstant => true
  | .snapWrite _ _ _ => true
  | .samplerOverflow i => isSampler i
  | .sampleTake i _ => isSampler i
  | .samplerCfgWrite by_ i _ => by_.isSender && isSampler i
  | .smbusRead _ => true
  | .hostRead fn _ _ _ _ => isFunction fn
  | .pcieConfigWrite fn _ _ _ => isFunction fn
  | .ppsOutEdge i _ => isPps i
  | .secOpComplete _ _ => true
  | .attestReportDone => true
  | .l12Entry => true

end Sys2Proof
end

