-- ==== Sys2Proof/Machine/Settle.lean ====
section
/-! DEFINITION. What follows every command at once: the reactions of R445, the failure of a load's command (R375), the
member's judgement of the joined system (R330), and the bits of CFG_READY that show other state (R378). And how a command
acts on the state, and what a cycle without a command does. -/
namespace Sys2Proof.Machine
namespace State

/-- Whether an agent issues register accesses: a function of the host link that is enabled (R390), or a keeper core that
runs firmware (R464). -/
def mayIssue (s : State) : Agent → Bool
  | .host fn => isFunction fn && s.fnOn fn
  | .keeper core => isKeeperCore core && s.flag (Reg.KPR_STATUS core) F.KPR_STATUS.RUNNING
  | .loader => false

/-- A load whose table command has failed fails with code 9 (R375). -/
def failLoad (s : State) : State :=
  match s.boot.cmdFail with
  | none => s
  | some i => if s.boot.loading then s.attemptFail 9 (cmdPlace i s.cmdSections).1 (cmdPlace i s.cmdSections).2 else s

/-- Block TOW is at work: EN is in force, or the state is not standalone. -/
def towOn (s : State) : Bool := s.cfgFlag Reg.TOW_CFG F.TOW_CFG.EN || decide (s.towSt ≠ 0)

/-- The bits of CFG_READY that show other state (Table BOOT-6): TIME, SEAL, and TOW once block TOW is in service. `was` is
TOW_STATE.STATE before the command. -/
def syncReady (s : State) (was : Nat) : State :=
  let s := if s.flag Reg.CFG_BOOT_STAT F.CFG_BOOT_STAT.NO_IMAGE then s else s.setReady 6 (decide (2 ≤ s.tq ∧ s.tq ≤ 7))
  let s := s.setReady 8 (s.ready 7 && s.ready 0)
  if !(s.stepDone 115) || (mfind s.boot.resetting 15).isSome then s
  else if s.towSt ≠ 0 then s.setReady 11 (s.towSt == 2)
  else if was ≠ 0 then s.setReady 11 true else s

/-- Whether an output goes to the host over PCI Express. -/
def hostBound : Output → Bool
  | .readCpl _ _ _ => true
  | .unsupported _ => true
  | .hostWrite _ _ _ => true
  | .eventRecord _ _ _ _ => true
  | .msix _ _ => true
  | .pme _ => true
  | .swapCpl _ _ => true
  | _ => false

/-- The link leaves L1.2 for a delivery (R393). -/
def leaveL12 (s : State) (sent : Nat) : State :=
  if s.hif.l12 && (s.out.drop sent).any hostBound then { s with hif := { s.hif with l12 := false } } else s

/-- Everything a command has made due, performed before the next command. -/
def settle (s0 s : State) : State :=
  let s := (reactions 4096 s).failLoad
  let s := if s.towOn then s.towJudge else s
  let s := reactions 4096 (s.syncReady s0.towSt)
  s.leaveL12 s0.out.length

/-- The state that a command which has led from `s0` to `s` leaves: what is due is done, and the queue and the levels of
PWR_OK and RESET_N are as they were. -/
def finish (s0 s : State) : State := { settle s0 s with pending := s0.pending, pins := s0.pins }

/-- A command's effect, where its numbers name something the device has (`ok`) and the device is not held in reset (R486). -/
def act (ok : Bool) (f : State → State) (s : State) : Host.Outcome State Fault Refusal :=
  .next (if s.inReset || !ok then s else finish s (f s))

/-- The effect of an edge of PWR_OK or RESET_N, or of an instruction of the test access port, which acts in reset too; the
levels of the two pins are those it leaves. -/
def actHeld (f : State → State) (s : State) : Host.Outcome State Fault Refusal :=
  let t := f s
  .next (if t.inReset then { t with pending := s.pending } else { finish s t with pins := t.pins })

/-- Keeper firmware takes one learn notice from the FIFO (R163). -/
def keeperLearn (s : State) : State :=
  if s.ready 5 && !s.tab.learnFifo.isEmpty then
    let rest := s.tab.learnFifo.drop 1
    ({ s with tab := { s.tab with learnFifo := rest } }).setFld Reg.XMT_LEARN_STAT F.XMT_LEARN_STAT.LEVEL rest.length
  else s

/-- A cycle without a command: device time advances by one time-domain cycle (R42), what is due at the two instants being done, and
keeper firmware takes one word of each core's command FIFO and one learn notice (log entry 2). -/
def idle (s : State) : State :=
  if s.inReset then s
  else finish s (((List.range 4).foldl keeperTake s.cycle).keeperLearn)

end State

open State

/-- A frame's first bit crosses a receive ball (R55): a commit at or before its stamp comes first (R27). -/
def frameArrives (port lane d : Nat) (phi : Int) (n d0 : Nat) (s : State) : State :=
  frameReceive port lane d phi n d0 (s.commitDue (s.rxStamp port lane d phi n))

end Sys2Proof.Machine
end

