-- ==== Sys2Proof/Machine/RunBoot.lean ====
section
/-! DEFINITION. The meanings of the commands of start-up, resets and the NVM. -/
namespace Sys2Proof.Machine

open State

/-- POWER_ON_RESET (R382): PWR_OK asserts or falls and all on-chip state, SEC volatile state included, is reset and
the image reloaded. -/
def execPowerOnReset (pwrOk : Bool) (resetN : Bool) (gpio : Nat) (s : State) : Host.Outcome State Fault Refusal :=
  s.actHeld (powerOnReset pwrOk resetN gpio)

/-- PIN_RESET (R382): RESET_N low with PWR_OK high resets all on-chip state and reloads the image. -/
def execPinReset (s : State) : Host.Outcome State Fault Refusal :=
  s.actHeld pinReset

/-- LEAVE_RESET (R486): At the later of PWR_OK and RESET_N rising the device leaves reset and start-up begins. -/
def execLeaveReset (vFuse : Nat) (factory : List Nat) (s : State) : Host.Outcome State Fault Refusal :=
  s.actHeld (leaveReset vFuse factory)

/-- CHIP_RESET (R382): A write of 1 to CFG_RESET.CHIP resets the whole chip and reloads the image. -/
def execChipReset (by_ : Agent) (v : Word64) (s : State) : Host.Outcome State Fault Refusal :=
  s.act (s.mayIssue by_) (chipResetWrite by_ v)

/-- BLOCK_RESET (R383): A write of 1 to CFG_RESET.BLK resets the named block, drops its packets and reapplies its
sections. -/
def execBlockReset (by_ : Agent) (v : Word64) (s : State) : Host.Outcome State Fault Refusal :=
  s.act (s.mayIssue by_) (blockResetWrite by_ v)

/-- BLOCK_RESET_DONE (R383): A reset block's sections have been reapplied from the DRAM copy and its ready bits set
again. -/
def execBlockResetDone (b : Nat) (s : State) : Host.Outcome State Fault Refusal :=
  s.act (true) (blockResetDone b)

/-- IMAGE_HEADER_READ (R370): The loader reads the image header, section table and signature from the preferred
slot. -/
def execImageHeaderRead (ok : Bool) (bytes : Bytes) (s : State) : Host.Outcome State Fault Refusal :=
  s.act (true) (imageHeaderRead ok bytes)

/-- IMAGE_VERIFIED (R371): The security module's verification of the image completes and the image is accepted or
the attempt fails. -/
def execImageVerified (ok : Bool) (s : State) : Host.Outcome State Fault Refusal :=
  s.act (true) (imageVerified ok)

/-- VENDOR_SECTION_DECRYPT (R373): A vendor section's wrapper is verified, its ciphertext decrypted and its
plaintext digest checked. -/
def execVendorSectionDecrypt (i : Nat) (bytes : Bytes) (sigOk : Bool) (plain : Option Bytes) (exports : List Word64) (s : State) : Host.Outcome State Fault Refusal :=
  s.act (true) (vendorSectionDecrypt i bytes sigOk plain exports)

/-- REGS_SECTION_LOAD (R374): The loader writes a REGS section's entries, applies the block and starts it. -/
def execRegsSectionLoad (i : Nat) (bytes : Bytes) (sigOk : Bool) (s : State) : Host.Outcome State Fault Refusal :=
  s.act (true) (regsSectionLoad i bytes sigOk)

/-- HBM_TRAINING_DONE (R376): Both HBM stacks finish training and the verified image is copied to the copy region. -/
def execHbmTrainingDone (ok : Bool) (s : State) : Host.Outcome State Fault Refusal :=
  s.act (true) (hbmTrainingDone ok)

/-- KEEPER_START (R376): Keeper firmware is loaded and the keeper cores start. -/
def execKeeperStart (s : State) : Host.Outcome State Fault Refusal :=
  s.act true keeperStart

/-- KEEPER_START_TIMEOUT (R376): Keeper firmware has not started within 100 ms and the load fails with code 11. -/
def execKeeperStartTimeout (s : State) : Host.Outcome State Fault Refusal :=
  s.act true keeperStartTimeout

/-- SEC_READY_TIMEOUT (R376): The security module is not ready within 1 s and the load fails with code 13. -/
def execSecReadyTimeout (s : State) : Host.Outcome State Fault Refusal :=
  s.act true secReadyTimeout

/-- CMDS_SECTIONS_DONE (R375): The last table command of the image completes and TABLES sets. -/
def execCmdsSectionsDone (s : State) : Host.Outcome State Fault Refusal :=
  s.act true cmdsSectionsDone

/-- NVM_READ (R384): CFG_NVM_CMD operation 1 reads NVM bytes to PF0 host memory. -/
def execNvmRead (by_ : Agent) (v : Word64) (s : State) : Host.Outcome State Fault Refusal :=
  s.act (s.mayIssue by_) (nvmRead by_ v)

/-- NVM_ERASE (R384): CFG_NVM_CMD operation 2 erases NVM in 64 KiB units unless the area is protected. -/
def execNvmErase (by_ : Agent) (v : Word64) (s : State) : Host.Outcome State Fault Refusal :=
  s.act (s.mayIssue by_) (nvmErase by_ v)

/-- NVM_PROGRAM (R384): CFG_NVM_CMD operation 3 programs NVM from host memory within one erased page group. -/
def execNvmProgram (by_ : Agent) (v : Word64) (s : State) : Host.Outcome State Fault Refusal :=
  s.act (s.mayIssue by_) (nvmProgram by_ v)

/-- NVM_CMD_INVALID (R384): A CFG_NVM_CMD write with any other operation completes with RANGE. -/
def execNvmCmdInvalid (by_ : Agent) (v : Word64) (s : State) : Host.Outcome State Fault Refusal :=
  s.act (s.mayIssue by_) (nvmCmdInvalid by_ v)

/-- NVM_OP_DONE (R384): An NVM operation completes and raises CFG_NVM_DONE with its status. -/
def execNvmOpDone (status : Nat) (data : Bytes) (s : State) : Host.Outcome State Fault Refusal :=
  s.act (true) (nvmOpDone status data)

/-- BOOT_SELECTOR_WRITE (R369): A write of PREF or TRY_OTHER stores them in the boot selector. -/
def execBootSelectorWrite (by_ : Agent) (v : Word64) (s : State) : Host.Outcome State Fault Refusal :=
  s.act (s.mayIssue by_) (bootSelectorWrite by_ v)

end Sys2Proof.Machine
end

