-- ==== Sys2Proof/Machine/RunCounters.lean ====
section
/-! DEFINITION. The meanings of the commands of counters and snapshots. -/
namespace Sys2Proof.Machine

open State

/-- SNAP_ARM (R471): A write of PMC_SNAP_CTL.ARM arms a snapshot at T or is refused. -/
def execSnapArm (by_ : Agent) (v : Word64) (s : State) : Host.Outcome State Fault Refusal :=
  s.act (s.mayIssue by_) (snapArm by_ v)

/-- SNAP_CANCEL (R471): A write of PMC_SNAP_CTL.CANCEL ends an armed snapshot not yet at T. -/
def execSnapCancel (by_ : Agent) (v : Word64) (s : State) : Host.Outcome State Fault Refusal :=
  s.act (s.mayIssue by_) (snapCancel by_ v)

/-- SNAP_INSTANT (R472): Snapshot instant T arrives and each block in the mask freezes its counters. -/
def execSnapInstant (s : State) : Host.Outcome State Fault Refusal :=
  s.act true snapInstant

/-- SNAP_WRITE (R473): All block copies close and the snapshot is written to the channel's next descriptor or
discarded. -/
def execSnapWrite (addr : Nat) (len : Nat) (dmaError : Nat) (s : State) : Host.Outcome State Fault Refusal :=
  s.act (true) (snapWrite addr len dmaError)

/-- SAMPLER_OVERFLOW (R477): A sampler's count reaches PERIOD, restarts and requests a sample. -/
def execSamplerOverflow (i : Nat) (s : State) : Host.Outcome State Fault Refusal :=
  s.act (isSampler i) (samplerOverflow i)

/-- SAMPLE_TAKE (R477): A sample record of a later packet is written to the sample ring or lost. -/
def execSampleTake (i : Nat) (id : Option Nat) (s : State) : Host.Outcome State Fault Refusal :=
  s.act (isSampler i) (sampleTake i id)

/-- SAMPLER_CFG_WRITE (R477): A write to PMC_SAMPLE_CFG restarts the sampler's count. -/
def execSamplerCfgWrite (by_ : Agent) (i : Nat) (v : Word64) (s : State) : Host.Outcome State Fault Refusal :=
  s.act (s.mayIssue by_ && isSampler i) (samplerCfgWrite by_ i v)

end Sys2Proof.Machine
end

