-- ==== Sys2Proof/Machine/RunFaults.lean ====
section
/-! DEFINITION. The meanings of the commands of faults, ferry mode, ageing and keeper cores. -/
namespace Sys2Proof.Machine

open State

/-- SOURCE_ASSERT (R444): A fault or event source asserts, its sticky bit and fault state are set and reactions
performed. -/
def execSourceAssert (n : Nat) (payload : Nat) (s : State) : Host.Outcome State Fault Refusal :=
  s.act (true) (sourceAssert n payload)

/-- KEEPER_CMD_WRITE (R464): A write to KPR_CMD_DATA enters a word in the keeper command FIFO or sets OVERRUN. -/
def execKeeperCmdWrite (by_ : Agent) (k : Nat) (v : Word64) (poison : Bool) (s : State) : Host.Outcome State Fault Refusal :=
  s.act (s.mayIssue by_ && isKeeperCore k) (keeperCmdWrite by_ k v poison)

/-- KPR_WATCHDOG (R464): Keeper firmware has not written KPR_STATUS within TIMEOUT_MS and the watchdog fires. -/
def execKprWatchdog (k : Nat) (s : State) : Host.Outcome State Fault Refusal :=
  s.act (isKeeperCore k) (kprWatchdog k)

/-- CHIP_REACTION (R445): 20 µs after a CHIP-reacting assertion the chip resets. -/
def execChipReaction (s : State) : Host.Outcome State Fault Refusal :=
  s.act true chipReaction

/-- FAULT_QUIET_EXPIRY (R446): QUIET_MS pass without assertion and the source leaves its fault state. -/
def execFaultQuietExpiry (n : Nat) (s : State) : Host.Outcome State Fault Refusal :=
  s.act (true) (faultQuietExpiry n)

/-- STICKY_CLEAR (R446): A write of 1 to an FLT_STICKY bit clears it and withdraws any pending request. -/
def execStickyClear (by_ : Agent) (j : Nat) (v : Word64) (s : State) : Host.Outcome State Fault Refusal :=
  s.act (s.mayIssue by_ && isStickyWord j) (stickyClear by_ j v)

/-- PAIR_BREAK (R448): A source's wire pair carries equal levels on two samples and is treated as broken. -/
def execPairBreak (n : Nat) (s : State) : Host.Outcome State Fault Refusal :=
  s.act (true) (pairBreak n)

/-- LANTERN_MISMATCH (R449): A lantern ball reads back a level different from the one driven. -/
def execLanternMismatch (pos : Bool) (neg : Bool) (s : State) : Host.Outcome State Fault Refusal :=
  s.act (true) (lanternMismatch pos neg)

/-- LANTERN_TEST (R450): A Warden write of FLT_CTL.LANTERN_TEST drives the lantern to fault for 100 ms. -/
def execLanternTest (by_ : Agent) (v : Word64) (s : State) : Host.Outcome State Fault Refusal :=
  s.act (s.mayIssue by_) (lanternTest by_ v)

/-- LANTERN_TEST_END (R450): The 100 ms lantern test ends. -/
def execLanternTestEnd (s : State) : Host.Outcome State Fault Refusal :=
  s.act true lanternTestEnd

/-- FLT_INJECT (R451): A write of FLT_INJECT.GO in factory test mode asserts the named source. -/
def execFltInject (by_ : Agent) (v : Word64) (s : State) : Host.Outcome State Fault Refusal :=
  s.act (s.mayIssue by_) (fltInject by_ v)

/-- FACTORY_TEST_ENTRY (R451): Factory test mode is entered or left through the test access port and witnessed. -/
def execFactoryTestEntry (enter : Bool) (unlock : Bool) (s : State) : Host.Outcome State Fault Refusal :=
  s.act (true) (factoryTestEntry enter unlock)

/-- JTAG_INSTRUCTION (R494): A test access port instruction is loaded, pin-controlling ones acting only while
RESET_N is low. -/
def execJtagInstruction (i : TapInstr) (s : State) : Host.Outcome State Fault Refusal :=
  s.actHeld (jtagInstruction i)

/-- FERRY_ENTER_REQUEST (R452): A Warden write of FLT_FERRY_CTL.ENTER asserts FLT_FERRY_REQ. -/
def execFerryEnterRequest (by_ : Agent) (v : Word64) (s : State) : Host.Outcome State Fault Refusal :=
  s.act (s.mayIssue by_) (ferryEnterRequest by_ v)

/-- FERRY_PATH (R455): A frame received in ferry mode is forwarded by the ferry map or dropped. -/
def execFerryPath (port : Nat) (lane : Nat) (d : Nat) (phi : Int) (n : Nat) (bytes : Bytes) (err : Bool) (s : State) : Host.Outcome State Fault Refusal :=
  s.act (isPort port && isLane lane) (ferryPath port lane d phi n bytes err)

/-- FERRY_QUIET_EXPIRY (R457): QUIET_S pass without DEG assertion and the device leaves ferry mode or is held. -/
def execFerryQuietExpiry (s : State) : Host.Outcome State Fault Refusal :=
  s.act true ferryQuietExpiry

/-- FERRY_RELEASE (R457): A Warden write of FLT_FERRY_CTL.RELEASE ends ferry mode and clears the exit window. -/
def execFerryRelease (by_ : Agent) (v : Word64) (s : State) : Host.Outcome State Fault Refusal :=
  s.act (s.mayIssue by_) (ferryRelease by_ v)

/-- CANDLE_MEASURE (R460): Every MEAS_S candles and path replicas are counted and wear published. -/
def execCandleMeasure (readings : List (Nat × Nat × Nat × Nat)) (replicas : List Nat) (s : State) : Host.Outcome State Fault Refusal :=
  s.act (true) (candleMeasure readings replicas)

/-- EYE_SCAN (R460): Every EYE_S each lane's eye is scanned and a low opening raises SER_EYE_LOW. -/
def execEyeScan (l : Nat) (mui : Nat) (s : State) : Host.Outcome State Fault Refusal :=
  s.act (isLane l) (eyeScan l mui)

/-- REPLAN (R461): Keeper firmware re-plans voltage, margins, constants, ageing term and life and witnesses it. -/
def execReplan (remain : Nat) (remain95 : Nat) (s : State) : Host.Outcome State Fault Refusal :=
  s.act (true) (replan remain remain95)

/-- REPLAN_REQUEST (R461): A Warden write of CND_CTL.REPLAN requests an immediate re-plan. -/
def execReplanRequest (by_ : Agent) (v : Word64) (s : State) : Host.Outcome State Fault Refusal :=
  s.act (s.mayIssue by_) (replanRequest by_ v)

/-- AVS_STEP (R484): Every 10 ms the device requests the next 2.5 mV staircase point over AVSBus, or retries. -/
def execAvsStep (ack : Bool) (s : State) : Host.Outcome State Fault Refusal :=
  s.act (true) (avsStep ack)

/-- TJ_HIGH (R463): A die sensor reads above 105 °C, or stays there another second, and CND_TJ_HIGH is raised. -/
def execTjHigh (i : Nat) (temp : Nat) (s : State) : Host.Outcome State Fault Refusal :=
  s.act (isCandle i) (tjHigh i temp)

end Sys2Proof.Machine
end

