-- ==== Sys2Proof/Machine/RunHost.lean ====
section
/-! DEFINITION. The meanings of the commands of the host link, reads and register writes. -/
namespace Sys2Proof.Machine

open State

/-- REGISTER_WRITE (R505): A host write to a BAR0 register with no row of its own acts field by field under the
access codes. -/
def execRegisterWrite (by_ : Agent) (off : Nat) (wide : Bool) (v : Word64) (s : State) : Host.Outcome State Fault Refusal :=
  s.act (s.mayIssue by_) (registerWrite by_ off wide v)

/-- TIM_NOW_LO_READ (R500): A read of TIM_NOW_LO returns device time and latches SEC_HI for the reading function. -/
def execTimNowLoRead (fn : Nat) (s : State) : Host.Outcome State Fault Refusal :=
  s.act (true) (timNowLoRead fn)

/-- ATOMICOP_UNSUPPORTED (R388): An AtomicOp other than a 64-bit Swap to FWD_CLAIM completes with Unsupported
Request. -/
def execAtomicopUnsupported (fn : Nat) (s : State) : Host.Outcome State Fault Refusal :=
  s.act (true) (atomicopUnsupported fn)

/-- PCIE_LINK_CHANGE (R394): The PCI Express link goes down, is lost or hot-reset, or retrains, with the effects of
Table HOST-2. -/
def execPcieLinkChange (up : Bool) (hotReset : Bool) (speed : Nat) (width : Nat) (flit : Bool) (s : State) : Host.Outcome State Fault Refusal :=
  s.act (true) (pcieLinkChange up hotReset speed width flit)

/-- PERST_N_ASSERT (R488): PERST_N asserts and resets only the host link. -/
def execPerstNAssert (s : State) : Host.Outcome State Fault Refusal :=
  s.act true perstAssert

/-- FUNCTION_LEVEL_RESET (R394): A function-level reset stops that function's channels and queues. -/
def execFunctionLevelReset (fn : Nat) (s : State) : Host.Outcome State Fault Refusal :=
  s.act (isFunction fn) (functionLevelReset fn)

/-- D3HOT_ENTRY (R393): A function enters D3hot and its DMA and deliveries pause. -/
def execD3hotEntry (fn : Nat) (s : State) : Host.Outcome State Fault Refusal :=
  s.act (isFunction fn) (d3hotEntry fn)

/-- D0_RETURN (R409): A function returns to D0, staged records are written and owed MSI-X sent at once. -/
def execD0Return (fn : Nat) (s : State) : Host.Outcome State Fault Refusal :=
  s.act (isFunction fn) (d0Return fn)

/-- DMA_ENABLE (R395): A write of HIF_DMA_CFG.EN 1 starts a channel or is refused with code 7. -/
def execDmaEnable (by_ : Agent) (c : Nat) (v : Word64) (s : State) : Host.Outcome State Fault Refusal :=
  s.act (s.mayIssue by_ && isDmaChannel c) (dmaEnable by_ c v)

/-- DMA_DESC_TAIL_WRITE (R396): A host write of DESC_TAIL posts descriptors or is ignored. -/
def execDmaDescTailWrite (by_ : Agent) (c : Nat) (v : Word64) (s : State) : Host.Outcome State Fault Refusal :=
  s.act (s.mayIssue by_ && isDmaChannel c) (descTailWrite by_ c v)

/-- PROC_COPY_DMA (R397): A processor copy is written with its manifest to a USE 1 buffer or discarded for lack of a
descriptor. -/
def execProcCopyDma (id : Nat) (reason : Nat) (desc : Bytes) (s : State) : Host.Outcome State Fault Refusal :=
  s.act (true) (procCopyDma id reason desc)

/-- FRAME_INJECT (R398): A USE 2 descriptor's frame is read from the host and queued toward its port. -/
def execFrameInject (c : Nat) (desc : Bytes) (frame : Bytes) (s : State) : Host.Outcome State Fault Refusal :=
  s.act (isDmaChannel c) (frameInject c desc frame)

/-- DMA_COMPLETION (R396): A DMA transfer completes and its completion is written when the completion ring has room. -/
def execDmaCompletion (c : Nat) (s : State) : Host.Outcome State Fault Refusal :=
  s.act (isDmaChannel c) (dmaCompletion c)

/-- DMA_ERROR (R399): A DMA transfer meets an error and the channel stops with its code. -/
def execDmaError (c : Nat) (code : Nat) (s : State) : Host.Outcome State Fault Refusal :=
  s.act (isDmaChannel c) (dmaError c code)

/-- EVQ_CLAIM (R405): A queue writer claims the earliest pending event request, or yields a spurious record. -/
def execEvqClaim (q : Nat) (parity : Bool) (s : State) : Host.Outcome State Fault Refusal :=
  s.act (isEventQueue q) (evqClaim q parity)

/-- EVQ_RECORD_WRITE (R406): A claimed record is written to the queue ring when it has room, with an overflow record
first if due. -/
def execEvqRecordWrite (q : Nat) (s : State) : Host.Outcome State Fault Refusal :=
  s.act (isEventQueue q) (evqRecordWrite q)

/-- EVQ_ARM (R408): A write of EVQ_IDX with ARM 1 sets HEAD and arms the queue. -/
def execEvqArm (by_ : Agent) (q : Nat) (v : Word64) (s : State) : Host.Outcome State Fault Refusal :=
  s.act (s.mayIssue by_ && isEventQueue q) (evqArm by_ q v)

/-- EVQ_ENABLE (R411): A write of EVQ_CFG.EN 1 enables a queue or is refused with EVQ_CFG_REJECT. -/
def execEvqEnable (by_ : Agent) (q : Nat) (v : Word64) (s : State) : Host.Outcome State Fault Refusal :=
  s.act (s.mayIssue by_ && isEventQueue q) (evqEnable by_ q v)

/-- MSIX_SEND (R408): An armed non-empty queue's moderation interval has passed and its MSI-X is sent. -/
def execMsixSend (q : Nat) (s : State) : Host.Outcome State Fault Refusal :=
  s.act (isEventQueue q) (msixSend q)

/-- KEEPER_INTERRUPT (R410): A keeper core takes the highest-priority pending interrupt. -/
def execKeeperInterrupt (k : Nat) (served : Bool) (s : State) : Host.Outcome State Fault Refusal :=
  s.act (isKeeperCore k) (keeperInterrupt k served)

/-- SMBUS_READ (R493): An SMBus Block Read of a listed command returns the register value taken at one instant. -/
def execSmbusRead (code : Nat) (s : State) : Host.Outcome State Fault Refusal :=
  s.act (true) (smbusRead code)

/-- HOST_READ (R392): A host read of BAR0 or BAR2 is served at one device instant, updates HIF_READ_TIME of its
function, and is denied and counted when the protection table forbids it. -/
def execHostRead (fn : Nat) (bar : Nat) (off : Nat) (len : Nat) (ecc : List Nat) (s : State) : Host.Outcome State Fault Refusal :=
  s.act (true) (hostRead fn bar off len ecc)

/-- PCIE_CONFIG_WRITE (R390): A host configuration-space write enables or disables VFs of PF1 or changes Bus Master
Enable, which pauses or resumes the function's DMA channels. -/
def execPcieConfigWrite (fn : Nat) (vfs : Option Nat) (busMaster : Bool) (pmeEn : Bool) (s : State) : Host.Outcome State Fault Refusal :=
  s.act (isFunction fn) (pcieConfigWrite fn vfs busMaster pmeEn)

/-- L1_2_ENTRY (R393): With its upstream request queues empty, the device requests the L1.2 link power state, and
the next delivery then incurs the 32 µs exit latency. -/
def execL12Entry (s : State) : Host.Outcome State Fault Refusal :=
  s.act true l12Entry

end Sys2Proof.Machine
end

