-- ==== Sys2Proof/Machine/RunLine.lean ====
section
/-! DEFINITION. The meanings of the commands of ports, lanes and received frames. -/
namespace Sys2Proof.Machine

open State

/-- PRT_APPLY (R94): A write of 1 to PRT_APPLY applies all PRT shadows, or rejects an invalid MTU. -/
def execPrtApply (by_ : Agent) (v : Word64) (s : State) : Host.Outcome State Fault Refusal :=
  s.act (s.mayIssue by_) (prtApply by_ v)

/-- PRT_CFG_WRITE (R78): A write to PRT_CFG is accepted or rejected under the lane-quad and octet-mode rules. -/
def execPrtCfgWrite (by_ : Agent) (p : Nat) (v : Word64) (s : State) : Host.Outcome State Fault Refusal :=
  s.act (s.mayIssue by_ && isPort p) (prtCfgWrite by_ p v)

/-- PRT_OCTET_WRITE (R78): A write to PRT_OCTET.MODE is accepted or rejected against the octet's PHY types. -/
def execPrtOctetWrite (by_ : Agent) (o : Nat) (v : Word64) (s : State) : Host.Outcome State Fault Refusal :=
  s.act (s.mayIssue by_ && isOctet o) (prtOctetWrite by_ o v)

/-- PORT_DISABLE (R92): A write of EN 0 stops reception at the next frame boundary and lets transmission complete. -/
def execPortDisable (by_ : Agent) (p : Nat) (s : State) : Host.Outcome State Fault Refusal :=
  s.act (s.mayIssue by_ && isPort p) (portDisable by_ p)

/-- PORT_HALTED (R92): A disabled port's last in-flight frame leaves and the port becomes halted. -/
def execPortHalted (p : Nat) (s : State) : Host.Outcome State Fault Refusal :=
  s.act (isPort p) (portHaltedEvent p)

/-- AN_ATTEMPT (R80): A Clause 73 auto-negotiation and training attempt runs on a port and is counted. -/
def execAnAttempt (p : Nat) (resolved : Bool) (trained : Bool) (s : State) : Host.Outcome State Fault Refusal :=
  s.act (isPort p) (anAttempt p resolved trained)

/-- LINK_UP (R80): A port acquires sync, alignment and deskew and LINK_UP sets, raising PRT_LINK_CHANGE. -/
def execLinkUp (p : Nat) (skews : List Nat) (far : Option Nat) (s : State) : Host.Outcome State Fault Refusal :=
  s.act (isPort p) (linkUpEvent p skews far)

/-- LINK_DOWN (R93): A port's link goes down and frames reaching its egress are then dropped. -/
def execLinkDown (p : Nat) (s : State) : Host.Outcome State Fault Refusal :=
  s.act (isPort p) (linkDownEvent p)

/-- CDR_LOSS (R95): A lane of an enabled port loses recovered-clock tracking and SER_CDR_LOSS is raised. -/
def execCdrLoss (l : Nat) (signal : Bool) (s : State) : Host.Outcome State Fault Refusal :=
  s.act (isLane l) (cdrLoss l signal)

/-- ALIGN_LOST (R89): The framing anchor needs more trim than permitted, ALIGNED clears and PRT_ALIGN_LOST is
raised. -/
def execAlignLost (p : Nat) (trim : Nat) (s : State) : Host.Outcome State Fault Refusal :=
  s.act (isPort p) (alignLost p trim)

/-- FRAME_RECEIVE (R56): A frame's first bit after the delimiter crosses the receive ball and is stamped. -/
def execFrameReceive (port : Nat) (lane : Nat) (d : Nat) (phi : Int) (n : Nat) (d0 : Nat) (s : State) : Host.Outcome State Fault Refusal :=
  s.act (isPort port && isLane lane) (frameArrives port lane d phi n d0)

/-- RX_FRAME_END (R82): A frame's last byte arrives and runt, oversize and error checks drop or stomp it. -/
def execRxFrameEnd (port : Nat) (bytes : Bytes) (err : Bool) (s : State) : Host.Outcome State Fault Refusal :=
  s.act (isPort port) (rxFrameEnd port bytes err)

end Sys2Proof.Machine
end

