-- ==== Sys2Proof/Machine/RunMemory.lean ====
section
/-! DEFINITION. The meanings of the commands of DRAM and scratchpad. -/
namespace Sys2Proof.Machine

open State

/-- HBM_APPLY (R437): A write of 1 to HBM_APPLY applies DRAM controller shadows or rejects them. -/
def execHbmApply (by_ : Agent) (v : Word64) (s : State) : Host.Outcome State Fault Refusal :=
  s.act (s.mayIssue by_) (hbmApply by_ v)

/-- HBM_REFRESH (R419): A pseudo-channel's refresh interval expires and a refresh is issued or postponed. -/
def execHbmRefresh (pc : Nat) (n : Nat) (temp : Nat) (s : State) : Host.Outcome State Fault Refusal :=
  s.act (isPseudoChannel pc) (hbmRefresh pc n temp)

/-- SELF_REFRESH_ENTRY (R421): A stack idle for SR_IDLE_US with no panic or staged unit enters self-refresh. -/
def execSelfRefreshEntry (k : Nat) (s : State) : Host.Outcome State Fault Refusal :=
  s.act (isStack k) (selfRefreshEntry k)

/-- SELF_REFRESH_EXIT (R421): A request makes a stack leave self-refresh and is served within 0.5 µs. -/
def execSelfRefreshExit (k : Nat) (s : State) : Host.Outcome State Fault Refusal :=
  s.act (isStack k) (selfRefreshExit k)

/-- HBM_PATROL (R422): The patrol read covers DRAM lines, correcting single and reporting double errors. -/
def execHbmPatrol (line : Nat) (err : Nat) (s : State) : Host.Outcome State Fault Refusal :=
  s.act (true) (hbmPatrol line err)

/-- CAPTURE_WRITE (R424): A capture entry is written from staging into the capture ring. -/
def execCaptureWrite (reads : List Nat) (s : State) : Host.Outcome State Fault Refusal :=
  s.act (true) (captureWrite reads)

/-- SCP_HOST_WRITE (R428): A host write to the scratchpad window is performed or counted as a violation. -/
def execScpHostWrite (fn : Nat) (a : Nat) (v : Word64) (waits : Nat) (s : State) : Host.Outcome State Fault Refusal :=
  s.act (s.mayIssue (.host fn) && decide (fn < 2)) (scpHostWrite fn a v waits)

/-- SCP_HANDOVER_START (R429): A write to SCP_OWNER starts a bank handover and sets BUSY. -/
def execScpHandoverStart (by_ : Agent) (b : Nat) (v : Word64) (s : State) : Host.Outcome State Fault Refusal :=
  s.act (s.mayIssue by_ && isScpBank b) (scpHandoverStart by_ b v)

/-- SCP_HANDOVER_DONE (R429): The handover drain and optional clear complete, BUSY clears and SCP_HANDOVER is
raised. -/
def execScpHandoverDone (b : Nat) (s : State) : Host.Outcome State Fault Refusal :=
  s.act (isScpBank b) (scpHandoverDone b)

/-- MARCH_TEST (R432): Each microsecond a background March C− test covers one region of every bank. -/
def execMarchTest (fails : List Nat) (taken : List Nat) (retest : List Nat) (s : State) : Host.Outcome State Fault Refusal :=
  s.act (true) (marchTest fails taken retest)

end Sys2Proof.Machine
end

