-- ==== Sys2Proof/Machine/RunParse.lean ====
section
/-! DEFINITION. The meanings of the commands of the parse engines and their microcode. -/
namespace Sys2Proof.Machine

open State

/-- PRS_APPLY (R128): A write of 1 to PRS_APPLY applies PRS shadows bound to the ingress stamp. -/
def execPrsApply (by_ : Agent) (v : Word64) (s : State) : Host.Outcome State Fault Refusal :=
  s.act (s.mayIssue by_) (prsApply by_ v)

/-- FRAME_READY (R97): A frame's first DEPTH bytes or last byte arrive and it enters the dispatch queue. -/
def execFrameReady (port : Nat) (head : Bytes) (s : State) : Host.Outcome State Fault Refusal :=
  s.act (isPort port) (frameReady port head)

/-- BARGE_DISPATCH (R97): The head frame of the dispatch queue is given to the next free barge and its routine
starts. -/
def execBargeDispatch (sl : Nat) (s : State) : Host.Outcome State Fault Refusal :=
  s.act (isSlice sl) (bargeDispatch sl)

/-- NOP (R109): Microword NOP does nothing for its cycles. -/
def execNop (n : Nat) (errs : Nat) (s : State) : Host.Outcome State Fault Refusal :=
  s.act (true) (mwNop n errs)

/-- MOV (R109): Microword MOV sets DST to operand B. -/
def execMov (n : Nat) (errs : Nat) (s : State) : Host.Outcome State Fault Refusal :=
  s.act (true) (mwMov n errs)

/-- ADD (R109): Microword ADD adds operand B to a register and sets Z and C. -/
def execAdd (n : Nat) (errs : Nat) (s : State) : Host.Outcome State Fault Refusal :=
  s.act (true) (mwAdd n errs)

/-- SUB (R109): Microword SUB subtracts operand B from a register and sets Z and C. -/
def execSub (n : Nat) (errs : Nat) (s : State) : Host.Outcome State Fault Refusal :=
  s.act (true) (mwSub n errs)

/-- AND (R109): Microword AND forms the bitwise AND into DST. -/
def execAnd (n : Nat) (errs : Nat) (s : State) : Host.Outcome State Fault Refusal :=
  s.act (true) (mwAnd n errs)

/-- OR (R109): Microword OR forms the bitwise OR into DST. -/
def execOr (n : Nat) (errs : Nat) (s : State) : Host.Outcome State Fault Refusal :=
  s.act (true) (mwOr n errs)

/-- XOR (R109): Microword XOR forms the bitwise exclusive OR into DST. -/
def execXor (n : Nat) (errs : Nat) (s : State) : Host.Outcome State Fault Refusal :=
  s.act (true) (mwXor n errs)

/-- SHL (R109): Microword SHL shifts a register left by B mod 64. -/
def execShl (n : Nat) (errs : Nat) (s : State) : Host.Outcome State Fault Refusal :=
  s.act (true) (mwShl n errs)

/-- SHR (R109): Microword SHR shifts a register right by B mod 64 with zero fill. -/
def execShr (n : Nat) (errs : Nat) (s : State) : Host.Outcome State Fault Refusal :=
  s.act (true) (mwShr n errs)

/-- CMP (R109): Microword CMP compares a register with B and sets Z and C. -/
def execCmp (n : Nat) (errs : Nat) (s : State) : Host.Outcome State Fault Refusal :=
  s.act (true) (mwCmp n errs)

/-- CMPM (R109): Microword CMPM sets Z when the masked register equals CVAL. -/
def execCmpm (n : Nat) (errs : Nat) (s : State) : Host.Outcome State Fault Refusal :=
  s.act (true) (mwCmpm n errs)

/-- MWR (R110): Microword MWR writes bytes of B to the permitted manifest bytes. -/
def execMwr (n : Nat) (errs : Nat) (s : State) : Host.Outcome State Fault Refusal :=
  s.act (true) (mwMwr n errs)

/-- MSG (R111): Microword MSG records a message boundary at the cursor under the ordering rules. -/
def execMsg (n : Nat) (errs : Nat) (lane : Nat) (s : State) : Host.Outcome State Fault Refusal :=
  s.act (true) (mwMsg n errs lane)

/-- SETLEN (R109): Microword SETLEN declares the frame length when it lies in 64–10,240. -/
def execSetlen (n : Nat) (errs : Nat) (s : State) : Host.Outcome State Fault Refusal :=
  s.act (true) (mwSetlen n errs)

/-- LKUP (R113): Microword LKUP issues an exact-match lookup whose result arrives later in DST. -/
def execLkup (n : Nat) (errs : Nat) (s : State) : Host.Outcome State Fault Refusal :=
  s.act (true) (mwLkup n errs)

/-- SCPRD (R114): Microword SCPRD reads a scratchpad word into DST. -/
def execScprd (n : Nat) (errs : Nat) (held : Nat) (waits : Nat) (ecc : Nat) (s : State) : Host.Outcome State Fault Refusal :=
  s.act (true) (mwScprd n errs held waits ecc)

/-- SCPADD (R114): Microword SCPADD performs an atomic add at the scratchpad and returns the old value. -/
def execScpadd (n : Nat) (errs : Nat) (held : Nat) (waits : Nat) (ecc : Nat) (s : State) : Host.Outcome State Fault Refusal :=
  s.act (true) (mwScpadd n errs held waits ecc)

/-- SCPSWP (R114): Microword SCPSWP performs an atomic swap at the scratchpad and returns the old value. -/
def execScpswp (n : Nat) (errs : Nat) (held : Nat) (waits : Nat) (ecc : Nat) (s : State) : Host.Outcome State Fault Refusal :=
  s.act (true) (mwScpswp n errs held waits ecc)

/-- CSUM (R109): Microword CSUM forms a 16-bit ones' complement sum over window words. -/
def execCsum (n : Nat) (errs : Nat) (s : State) : Host.Outcome State Fault Refusal :=
  s.act (true) (mwCsum n errs)

/-- CALL (R109): Microword CALL pushes NEXT and continues at ALT, or faults on a full stack. -/
def execCall (n : Nat) (errs : Nat) (s : State) : Host.Outcome State Fault Refusal :=
  s.act (true) (mwCall n errs)

/-- RET (R109): Microword RET continues at the popped address, or faults on an empty stack. -/
def execRet (n : Nat) (errs : Nat) (s : State) : Host.Outcome State Fault Refusal :=
  s.act (true) (mwRet n errs)

/-- LOOP (R109): Microword LOOP sets the loop count to 1–8 or faults. -/
def execLoop (n : Nat) (errs : Nat) (s : State) : Host.Outcome State Fault Refusal :=
  s.act (true) (mwLoop n errs)

/-- DJNZ (R109): Microword DJNZ decrements the loop count and branches while it is non-zero. -/
def execDjnz (n : Nat) (errs : Nat) (s : State) : Host.Outcome State Fault Refusal :=
  s.act (true) (mwDjnz n errs)

/-- SWITCH (R109): Microword SWITCH continues at ALT plus the low four bits of a register. -/
def execSwitch (n : Nat) (errs : Nat) (s : State) : Host.Outcome State Fault Refusal :=
  s.act (true) (mwSwitch n errs)

/-- DONE (R112): Microword DONE closes the manifest, sets UNITS and ends the routine. -/
def execMwDone (n : Nat) (errs : Nat) (s : State) : Host.Outcome State Fault Refusal :=
  s.act (true) (mwDone n errs)

/-- ABORT (R115): Microword ABORT ends the routine with exception code 8 plus B and applies EXC_ACTION. -/
def execAbort (n : Nat) (errs : Nat) (s : State) : Host.Outcome State Fault Refusal :=
  s.act (true) (mwAbort n errs)

/-- RTT (R119): Microword RTT restores state and resumes, or enters a pending trap without a second save. -/
def execRtt (n : Nat) (errs : Nat) (wait : Nat) (arrives : Option (Nat × Nat)) (s : State) : Host.Outcome State Fault Refusal :=
  s.act (true) (mwRtt n errs wait arrives)

/-- RESERVED_OPCODE (R109): Executing a reserved opcode ends the routine with exception code 4. -/
def execReservedOpcode (n : Nat) (errs : Nat) (s : State) : Host.Outcome State Fault Refusal :=
  s.act (true) (mwReserved n errs)

/-- LKUP_RESULT (R113): The result of a barge's exact-match lookup arrives in its destination register. -/
def execLkupResult (n : Nat) (reg : Nat) (bad : Option (Nat × Nat)) (s : State) : Host.Outcome State Fault Refusal :=
  s.act (true) (lkupResult n reg bad)

/-- SCP_STALL_TIMEOUT (R114): A scratchpad word still held 8 cycles past its length is abandoned and raises a
conflict trap. -/
def execScpStallTimeout (n : Nat) (s : State) : Host.Outcome State Fault Refusal :=
  s.act (true) (scpStallTimeout n)

/-- POISON_ARRIVAL (R116): A poison-tagged value arrives at a barge and requests the poison trap. -/
def execPoisonArrival (n : Nat) (origin : Nat) (reg : Nat) (s : State) : Host.Outcome State Fault Refusal :=
  s.act (true) (poisonArrival n origin reg)

/-- SAMPLING_REQUEST (R122): The counter block requests a sampling trap of a barge. -/
def execSamplingRequest (n : Nat) (counter : Nat) (s : State) : Host.Outcome State Fault Refusal :=
  s.act (true) (samplingRequest n counter)

/-- TRAP_ENTRY (R117): A pending trap is claimed at a word boundary, state saved and its vector fetched. -/
def execTrapEntry (n : Nat) (wait : Nat) (arrives : Option (Nat × Nat)) (s : State) : Host.Outcome State Fault Refusal :=
  s.act (true) (trapEntry n wait arrives)

/-- RUN_LIMIT (R101): A routine reaches RUN_LIMIT cycles and is ended with exception code 2. -/
def execRunLimit (n : Nat) (s : State) : Host.Outcome State Fault Refusal :=
  s.act (true) (runLimitReached n)

/-- MANIFEST_RELEASE (R100): A closed manifest is passed to lookup once earlier frames of its port have been passed. -/
def execManifestRelease (port : Nat) (s : State) : Host.Outcome State Fault Refusal :=
  s.act (isPort port) (manifestRelease port)

/-- PRS_PROFILE_WRITE (R103): A write to a profile shadow makes the device compute its worst-case path W. -/
def execPrsProfileWrite (by_ : Agent) (sl : Nat) (i : Nat) (v : Word64) (s : State) : Host.Outcome State Fault Refusal :=
  s.act (s.mayIssue by_ && isSlice sl && isProfile i) (prsProfileWrite by_ sl i v)

/-- PRS_CS_BANK_WRITE (R128): A write of ACTIVE naming a bank is staged, or ignored with PRS_UCODE_REJECT when
invalid. -/
def execPrsCsBankWrite (by_ : Agent) (v : Word64) (s : State) : Host.Outcome State Fault Refusal :=
  s.act (s.mayIssue by_) (prsCsBankWrite by_ v)

/-- OLD_BANK_DRAINED (R128): No frame uses the previous customer bank any longer and OLD_BUSY clears. -/
def execOldBankDrained (s : State) : Host.Outcome State Fault Refusal :=
  s.act true oldBankDrained

/-- UCODE_LOAD_GO (R130): A Warden write of PRS_CS_LOAD_CTL.GO starts a customer microcode load or refuses it. -/
def execUcodeLoadGo (by_ : Agent) (v : Word64) (s : State) : Host.Outcome State Fault Refusal :=
  s.act (s.mayIssue by_) (ucodeLoadGo by_ v)

/-- UCODE_PACKAGE_FETCHED (R130): The package fetch over the host link completes and verification is requested. -/
def execUcodePackageFetched (ok : Bool) (package : Bytes) (s : State) : Host.Outcome State Fault Refusal :=
  s.act (true) (ucodePackageFetched ok package)

/-- UCODE_LOAD_COMPLETE (R130): Verification completes, words are checked and written to the target bank, and the
load is reported and witnessed. -/
def execUcodeLoadComplete (sigOk : Bool) (s : State) : Host.Outcome State Fault Refusal :=
  s.act (true) (ucodeLoadComplete sigOk)

/-- CS_BACKGROUND_CHECK (R126): The background read checks control-store words once every 10 ms. -/
def execCsBackgroundCheck (sl : Nat) (bank : Nat) (w : Nat) (errors : Nat) (s : State) : Host.Outcome State Fault Refusal :=
  s.act (isSlice sl && isCsBank bank && isCsWord w) (csBackgroundCheck sl bank w errors)

/-- CS_RESTORE_DONE (R126): A control-store word with a double-bit error is restored from DRAM. -/
def execCsRestoreDone (sl : Nat) (bank : Nat) (w : Nat) (s : State) : Host.Outcome State Fault Refusal :=
  s.act (isSlice sl && isCsBank bank && isCsWord w) (csRestoreDone sl bank w)

end Sys2Proof.Machine
end

