-- ==== Sys2Proof/Machine/RunQueues.lean ====
section
/-! DEFINITION. The meanings of the commands of meters, buffers, queues, scheduling and the lock. -/
namespace Sys2Proof.Machine

open State

/-- MTR_APPLY (R244): A write of 1 to MTR_APPLY applies MTR_CFG or rejects it. -/
def execMtrApply (by_ : Agent) (v : Word64) (s : State) : Host.Outcome State Fault Refusal :=
  s.act (s.mayIssue by_) (mtrApply by_ v)

/-- QUE_APPLY (R216): A write of 1 to QUE_APPLY applies admission and threshold shadows or rejects them. -/
def execQueApply (by_ : Agent) (v : Word64) (s : State) : Host.Outcome State Fault Refusal :=
  s.act (s.mayIssue by_) (queApply by_ v)

/-- SCH_APPLY (R240): A write of 1 to SCH_APPLY applies scheduler and gate shadows and computes new schedules. -/
def execSchApply (by_ : Agent) (v : Word64) (s : State) : Host.Outcome State Fault Refusal :=
  s.act (s.mayIssue by_) (schApply by_ v)

/-- LCK_APPLY (R257): A write of 1 to LCK_APPLY applies lock shadows bound to the ingress stamp, or rejects them. -/
def execLckApply (by_ : Agent) (v : Word64) (s : State) : Host.Outcome State Fault Refusal :=
  s.act (s.mayIssue by_) (lckApply by_ v)

/-- METER_CHARGE (R222): A packet is charged to its meter at the meter stage and coloured. -/
def execMeterCharge (id : Nat) (ecc : List Nat) (s : State) : Host.Outcome State Fault Refusal :=
  s.act (true) (meterCharge id ecc)

/-- METER_SWEEP (R223): Every 100 ms all meters are refilled at the sweep instant. -/
def execMeterSweep (s : State) : Host.Outcome State Fault Refusal :=
  s.act true meterSweep

/-- BUFFER_ADMIT (R210): A packet's references are admitted to queues, a buffer is granted and it is enqueued or
dropped. -/
def execBufferAdmit (sl : Nat) (p0 : Option Nat) (p1 : Option Nat) (p2 : Option Nat) (s : State) : Host.Outcome State Fault Refusal :=
  s.act (isSlice sl) (bufferAdmit sl p0 p1 p2)

/-- CACHE_REFILL (R198): A free-pointer cache below 128 is refilled from its ring in a burst. -/
def execCacheRefill (sl : Nat) (k : Nat) (bad : Option Nat) (s : State) : Host.Outcome State Fault Refusal :=
  s.act (isSlice sl && isPool k) (cacheRefill sl k bad)

/-- CACHE_SPILL (R198): A free-pointer cache above 448 spills the excess to its ring in a burst. -/
def execCacheSpill (sl : Nat) (k : Nat) (s : State) : Host.Outcome State Fault Refusal :=
  s.act (isSlice sl && isPool k) (cacheSpill sl k)

/-- BUFFER_FREE (R203): A free is checked against pointer, in-use bit and tag and accepted or rejected. -/
def execBufferFree (sl : Nat) (ptr : Nat) (pool : Nat) (tag : Nat) (s : State) : Host.Outcome State Fault Refusal :=
  s.act (isSlice sl && isPool pool) (bufferFree sl ptr pool tag)

/-- AUDIT_PASS (R206): A leaked-buffer audit pass marks references, compares in-use bits and reclaims. -/
def execAuditPass (s : State) : Host.Outcome State Fault Refusal :=
  s.act true auditPass

/-- QUE_HALT_WRITE (R195): A write of QUE_CTL.HALT 0 checks the pool layout and starts the pools or refuses. -/
def execQueHaltWrite (by_ : Agent) (v : Word64) (s : State) : Host.Outcome State Fault Refusal :=
  s.act (s.mayIssue by_) (queHaltWrite by_ v)

/-- PFC_FRAME_TRANSMIT (R214): A priority flow-control frame is sent at the next transmit slot ahead of queued
frames. -/
def execPfcFrameTransmit (p : Nat) (lane : Nat) (d : Nat) (n : Nat) (s : State) : Host.Outcome State Fault Refusal :=
  s.act (isPort p && isLane lane) (pfcFrameTransmit p lane d n)

/-- PFC_REPEAT (R214): Half of QUANTA has elapsed while XOFF holds and the frame is repeated. -/
def execPfcRepeat (p : Nat) (c : Nat) (s : State) : Host.Outcome State Fault Refusal :=
  s.act (isPort p && isClass c) (pfcRepeat p c)

/-- PFC_HOLD_EXPIRY (R213): HOLD_US after the last pool-empty passes and XOFF may be released. -/
def execPfcHoldExpiry (p : Nat) (c : Nat) (s : State) : Host.Outcome State Fault Refusal :=
  s.act (isPort p && isClass c) (pfcHoldExpiry p c)

/-- PFC_FRAME_RECEIVE (R234): A received flow-control frame is consumed and pauses the enabled classes. -/
def execPfcFrameReceive (p : Nat) (opcode : Nat) (enable : Nat) (times : List Nat) (s : State) : Host.Outcome State Fault Refusal :=
  s.act (isPort p) (pfcFrameReceive p opcode enable times)

/-- PAUSE_EXPIRY (R234): A received pause time runs out and the class resumes. -/
def execPauseExpiry (p : Nat) (c : Nat) (s : State) : Host.Outcome State Fault Refusal :=
  s.act (isPort p && isClass c) (pauseExpiry p c)

/-- SCH_PFC_LONG (R234): A class stays paused for 100 ms and SCH_PFC_LONG is raised once. -/
def execSchPfcLong (p : Nat) (c : Nat) (s : State) : Host.Outcome State Fault Refusal :=
  s.act (isPort p && isClass c) (schPfcLong p c)

/-- OFFER_ARRIVAL (R228): A queue head's offer reaches the egress port scheduler or multicast arbiter. -/
def execOfferArrival (q : Nat) (s : State) : Host.Outcome State Fault Refusal :=
  s.act (isQueue q) (offerArrival q)

/-- SCHEDULER_GRANT (R230): A port scheduler selects an eligible class and grants an offer across the crossbar. -/
def execSchedulerGrant (p : Nat) (locked : Bool) (slot : Stamp) (fault : DescFault) (s : State) : Host.Outcome State Fault Refusal :=
  s.act (isPort p) (schedulerGrant p locked slot fault)

/-- MCAST_ARBITER_GRANT (R231): An egress slice's multicast arbiter grants the head of a multicast queue. -/
def execMcastArbiterGrant (e : Nat) (fault : DescFault) (s : State) : Host.Outcome State Fault Refusal :=
  s.act (isSlice e) (mcastArbiterGrant e fault)

/-- REPLICATE (R269): An egress slice makes copies for the list entries naming its ports and offers them. -/
def execReplicate (e : Nat) (s : State) : Host.Outcome State Fault Refusal :=
  s.act (isSlice e) (replicate e)

/-- CROSSBAR_ARRIVAL (R249): A granted frame reaches its port's lock sort FIFO or egress staging, late or in time. -/
def execCrossbarArrival (p : Nat) (s : State) : Host.Outcome State Fault Refusal :=
  s.act (isPort p) (crossbarArrival p)

/-- LOCK_RELEASE (R249): A held frame's release instant arrives and the lock offers it for transmission or drops it
late. -/
def execLockRelease (p : Nat) (slot : Stamp) (parity : Bool) (s : State) : Host.Outcome State Fault Refusal :=
  s.act (isPort p) (lockRelease p slot parity)

/-- FRAME_TRANSMIT_START (R250): A frame begins at a transmit slot, is stamped at the ball and witnessed as egress. -/
def execFrameTransmitStart (p : Nat) (lane : Nat) (d : Nat) (n : Nat) (first : Stamp) (fault : DescFault) (s : State) : Host.Outcome State Fault Refusal :=
  s.act (isPort p && isLane lane) (frameTransmitStart p lane d n first fault)

/-- FRAME_TRANSMIT_END (R201): A frame's last byte is transmitted, its reference is released and shaper credit
corrected. -/
def execFrameTransmitEnd (p : Nat) (t : Stamp) (s : State) : Host.Outcome State Fault Refusal :=
  s.act (isPort p) (frameTransmitEnd p t)

/-- SHAPER_RECOVERY_END (R236): RECOVERY_US after entry passes and the port's shaper returns to NORMAL. -/
def execShaperRecoveryEnd (p : Nat) (s : State) : Host.Outcome State Fault Refusal :=
  s.act (isPort p) (shaperRecoveryEnd p)

/-- GATE_ENTRY_CHANGE (R238): A gate list interval ends and the next entry comes into force. -/
def execGateEntryChange (p : Nat) (s : State) : Host.Outcome State Fault Refusal :=
  s.act (isPort p) (gateEntryChange p)

/-- GATE_SCHEDULE_START (R240): A pending gate schedule comes into force at its first cycle start. -/
def execGateScheduleStart (p : Nat) (s : State) : Host.Outcome State Fault Refusal :=
  s.act (isPort p) (gateScheduleStart p)

/-- SCH_GL_WRITE (R240): A write to the gate list window is accepted or rejected for the bank in force or pending. -/
def execSchGlWrite (by_ : Agent) (i : Nat) (v : Word64) (s : State) : Host.Outcome State Fault Refusal :=
  s.act (s.mayIssue by_ && isGateEntry i) (schGlWrite by_ i v)

end Sys2Proof.Machine
end

