-- ==== Sys2Proof/Machine/RunSecurity.lean ====
section
/-! DEFINITION. The meanings of the commands of the security module. -/
namespace Sys2Proof.Machine

open State

/-- SEC_READY (R345): The security module's power-up tests and key derivation complete and READY sets. -/
def execSecReady (calOk : Bool) (s : State) : Host.Outcome State Fault Refusal :=
  s.act (true) (secReadyEvent calOk)

/-- ENV_FAILURE (R343): VDD_CORE or module temperature leaves its range and the module zeroises and enters error. -/
def execEnvFailure (s : State) : Host.Outcome State Fault Refusal :=
  s.act true envFailure

/-- PERIODIC_SELFTEST (R346): The periodic self-test starts every PERIODIC_H hours. -/
def execPeriodicSelftest (s : State) : Host.Outcome State Fault Refusal :=
  s.act true periodicSelftest

/-- SELFTEST_DONE (R346): A self-test run completes and the module is ready again or enters error. -/
def execSelftestDone (failed : Option Nat) (s : State) : Host.Outcome State Fault Refusal :=
  s.act (true) (selftestDone failed)

/-- SELFTEST_RETRY (R346): 1 s after a failure the module re-runs its power-up tests once. -/
def execSelftestRetry (s : State) : Host.Outcome State Fault Refusal :=
  s.act true selftestRetry

/-- NONCE (R352): SEC_OP NONCE places a fresh 32-byte nonce in SEC_NONCE. -/
def execNonce (by_ : Agent) (arg : Nat) (s : State) : Host.Outcome State Fault Refusal :=
  s.act (s.mayIssue by_) (nonceOp by_ arg)

/-- SEC_OPEN (R357): SEC_OP OPEN verifies the owner signature and opens a Warden session. -/
def execSecOpen (by_ : Agent) (arg : Nat) (s : State) : Host.Outcome State Fault Refusal :=
  s.act (s.mayIssue by_) (secOpen by_ arg)

/-- SEC_CLOSE (R358): SEC_OP CLOSE closes the Warden session. -/
def execSecClose (by_ : Agent) (arg : Nat) (s : State) : Host.Outcome State Fault Refusal :=
  s.act (s.mayIssue by_) (secClose by_ arg)

/-- OWNER_INSTALL (R353): SEC_OP OWNER_INSTALL verifies and installs a new owner certificate. -/
def execOwnerInstall (by_ : Agent) (arg : Nat) (s : State) : Host.Outcome State Fault Refusal :=
  s.act (s.mayIssue by_) (ownerInstall by_ arg)

/-- OWNER_RELEASE (R354): SEC_OP OWNER_RELEASE erases the owner record and leaves the unit unowned. -/
def execOwnerRelease (by_ : Agent) (arg : Nat) (s : State) : Host.Outcome State Fault Refusal :=
  s.act (s.mayIssue by_) (ownerRelease by_ arg)

/-- LDEV_GEN (R355): SEC_OP LDEV_GEN derives the LDevID key and publishes its public key and proof. -/
def execLdevGen (by_ : Agent) (arg : Nat) (s : State) : Host.Outcome State Fault Refusal :=
  s.act (s.mayIssue by_) (ldevGen by_ arg)

/-- LDEV_INSTALL (R355): SEC_OP LDEV_INSTALL installs an LDevID certificate matching the derived key. -/
def execLdevInstall (by_ : Agent) (arg : Nat) (certOk : Bool) (s : State) : Host.Outcome State Fault Refusal :=
  s.act (s.mayIssue by_) (ldevInstall by_ arg certOk)

/-- SELFTEST (R346): SEC_OP SELFTEST starts an immediate self-test run. -/
def execSelftest (by_ : Agent) (arg : Nat) (s : State) : Host.Outcome State Fault Refusal :=
  s.act (s.mayIssue by_) (selftestOp by_ arg)

/-- ZEROISE (R352): SEC_OP ZEROISE releases ownership and reseeds the DRBG. -/
def execZeroise (by_ : Agent) (arg : Nat) (s : State) : Host.Outcome State Fault Refusal :=
  s.act (s.mayIssue by_) (zeroise by_ arg)

/-- PROT_COMMIT (R362): SEC_OP PROT_COMMIT makes staged protection entries active and witnesses the change. -/
def execProtCommit (by_ : Agent) (arg : Nat) (s : State) : Host.Outcome State Fault Refusal :=
  s.act (s.mayIssue by_) (protCommitOp by_ arg)

/-- SEC_OP_BAD_OP (R352): A SEC_OP write with an undefined operation completes with BAD_OP. -/
def execSecOpBadOp (by_ : Agent) (op : Nat) (arg : Nat) (s : State) : Host.Outcome State Fault Refusal :=
  s.act (s.mayIssue by_) (secOpBadOp by_ op arg)

/-- NONCE_EXPIRY (R357): A nonce becomes void 10 s after issue. -/
def execNonceExpiry (s : State) : Host.Outcome State Fault Refusal :=
  s.act true nonceExpiry

/-- LOCKOUT_EXPIRY (R357): The 60 s OPEN lockout ends. -/
def execLockoutExpiry (s : State) : Host.Outcome State Fault Refusal :=
  s.act true lockoutExpiry

/-- SESSION_IDLE_TIMEOUT (R358): SESSION_IDLE_S pass with no PF0 transaction and the session closes. -/
def execSessionIdleTimeout (s : State) : Host.Outcome State Fault Refusal :=
  s.act true sessionIdleTimeout

/-- ATTEST_GO (R364): A write of SEC_ATTEST_CTL.GO builds and signs an attestation report. -/
def execAttestGo (by_ : Agent) (s : State) : Host.Outcome State Fault Refusal :=
  s.act (s.mayIssue by_) (attestGo by_)

/-- SEC_OP_COMPLETE (R348): A running SEC_OP operation completes after its signature or verification work, BUSY
clears and STATUS reports the result. -/
def execSecOpComplete (ok : Bool) (cert : Option Bytes) (s : State) : Host.Outcome State Fault Refusal :=
  s.act (true) (secOpComplete ok cert)

/-- ATTEST_REPORT_DONE (R364): The signing of an attestation report completes, STATUS passes from building to done
and SEC_ATTEST_DONE is raised. -/
def execAttestReportDone (s : State) : Host.Outcome State Fault Refusal :=
  s.act true attestReportDone

end Sys2Proof.Machine
end

