-- ==== Sys2Proof/Machine/RunTables.lean ====
section
/-! DEFINITION. The meanings of the commands of the lookup tables, replication and claims. -/
namespace Sys2Proof.Machine

open State

/-- XMT_APPLY (R143): A write of 1 to XMT_APPLY applies partition shadows or rejects them whole. -/
def execXmtApply (by_ : Agent) (v : Word64) (s : State) : Host.Outcome State Fault Refusal :=
  s.act (s.mayIssue by_) (xmtApply by_ v)

/-- TCM_APPLY (R153): A write of 1 to TCM_APPLY applies ternary group shadows or rejects them. -/
def execTcmApply (by_ : Agent) (v : Word64) (s : State) : Host.Outcome State Fault Refusal :=
  s.act (s.mayIssue by_) (tcmApply by_ v)

/-- FWD_APPLY (R165): A write of 1 to FWD_APPLY applies key-set shadows at one instant. -/
def execFwdApply (by_ : Agent) (v : Word64) (s : State) : Host.Outcome State Fault Refusal :=
  s.act (s.mayIssue by_) (fwdApply by_ v)

/-- PACKET_LOOKUP (R138): A manifest's enabled lookups run and their results combine into one forwarding decision. -/
def execPacketLookup (id : Nat) (bad : Option (Nat × Nat)) (s : State) : Host.Outcome State Fault Refusal :=
  s.act (true) (packetLookup id bad)

/-- EM_INSERT (R146): Table command EM_INSERT inserts an exact-match entry with cuckoo displacement or stash. -/
def execEmInsert (keeper : Bool) (cmd : Bytes) (s : State) : Host.Outcome State Fault Refusal :=
  s.act (true) (emInsert keeper cmd)

/-- EM_DELETE (R147): Table command EM_DELETE removes an entry and drains a stash entry into the freed slot. -/
def execEmDelete (keeper : Bool) (cmd : Bytes) (s : State) : Host.Outcome State Fault Refusal :=
  s.act (true) (emDelete keeper cmd)

/-- EM_UPDATE (R173): Table command EM_UPDATE replaces an entry's action or range in place. -/
def execEmUpdate (keeper : Bool) (cmd : Bytes) (s : State) : Host.Outcome State Fault Refusal :=
  s.act (true) (emUpdate keeper cmd)

/-- EM_LOOKUP (R159): Table command EM_LOOKUP returns the matching entry without a claim. -/
def execEmLookup (keeper : Bool) (cmd : Bytes) (s : State) : Host.Outcome State Fault Refusal :=
  s.act (true) (emLookupCmd keeper cmd)

/-- TC_WRITE (R151): Table command TC_WRITE writes a ternary row. -/
def execTcWrite (keeper : Bool) (cmd : Bytes) (s : State) : Host.Outcome State Fault Refusal :=
  s.act (true) (tcWrite keeper cmd)

/-- TC_INVALIDATE (R156): Table command TC_INVALIDATE invalidates a ternary row. -/
def execTcInvalidate (keeper : Bool) (cmd : Bytes) (s : State) : Host.Outcome State Fault Refusal :=
  s.act (true) (tcInvalidate keeper cmd)

/-- TC_INSERT_SHIFT (R155): Table command TC_INSERT_SHIFT starts a move of rows a to b up by one and a new row
write. -/
def execTcInsertShift (keeper : Bool) (cmd : Bytes) (s : State) : Host.Outcome State Fault Refusal :=
  s.act (true) (tcInsertShift keeper cmd)

/-- TC_MOVE_STEP (R155): A bank's move engine copies one row up, and after the last copy writes the new row. -/
def execTcMoveStep (s : State) : Host.Outcome State Fault Refusal :=
  s.act true tcMoveStep

/-- NH_WRITE (R140): Table command NH_WRITE writes a next-hop entry. -/
def execNhWrite (keeper : Bool) (cmd : Bytes) (s : State) : Host.Outcome State Fault Refusal :=
  s.act (true) (nhWrite keeper cmd)

/-- SEL_WRITE (R153): Table command SEL_WRITE writes a selection map entry. -/
def execSelWrite (keeper : Bool) (cmd : Bytes) (s : State) : Host.Outcome State Fault Refusal :=
  s.act (true) (selWrite keeper cmd)

/-- VLAN_WRITE (R139): Table command VLAN_WRITE writes a VLAN flood entry. -/
def execVlanWrite (keeper : Bool) (cmd : Bytes) (s : State) : Host.Outcome State Fault Refusal :=
  s.act (true) (vlanWrite keeper cmd)

/-- SMAC_WRITE (R140): Table command SMAC_WRITE writes a source MAC entry. -/
def execSmacWrite (keeper : Bool) (cmd : Bytes) (s : State) : Host.Outcome State Fault Refusal :=
  s.act (true) (smacWrite keeper cmd)

/-- TUN_WRITE (R140): Table command TUN_WRITE writes a tunnel template. -/
def execTunWrite (keeper : Bool) (cmd : Bytes) (s : State) : Host.Outcome State Fault Refusal :=
  s.act (true) (tunWrite keeper cmd)

/-- REPL_LIST_WRITE (R268): Table command REPL_LIST_WRITE writes copy entries unless busy or out of range. -/
def execReplListWrite (keeper : Bool) (cmd : Bytes) (s : State) : Host.Outcome State Fault Refusal :=
  s.act (true) (replListWrite keeper cmd)

/-- REPL_GROUP_WRITE (R268): Table command REPL_GROUP_WRITE writes a group slot and computes SLICE_MASK. -/
def execReplGroupWrite (keeper : Bool) (cmd : Bytes) (s : State) : Host.Outcome State Fault Refusal :=
  s.act (true) (replGroupWrite keeper cmd)

/-- REPL_GROUP_READ (R268): Table command REPL_GROUP_READ returns a group slot. -/
def execReplGroupRead (keeper : Bool) (cmd : Bytes) (s : State) : Host.Outcome State Fault Refusal :=
  s.act (true) (replGroupRead keeper cmd)

/-- MTR_PROF_WRITE (R221): Table command MTR_PROF_WRITE writes a meter profile or completes with RANGE. -/
def execMtrProfWrite (keeper : Bool) (cmd : Bytes) (s : State) : Host.Outcome State Fault Refusal :=
  s.act (true) (mtrProfWrite keeper cmd)

/-- MTR_SET (R226): Table command MTR_SET assigns a profile to a meter and fills or clips its buckets. -/
def execMtrSet (keeper : Bool) (cmd : Bytes) (s : State) : Host.Outcome State Fault Refusal :=
  s.act (true) (mtrSet keeper cmd)

/-- MTR_READ (R226): Table command MTR_READ returns a meter's state. -/
def execMtrRead (keeper : Bool) (cmd : Bytes) (s : State) : Host.Outcome State Fault Refusal :=
  s.act (true) (mtrRead keeper cmd)

/-- TABLE_CMD_BAD_OP (R159): A table command with an undefined opcode completes with BAD_OP. -/
def execTableCmdBadOp (keeper : Bool) (cmd : Bytes) (s : State) : Host.Outcome State Fault Refusal :=
  s.act (true) (tableCmdBadOp keeper cmd)

/-- FWD_RING_TAIL_WRITE (R159): A write of FWD_RING_CTL.TAIL posts commands, or is ignored when it overfills the
ring. -/
def execFwdRingTailWrite (by_ : Agent) (v : Word64) (s : State) : Host.Outcome State Fault Refusal :=
  s.act (s.mayIssue by_) (fwdRingTailWrite by_ v)

/-- TABLE_RESTORE_DONE (R149): A table bucket or row with a double-bit error is restored from its DRAM copy. -/
def execTableRestoreDone (mem : Nat) (index : Nat) (s : State) : Host.Outcome State Fault Refusal :=
  s.act (true) (tableRestoreDone mem index)

/-- TCM_SCRUB (R157): The scrubber compares a ternary row with its DRAM copy and rewrites a mismatch. -/
def execTcmScrub (e : Nat) (result : Nat) (s : State) : Host.Outcome State Fault Refusal :=
  s.act (isRow e) (tcmScrub e result)

/-- CLAIM_SWAP (R161): An AtomicOp Swap to FWD_CLAIM takes a free region or releases a held one. -/
def execClaimSwap (by_ : Agent) (r : Nat) (v : Word64) (s : State) : Host.Outcome State Fault Refusal :=
  s.act (s.mayIssue by_ && isRegion r) (claimSwap by_ r v)

/-- CLAIM_WRITE (R161): A plain write of 0 to FWD_CLAIM by the holder releases the region. -/
def execClaimWrite (by_ : Agent) (r : Nat) (v : Word64) (s : State) : Host.Outcome State Fault Refusal :=
  s.act (s.mayIssue by_ && isRegion r) (claimWrite by_ r v)

/-- CLAIM_TRY_READ (R161): A read of FWD_CLAIM_TRY takes the region if free and reports TAKEN. -/
def execClaimTryRead (fn : Nat) (r : Nat) (s : State) : Host.Outcome State Fault Refusal :=
  s.act (true) (claimTryRead fn r)

/-- CLAIM_FORCE (R162): A Warden write to FWD_CLAIM_FORCE releases a held region and witnesses it. -/
def execClaimForce (by_ : Agent) (v : Word64) (s : State) : Host.Outcome State Fault Refusal :=
  s.act (s.mayIssue by_) (claimForce by_ v)

end Sys2Proof.Machine
end

