-- ==== Sys2Proof/Machine/RunTime.lean ====
section
/-! DEFINITION. The meanings of the commands of device time. -/
namespace Sys2Proof.Machine

open State

/-- TIM_STEP (R43): A write to TIM_STEP steps device time in TQ 0 or 1, or is refused otherwise. -/
def execTimStep (by_ : Agent) (v : Word64) (s : State) : Host.Outcome State Fault Refusal :=
  s.act (s.mayIssue by_) (timStep by_ v)

/-- TIM_SLEW (R44): A write to TIM_SLEW adds an offset to the slew still to be applied. -/
def execTimSlew (by_ : Agent) (v : Word64) (s : State) : Host.Outcome State Fault Refusal :=
  s.act (s.mayIssue by_) (timSlew by_ v)

/-- TIM_INCR (R45): A servo owner's write to TIM_INCR sets the frequency or is refused beyond ±500 ppm. -/
def execTimIncr (by_ : Agent) (v : Word64) (s : State) : Host.Outcome State Fault Refusal :=
  s.act (s.mayIssue by_) (timIncr by_ v)

/-- PTP_SERVO_UPDATE (R46): A servo owner's write of TIM_PTP_OFS forms one PTP servo update and applies the offset
tests. -/
def execPtpServoUpdate (by_ : Agent) (v : Word64) (s : State) : Host.Outcome State Fault Refusal :=
  s.act (s.mayIssue by_) (ptpServoUpdate by_ v)

/-- PPS_EDGE (R48): A PPS input rising edge is stamped, takes TIM_TOD_NEXT and forms a servo update. -/
def execPpsEdge (i : Nat) (d : Nat) (s : State) : Host.Outcome State Fault Refusal :=
  s.act (isPps i) (ppsEdge i d)

/-- PPS_MISSING (R48): 1.1 s pass without an edge on a configured PPS input and TIM_PPS_MISSING is raised. -/
def execPpsMissing (i : Nat) (s : State) : Host.Outcome State Fault Refusal :=
  s.act (isPps i) (ppsMissing i)

/-- FREQ_COMPARE (R46): Every 100 ms the frequency reference is compared to device time and FREQ_REF_OK set. -/
def execFreqCompare (ok : Bool) (phase : Int) (s : State) : Host.Outcome State Fault Refusal :=
  s.act (true) (freqCompare ok phase)

/-- SERVO_UPDATE_TIMEOUT (R64): No servo update is accepted for LOSS_COUNT update intervals and the time state
falls. -/
def execServoUpdateTimeout (s : State) : Host.Outcome State Fault Refusal :=
  s.act true servoUpdateTimeout

/-- HOLDOVER_SECOND (R64): One second in TQ 4 passes and the state becomes TQ 5. -/
def execHoldoverSecond (s : State) : Host.Outcome State Fault Refusal :=
  s.act true holdoverSecond

/-- REF_REVERT (R49): A higher-priority reference has been valid for 10 s and a revertive servo changes reference. -/
def execRefRevert (s : State) : Host.Outcome State Fault Refusal :=
  s.act true refRevert

/-- FREE_RUN (R64): A Warden write of TIM_CTRL.FREE_RUN forces the time state to TQ 0. -/
def execFreeRun (by_ : Agent) (v : Word64) (s : State) : Host.Outcome State Fault Refusal :=
  s.act (s.mayIssue by_) (freeRun by_ v)

/-- WICK_PULSE_LAUNCH (R51): The lamplighter launches a wick pulse at its interval and publishes the next launch
value. -/
def execWickPulseLaunch (s : State) : Host.Outcome State Fault Refusal :=
  s.act true wickPulseLaunch

/-- WICK_PULSE_ARRIVAL (R52): A wick pulse arrives at a quad, the residual is computed and spread or the copy
reloaded. -/
def execWickPulseArrival (q : Nat) (d : Nat) (phase : List Nat) (s : State) : Host.Outcome State Fault Refusal :=
  s.act (isQuad q) (wickPulseArrival q d phase)

/-- WICK_ECHO (R53): A quad's echo returns, giving an insertion-delay sample for L_q. -/
def execWickEcho (q : Nat) (roundTrip : Int) (s : State) : Host.Outcome State Fault Refusal :=
  s.act (isQuad q) (wickEcho q roundTrip)

/-- CAL_REMEASURE (R67): Every PERIOD_S each lane is re-measured and a new calibration target formed. -/
def execCalRemeasure (l : Nat) (temp : Int) (rxSet : Nat) (txSet : Nat) (s : State) : Host.Outcome State Fault Refusal :=
  s.act (isLane l) (calRemeasure l temp rxSet txSet)

/-- CAL_SLEW_STEP (R68): At each 15.625 ms instant an in-force constant moves one unit toward its target. -/
def execCalSlewStep (s : State) : Host.Outcome State Fault Refusal :=
  s.act true calSlewStep

/-- CAL_AGE_STALE (R70): A lane's calibration age exceeds MAX_AGE_S and the lane becomes stale. -/
def execCalAgeStale (l : Nat) (s : State) : Host.Outcome State Fault Refusal :=
  s.act (isLane l) (calAgeStale l)

/-- TIM_APPLY (R75): A write of 1 to TIM_APPLY applies all TIM shadows at one instant. -/
def execTimApply (by_ : Agent) (v : Word64) (s : State) : Host.Outcome State Fault Refusal :=
  s.act (s.mayIssue by_) (timApply by_ v)

/-- PPS_OUT_EDGE (R47): At each device-time second plus OFFSET_NS an enabled PPS output drives its rising edge at
the ball and ends the pulse after WIDTH_MS. -/
def execPpsOutEdge (i : Nat) (rising : Bool) (s : State) : Host.Outcome State Fault Refusal :=
  s.act (isPps i) (ppsOutEdge i rising)

end Sys2Proof.Machine
end

