-- ==== Sys2Proof/Machine/RunTowpath.lean ====
section
/-! DEFINITION. The meanings of the commands of joined systems. -/
namespace Sys2Proof.Machine

open State

/-- TOW_APPLY (R338): A write of 1 to TOW_APPLY applies towpath shadows or rejects a zero weight total. -/
def execTowApply (by_ : Agent) (v : Word64) (s : State) : Host.Outcome State Fault Refusal :=
  s.act (s.mayIssue by_) (towApply by_ v)

/-- TOW_PORT_CFG_WRITE (R310): A write of TOW_PORT_CFG.EN puts a halted port in towpath mode or is rejected. -/
def execTowPortCfgWrite (by_ : Agent) (p : Nat) (v : Word64) (s : State) : Host.Outcome State Fault Refusal :=
  s.act (s.mayIssue by_ && isFrontPort p) (towPortCfgWrite by_ p v)

/-- TOWPATH_DATA_RECEIVE (R316): A towpath data frame is received and transited or delivered by its destination
kind. -/
def execTowpathDataReceive (p : Nat) (bytes : Bytes) (s : State) : Host.Outcome State Fault Refusal :=
  s.act (isFrontPort p) (towpathDataReceive p bytes)

/-- MEMBERSHIP_FRAME_SEND (R327): Every 10 µs a member sends a membership frame on every towpath port. -/
def execMembershipFrameSend (s : State) : Host.Outcome State Fault Refusal :=
  s.act true membershipFrameSend

/-- MEMBERSHIP_FRAME_RECEIVE (R327): A membership frame is received and newer member entries copied. -/
def execMembershipFrameReceive (p : Nat) (bytes : Bytes) (s : State) : Host.Outcome State Fault Refusal :=
  s.act (isFrontPort p) (membershipFrameReceive p bytes)

/-- TIME_FRAME_SEND (R320): Every TIME_PERIOD_US a member sends a stamped time frame on each towpath port. -/
def execTimeFrameSend (p : Nat) (lane : Nat) (d : Nat) (n : Nat) (s : State) : Host.Outcome State Fault Refusal :=
  s.act (isFrontPort p && isLane lane) (timeFrameSend p lane d n)

/-- TIME_FRAME_RECEIVE (R321): A time frame completes an exchange and delay, offset and asymmetry samples are
formed. -/
def execTimeFrameReceive (p : Nat) (bytes : Bytes) (lane : Nat) (d : Nat) (phi : Int) (n : Nat) (s : State) : Host.Outcome State Fault Refusal :=
  s.act (isFrontPort p && isLane lane) (timeFrameReceive p bytes lane d phi n)

/-- ANCHOR_FRAME_RECEIVE (R336): An anchor frame is received and a CROSS_ANCHOR record written. -/
def execAnchorFrameReceive (p : Nat) (bytes : Bytes) (s : State) : Host.Outcome State Fault Refusal :=
  s.act (isFrontPort p) (anchorFrameReceive p bytes)

/-- MEMBER_TIMEOUT (R328): A member's sequence has not advanced within TIMEOUT and it becomes unreachable. -/
def execMemberTimeout (i : Nat) (s : State) : Host.Outcome State Fault Refusal :=
  s.act (isMember i) (memberTimeout i)

/-- TOW_FREQ_CHECK (R311): Every 100 ms each towpath port's recovered frequency is compared with transmit frequency. -/
def execTowFreqCheck (p : Nat) (diff : Int) (s : State) : Host.Outcome State Fault Refusal :=
  s.act (isFrontPort p) (towFreqCheck p diff)

/-- TOW_HEAL (R332): A Warden write of TOW_CTL.HEAL starts healing an Adrift member. -/
def execTowHeal (by_ : Agent) (v : Word64) (s : State) : Host.Outcome State Fault Refusal :=
  s.act (s.mayIssue by_) (towHeal by_ v)

/-- REJOIN_INSTANT (R335): A healing member reaches its rejoin instant H, becomes Authoritative and sends an anchor
frame. -/
def execRejoinInstant (s : State) : Host.Outcome State Fault Refusal :=
  s.act true rejoinInstant

end Sys2Proof.Machine
end

