-- ==== Sys2Proof/Machine/RunVersions.lean ====
section
/-! DEFINITION. The meanings of the commands of rule versions. -/
namespace Sys2Proof.Machine

open State

/-- VER_OPEN (R174): VER_CTL operation OPEN opens a commit group with the next version. -/
def execVerOpen (by_ : Agent) (s : State) : Host.Outcome State Fault Refusal :=
  s.act (s.mayIssue by_) (verOpen by_)

/-- VER_ARM (R177): VER_CTL operation ARM checks the group, fixes T and mask and computes the digest. -/
def execVerArm (by_ : Agent) (s : State) : Host.Outcome State Fault Refusal :=
  s.act (s.mayIssue by_) (verArm by_)

/-- VER_ABORT_ALL (R174): VER_CTL operation ABORT_ALL aborts the open and armed groups. -/
def execVerAbortAll (by_ : Agent) (s : State) : Host.Outcome State Fault Refusal :=
  s.act (s.mayIssue by_) (verAbortAll by_)

/-- VER_ABORT_OPEN (R174): VER_CTL operation ABORT_OPEN aborts the open group. -/
def execVerAbortOpen (by_ : Agent) (s : State) : Host.Outcome State Fault Refusal :=
  s.act (s.mayIssue by_) (verAbortOpen by_)

/-- VER_CTL_INVALID (R175): A VER_CTL write with another operation code completes with STATE. -/
def execVerCtlInvalid (by_ : Agent) (s : State) : Host.Outcome State Fault Refusal :=
  s.act (s.mayIssue by_) (verCtlInvalid by_)

/-- VER_AGREEMENT_CHECK (R182): At T − LEAD_US/2 a joined member confirms every Authoritative member armed the same
version and T. -/
def execVerAgreementCheck (s : State) : Host.Outcome State Fault Refusal :=
  s.act true verAgreementCheck

/-- VER_COMMIT_INSTANT (R180): The commit instant T arrives and the armed version commits or is refused. -/
def execVerCommitInstant (s : State) : Host.Outcome State Fault Refusal :=
  s.act true verCommitInstant

/-- VER_SWEEP_START (R190): Once no packet of OLDEST remains, the retirement sweep of OLDEST starts. -/
def execVerSweepStart (reported : Bool) (s : State) : Host.Outcome State Fault Refusal :=
  s.act (true) (verSweepStart reported)

/-- VER_RETIRE (R189): The retirement sweep completes and OLDEST advances, raising VER_RETIRED. -/
def execVerRetire (s : State) : Host.Outcome State Fault Refusal :=
  s.act true verRetire

end Sys2Proof.Machine
end

