-- ==== Sys2Proof/Machine/RunWitness.lean ====
section
/-! DEFINITION. The meanings of the commands of the witness. -/
namespace Sys2Proof.Machine

open State

/-- WIT_APPLY (R305): A write of 1 to WIT_APPLY applies witness shadows and writes a SELECTION record. -/
def execWitApply (by_ : Agent) (v : Word64) (s : State) : Host.Outcome State Fault Refusal :=
  s.act (s.mayIssue by_) (witApply by_ v)

/-- EPOCH_END (R294): An epoch's END arrives, blocks close, a seal is formed and the next epoch starts. -/
def execEpochEnd (s : State) : Host.Outcome State Fault Refusal :=
  s.act true epochEnd

/-- SEAL_SIGNED (R296): The security module completes a seal signature, or fails, and the seal unit is written. -/
def execSealSigned (ok : Bool) (s : State) : Host.Outcome State Fault Refusal :=
  s.act (true) (sealSigned ok)

/-- WIT_STOP (R305): A write of WIT_CTL.EN 0 closes every block, writes a STOP seal and ends the run. -/
def execWitStop (by_ : Agent) (s : State) : Host.Outcome State Fault Refusal :=
  s.act (s.mayIssue by_) (witStop by_)

/-- WIT_START (R289): A write of WIT_CTL.EN 1 after 0 begins a new log run. -/
def execWitStart (by_ : Agent) (s : State) : Host.Outcome State Fault Refusal :=
  s.act (s.mayIssue by_) (witStart by_)

/-- RING_UNIT_WRITE (R298): A closed block or seal unit is written to the witness ring when it has room. -/
def execRingUnitWrite (reads : List Nat) (s : State) : Host.Outcome State Fault Refusal :=
  s.act (true) (ringUnitWrite reads)

/-- PUSH_EXPORT_UNIT (R301): A unit is written to a push ring in host memory and TAIL advanced with an event record. -/
def execPushExportUnit (errs : List (Nat×Nat)) (s : State) : Host.Outcome State Fault Refusal :=
  s.act (true) (pushExportUnit errs)

/-- PUSH_HEAD_WRITE (R301): A host write of a push ring HEAD releases slots or is ignored. -/
def execPushHeadWrite (by_ : Agent) (i : Nat) (v : Word64) (s : State) : Host.Outcome State Fault Refusal :=
  s.act (s.mayIssue by_ && isPushRing i) (pushHeadWrite by_ i v)

/-- PULL_HEAD_WRITE (R302): A host write of WIT_PULL_HEAD releases pulled units or is ignored. -/
def execPullHeadWrite (by_ : Agent) (v : Word64) (s : State) : Host.Outcome State Fault Refusal :=
  s.act (s.mayIssue by_) (pullHeadWrite by_ v)

/-- EXPORT_FRAME_TRANSMIT (R303): A unit is sent as a Biurn export frame on its front export port. -/
def execExportFrameTransmit (j : Nat) (errs : List (Nat×Nat)) (s : State) : Host.Outcome State Fault Refusal :=
  s.act (true) (exportFrameTransmit j errs)

end Sys2Proof.Machine
end

