-- ==== Sys2Proof/Machine/Dispatch.lean ====
section
/-! DEFINITION. What each command does to everything but the queue: one arm per constructor. -/
namespace Sys2Proof.Machine

/-- A command's effect. -/
def exec (i : Instr) (s : State) : Host.Outcome State Fault Refusal :=
  match i with
  | .registerWrite by_ off wide v => Sys2Proof.Machine.execRegisterWrite by_ off wide v s
  | .timNowLoRead fn => Sys2Proof.Machine.execTimNowLoRead fn s
  | .atomicopUnsupported fn => Sys2Proof.Machine.execAtomicopUnsupported fn s
  | .powerOnReset pwrOk resetN gpio => Sys2Proof.Machine.execPowerOnReset pwrOk resetN gpio s
  | .pinReset => Sys2Proof.Machine.execPinReset s
  | .leaveReset vFuse factory => Sys2Proof.Machine.execLeaveReset vFuse factory s
  | .chipReset by_ v => Sys2Proof.Machine.execChipReset by_ v s
  | .blockReset by_ v => Sys2Proof.Machine.execBlockReset by_ v s
  | .blockResetDone b => Sys2Proof.Machine.execBlockResetDone b s
  | .imageHeaderRead ok bytes => Sys2Proof.Machine.execImageHeaderRead ok bytes s
  | .imageVerified ok => Sys2Proof.Machine.execImageVerified ok s
  | .vendorSectionDecrypt ix bytes sigOk plain exports => Sys2Proof.Machine.execVendorSectionDecrypt ix bytes sigOk plain exports s
  | .regsSectionLoad ix bytes sigOk => Sys2Proof.Machine.execRegsSectionLoad ix bytes sigOk s
  | .hbmTrainingDone ok => Sys2Proof.Machine.execHbmTrainingDone ok s
  | .keeperStart => Sys2Proof.Machine.execKeeperStart s
  | .keeperStartTimeout => Sys2Proof.Machine.execKeeperStartTimeout s
  | .secReadyTimeout => Sys2Proof.Machine.execSecReadyTimeout s
  | .cmdsSectionsDone => Sys2Proof.Machine.execCmdsSectionsDone s
  | .nvmRead by_ v => Sys2Proof.Machine.execNvmRead by_ v s
  | .nvmErase by_ v => Sys2Proof.Machine.execNvmErase by_ v s
  | .nvmProgram by_ v => Sys2Proof.Machine.execNvmProgram by_ v s
  | .nvmCmdInvalid by_ v => Sys2Proof.Machine.execNvmCmdInvalid by_ v s
  | .nvmOpDone status data => Sys2Proof.Machine.execNvmOpDone status data s
  | .bootSelectorWrite by_ v => Sys2Proof.Machine.execBootSelectorWrite by_ v s
  | .timStep by_ v => Sys2Proof.Machine.execTimStep by_ v s
  | .timSlew by_ v => Sys2Proof.Machine.execTimSlew by_ v s
  | .timIncr by_ v => Sys2Proof.Machine.execTimIncr by_ v s
  | .ptpServoUpdate by_ v => Sys2Proof.Machine.execPtpServoUpdate by_ v s
  | .ppsEdge ix d => Sys2Proof.Machine.execPpsEdge ix d s
  | .ppsMissing ix => Sys2Proof.Machine.execPpsMissing ix s
  | .freqCompare ok phase => Sys2Proof.Machine.execFreqCompare ok phase s
  | .servoUpdateTimeout => Sys2Proof.Machine.execServoUpdateTimeout s
  | .holdoverSecond => Sys2Proof.Machine.execHoldoverSecond s
  | .refRevert => Sys2Proof.Machine.execRefRevert s
  | .freeRun by_ v => Sys2Proof.Machine.execFreeRun by_ v s
  | .wickPulseLaunch => Sys2Proof.Machine.execWickPulseLaunch s
  | .wickPulseArrival q d phase => Sys2Proof.Machine.execWickPulseArrival q d phase s
  | .wickEcho q roundTrip => Sys2Proof.Machine.execWickEcho q roundTrip s
  | .calRemeasure l temp rxSet txSet => Sys2Proof.Machine.execCalRemeasure l temp rxSet txSet s
  | .calSlewStep => Sys2Proof.Machine.execCalSlewStep s
  | .calAgeStale l => Sys2Proof.Machine.execCalAgeStale l s
  | .timApply by_ v => Sys2Proof.Machine.execTimApply by_ v s
  | .prtApply by_ v => Sys2Proof.Machine.execPrtApply by_ v s
  | .prsApply by_ v => Sys2Proof.Machine.execPrsApply by_ v s
  | .xmtApply by_ v => Sys2Proof.Machine.execXmtApply by_ v s
  | .tcmApply by_ v => Sys2Proof.Machine.execTcmApply by_ v s
  | .fwdApply by_ v => Sys2Proof.Machine.execFwdApply by_ v s
  | .mtrApply by_ v => Sys2Proof.Machine.execMtrApply by_ v s
  | .queApply by_ v => Sys2Proof.Machine.execQueApply by_ v s
  | .schApply by_ v => Sys2Proof.Machine.execSchApply by_ v s
  | .lckApply by_ v => Sys2Proof.Machine.execLckApply by_ v s
  | .witApply by_ v => Sys2Proof.Machine.execWitApply by_ v s
  | .towApply by_ v => Sys2Proof.Machine.execTowApply by_ v s
  | .hbmApply by_ v => Sys2Proof.Machine.execHbmApply by_ v s
  | .prtCfgWrite by_ p v => Sys2Proof.Machine.execPrtCfgWrite by_ p v s
  | .prtOctetWrite by_ o v => Sys2Proof.Machine.execPrtOctetWrite by_ o v s
  | .portDisable by_ p => Sys2Proof.Machine.execPortDisable by_ p s
  | .portHalted p => Sys2Proof.Machine.execPortHalted p s
  | .anAttempt p resolved trained => Sys2Proof.Machine.execAnAttempt p resolved trained s
  | .linkUp p skews far => Sys2Proof.Machine.execLinkUp p skews far s
  | .linkDown p => Sys2Proof.Machine.execLinkDown p s
  | .cdrLoss l signal => Sys2Proof.Machine.execCdrLoss l signal s
  | .alignLost p trim => Sys2Proof.Machine.execAlignLost p trim s
  | .frameReceive port lane d phi n d0 => Sys2Proof.Machine.execFrameReceive port lane d phi n d0 s
  | .rxFrameEnd port bytes err => Sys2Proof.Machine.execRxFrameEnd port bytes err s
  | .frameReady port head => Sys2Proof.Machine.execFrameReady port head s
  | .bargeDispatch sl => Sys2Proof.Machine.execBargeDispatch sl s
  | .nop n errs => Sys2Proof.Machine.execNop n errs s
  | .mov n errs => Sys2Proof.Machine.execMov n errs s
  | .add n errs => Sys2Proof.Machine.execAdd n errs s
  | .sub n errs => Sys2Proof.Machine.execSub n errs s
  | .and n errs => Sys2Proof.Machine.execAnd n errs s
  | .or n errs => Sys2Proof.Machine.execOr n errs s
  | .xor n errs => Sys2Proof.Machine.execXor n errs s
  | .shl n errs => Sys2Proof.Machine.execShl n errs s
  | .shr n errs => Sys2Proof.Machine.execShr n errs s
  | .cmp n errs => Sys2Proof.Machine.execCmp n errs s
  | .cmpm n errs => Sys2Proof.Machine.execCmpm n errs s
  | .mwr n errs => Sys2Proof.Machine.execMwr n errs s
  | .msg n errs lane => Sys2Proof.Machine.execMsg n errs lane s
  | .setlen n errs => Sys2Proof.Machine.execSetlen n errs s
  | .lkup n errs => Sys2Proof.Machine.execLkup n errs s
  | .scprd n errs held waits ecc => Sys2Proof.Machine.execScprd n errs held waits ecc s
  | .scpadd n errs held waits ecc => Sys2Proof.Machine.execScpadd n errs held waits ecc s
  | .scpswp n errs held waits ecc => Sys2Proof.Machine.execScpswp n errs held waits ecc s
  | .csum n errs => Sys2Proof.Machine.execCsum n errs s
  | .call n errs => Sys2Proof.Machine.execCall n errs s
  | .ret n errs => Sys2Proof.Machine.execRet n errs s
  | .loop n errs => Sys2Proof.Machine.execLoop n errs s
  | .djnz n errs => Sys2Proof.Machine.execDjnz n errs s
  | .switch n errs => Sys2Proof.Machine.execSwitch n errs s
  | .mwDone n errs => Sys2Proof.Machine.execMwDone n errs s
  | .abort n errs => Sys2Proof.Machine.execAbort n errs s
  | .rtt n errs wait arrives => Sys2Proof.Machine.execRtt n errs wait arrives s
  | .reservedOpcode n errs => Sys2Proof.Machine.execReservedOpcode n errs s
  | .lkupResult n reg bad => Sys2Proof.Machine.execLkupResult n reg bad s
  | .scpStallTimeout n => Sys2Proof.Machine.execScpStallTimeout n s
  | .poisonArrival n origin reg => Sys2Proof.Machine.execPoisonArrival n origin reg s
  | .samplingRequest n counter => Sys2Proof.Machine.execSamplingRequest n counter s
  | .trapEntry n wait arrives => Sys2Proof.Machine.execTrapEntry n wait arrives s
  | .runLimit n => Sys2Proof.Machine.execRunLimit n s
  | .manifestRelease port => Sys2Proof.Machine.execManifestRelease port s
  | .prsProfileWrite by_ sl ix v => Sys2Proof.Machine.execPrsProfileWrite by_ sl ix v s
  | .prsCsBankWrite by_ v => Sys2Proof.Machine.execPrsCsBankWrite by_ v s
  | .oldBankDrained => Sys2Proof.Machine.execOldBankDrained s
  | .ucodeLoadGo by_ v => Sys2Proof.Machine.execUcodeLoadGo by_ v s
  | .ucodePackageFetched ok package => Sys2Proof.Machine.execUcodePackageFetched ok package s
  | .ucodeLoadComplete sigOk => Sys2Proof.Machine.execUcodeLoadComplete sigOk s
  | .csBackgroundCheck sl bank w errors => Sys2Proof.Machine.execCsBackgroundCheck sl bank w errors s
  | .csRestoreDone sl bank w => Sys2Proof.Machine.execCsRestoreDone sl bank w s
  | .packetLookup id bad => Sys2Proof.Machine.execPacketLookup id bad s
  | .meterCharge id ecc => Sys2Proof.Machine.execMeterCharge id ecc s
  | .meterSweep => Sys2Proof.Machine.execMeterSweep s
  | .bufferAdmit sl p0 p1 p2 => Sys2Proof.Machine.execBufferAdmit sl p0 p1 p2 s
  | .cacheRefill sl k bad => Sys2Proof.Machine.execCacheRefill sl k bad s
  | .cacheSpill sl k => Sys2Proof.Machine.execCacheSpill sl k s
  | .bufferFree sl ptr pool tag => Sys2Proof.Machine.execBufferFree sl ptr pool tag s
  | .auditPass => Sys2Proof.Machine.execAuditPass s
  | .queHaltWrite by_ v => Sys2Proof.Machine.execQueHaltWrite by_ v s
  | .pfcFrameTransmit p lane d n => Sys2Proof.Machine.execPfcFrameTransmit p lane d n s
  | .pfcRepeat p c => Sys2Proof.Machine.execPfcRepeat p c s
  | .pfcHoldExpiry p c => Sys2Proof.Machine.execPfcHoldExpiry p c s
  | .pfcFrameReceive p opcode enable times => Sys2Proof.Machine.execPfcFrameReceive p opcode enable times s
  | .pauseExpiry p c => Sys2Proof.Machine.execPauseExpiry p c s
  | .schPfcLong p c => Sys2Proof.Machine.execSchPfcLong p c s
  | .offerArrival q => Sys2Proof.Machine.execOfferArrival q s
  | .schedulerGrant p locked slot fault => Sys2Proof.Machine.execSchedulerGrant p locked slot fault s
  | .mcastArbiterGrant e fault => Sys2Proof.Machine.execMcastArbiterGrant e fault s
  | .replicate e => Sys2Proof.Machine.execReplicate e s
  | .crossbarArrival p => Sys2Proof.Machine.execCrossbarArrival p s
  | .lockRelease p slot parity => Sys2Proof.Machine.execLockRelease p slot parity s
  | .frameTransmitStart p lane d n first fault => Sys2Proof.Machine.execFrameTransmitStart p lane d n first fault s
  | .frameTransmitEnd p t => Sys2Proof.Machine.execFrameTransmitEnd p t s
  | .shaperRecoveryEnd p => Sys2Proof.Machine.execShaperRecoveryEnd p s
  | .gateEntryChange p => Sys2Proof.Machine.execGateEntryChange p s
  | .gateScheduleStart p => Sys2Proof.Machine.execGateScheduleStart p s
  | .schGlWrite by_ ix v => Sys2Proof.Machine.execSchGlWrite by_ ix v s
  | .emInsert keeper cmd => Sys2Proof.Machine.execEmInsert keeper cmd s
  | .emDelete keeper cmd => Sys2Proof.Machine.execEmDelete keeper cmd s
  | .emUpdate keeper cmd => Sys2Proof.Machine.execEmUpdate keeper cmd s
  | .emLookup keeper cmd => Sys2Proof.Machine.execEmLookup keeper cmd s
  | .tcWrite keeper cmd => Sys2Proof.Machine.execTcWrite keeper cmd s
  | .tcInvalidate keeper cmd => Sys2Proof.Machine.execTcInvalidate keeper cmd s
  | .tcInsertShift keeper cmd => Sys2Proof.Machine.execTcInsertShift keeper cmd s
  | .tcMoveStep => Sys2Proof.Machine.execTcMoveStep s
  | .nhWrite keeper cmd => Sys2Proof.Machine.execNhWrite keeper cmd s
  | .selWrite keeper cmd => Sys2Proof.Machine.execSelWrite keeper cmd s
  | .vlanWrite keeper cmd => Sys2Proof.Machine.execVlanWrite keeper cmd s
  | .smacWrite keeper cmd => Sys2Proof.Machine.execSmacWrite keeper cmd s
  | .tunWrite keeper cmd => Sys2Proof.Machine.execTunWrite keeper cmd s
  | .replListWrite keeper cmd => Sys2Proof.Machine.execReplListWrite keeper cmd s
  | .replGroupWrite keeper cmd => Sys2Proof.Machine.execReplGroupWrite keeper cmd s
  | .replGroupRead keeper cmd => Sys2Proof.Machine.execReplGroupRead keeper cmd s
  | .mtrProfWrite keeper cmd => Sys2Proof.Machine.execMtrProfWrite keeper cmd s
  | .mtrSet keeper cmd => Sys2Proof.Machine.execMtrSet keeper cmd s
  | .mtrRead keeper cmd => Sys2Proof.Machine.execMtrRead keeper cmd s
  | .tableCmdBadOp keeper cmd => Sys2Proof.Machine.execTableCmdBadOp keeper cmd s
  | .fwdRingTailWrite by_ v => Sys2Proof.Machine.execFwdRingTailWrite by_ v s
  | .tableRestoreDone mem index => Sys2Proof.Machine.execTableRestoreDone mem index s
  | .tcmScrub e result => Sys2Proof.Machine.execTcmScrub e result s
  | .claimSwap by_ r v => Sys2Proof.Machine.execClaimSwap by_ r v s
  | .claimWrite by_ r v => Sys2Proof.Machine.execClaimWrite by_ r v s
  | .claimTryRead fn r => Sys2Proof.Machine.execClaimTryRead fn r s
  | .claimForce by_ v => Sys2Proof.Machine.execClaimForce by_ v s
  | .verOpen by_ => Sys2Proof.Machine.execVerOpen by_ s
  | .verArm by_ => Sys2Proof.Machine.execVerArm by_ s
  | .verAbortAll by_ => Sys2Proof.Machine.execVerAbortAll by_ s
  | .verAbortOpen by_ => Sys2Proof.Machine.execVerAbortOpen by_ s
  | .verCtlInvalid by_ => Sys2Proof.Machine.execVerCtlInvalid by_ s
  | .verAgreementCheck => Sys2Proof.Machine.execVerAgreementCheck s
  | .verCommitInstant => Sys2Proof.Machine.execVerCommitInstant s
  | .verSweepStart reported => Sys2Proof.Machine.execVerSweepStart reported s
  | .verRetire => Sys2Proof.Machine.execVerRetire s
  | .epochEnd => Sys2Proof.Machine.execEpochEnd s
  | .sealSigned ok => Sys2Proof.Machine.execSealSigned ok s
  | .witStop by_ => Sys2Proof.Machine.execWitStop by_ s
  | .witStart by_ => Sys2Proof.Machine.execWitStart by_ s
  | .ringUnitWrite reads => Sys2Proof.Machine.execRingUnitWrite reads s
  | .pushExportUnit errs => Sys2Proof.Machine.execPushExportUnit errs s
  | .pushHeadWrite by_ ix v => Sys2Proof.Machine.execPushHeadWrite by_ ix v s
  | .pullHeadWrite by_ v => Sys2Proof.Machine.execPullHeadWrite by_ v s
  | .exportFrameTransmit j errs => Sys2Proof.Machine.execExportFrameTransmit j errs s
  | .towPortCfgWrite by_ p v => Sys2Proof.Machine.execTowPortCfgWrite by_ p v s
  | .towpathDataReceive p bytes => Sys2Proof.Machine.execTowpathDataReceive p bytes s
  | .membershipFrameSend => Sys2Proof.Machine.execMembershipFrameSend s
  | .membershipFrameReceive p bytes => Sys2Proof.Machine.execMembershipFrameReceive p bytes s
  | .timeFrameSend p lane d n => Sys2Proof.Machine.execTimeFrameSend p lane d n s
  | .timeFrameReceive p bytes lane d phi n => Sys2Proof.Machine.execTimeFrameReceive p bytes lane d phi n s
  | .anchorFrameReceive p bytes => Sys2Proof.Machine.execAnchorFrameReceive p bytes s
  | .memberTimeout ix => Sys2Proof.Machine.execMemberTimeout ix s
  | .towFreqCheck p diff => Sys2Proof.Machine.execTowFreqCheck p diff s
  | .towHeal by_ v => Sys2Proof.Machine.execTowHeal by_ v s
  | .rejoinInstant => Sys2Proof.Machine.execRejoinInstant s
  | .secReady calOk => Sys2Proof.Machine.execSecReady calOk s
  | .envFailure => Sys2Proof.Machine.execEnvFailure s
  | .periodicSelftest => Sys2Proof.Machine.execPeriodicSelftest s
  | .selftestDone failed => Sys2Proof.Machine.execSelftestDone failed s
  | .selftestRetry => Sys2Proof.Machine.execSelftestRetry s
  | .nonce by_ arg => Sys2Proof.Machine.execNonce by_ arg s
  | .secOpen by_ arg => Sys2Proof.Machine.execSecOpen by_ arg s
  | .secClose by_ arg => Sys2Proof.Machine.execSecClose by_ arg s
  | .ownerInstall by_ arg => Sys2Proof.Machine.execOwnerInstall by_ arg s
  | .ownerRelease by_ arg => Sys2Proof.Machine.execOwnerRelease by_ arg s
  | .ldevGen by_ arg => Sys2Proof.Machine.execLdevGen by_ arg s
  | .ldevInstall by_ arg certOk => Sys2Proof.Machine.execLdevInstall by_ arg certOk s
  | .selftest by_ arg => Sys2Proof.Machine.execSelftest by_ arg s
  | .zeroise by_ arg => Sys2Proof.Machine.execZeroise by_ arg s
  | .protCommit by_ arg => Sys2Proof.Machine.execProtCommit by_ arg s
  | .secOpBadOp by_ op arg => Sys2Proof.Machine.execSecOpBadOp by_ op arg s
  | .nonceExpiry => Sys2Proof.Machine.execNonceExpiry s
  | .lockoutExpiry => Sys2Proof.Machine.execLockoutExpiry s
  | .sessionIdleTimeout => Sys2Proof.Machine.execSessionIdleTimeout s
  | .attestGo by_ => Sys2Proof.Machine.execAttestGo by_ s
  | .pcieLinkChange up hotReset speed width flit => Sys2Proof.Machine.execPcieLinkChange up hotReset speed width flit s
  | .perstNAssert => Sys2Proof.Machine.execPerstNAssert s
  | .functionLevelReset fn => Sys2Proof.Machine.execFunctionLevelReset fn s
  | .d3hotEntry fn => Sys2Proof.Machine.execD3hotEntry fn s
  | .d0Return fn => Sys2Proof.Machine.execD0Return fn s
  | .dmaEnable by_ c v => Sys2Proof.Machine.execDmaEnable by_ c v s
  | .dmaDescTailWrite by_ c v => Sys2Proof.Machine.execDmaDescTailWrite by_ c v s
  | .procCopyDma id reason desc => Sys2Proof.Machine.execProcCopyDma id reason desc s
  | .frameInject c desc frame => Sys2Proof.Machine.execFrameInject c desc frame s
  | .dmaCompletion c => Sys2Proof.Machine.execDmaCompletion c s
  | .dmaError c code => Sys2Proof.Machine.execDmaError c code s
  | .sourceAssert n payload => Sys2Proof.Machine.execSourceAssert n payload s
  | .evqClaim q parity => Sys2Proof.Machine.execEvqClaim q parity s
  | .evqRecordWrite q => Sys2Proof.Machine.execEvqRecordWrite q s
  | .evqArm by_ q v => Sys2Proof.Machine.execEvqArm by_ q v s
  | .evqEnable by_ q v => Sys2Proof.Machine.execEvqEnable by_ q v s
  | .msixSend q => Sys2Proof.Machine.execMsixSend q s
  | .keeperInterrupt k served => Sys2Proof.Machine.execKeeperInterrupt k served s
  | .hbmRefresh pc n temp => Sys2Proof.Machine.execHbmRefresh pc n temp s
  | .selfRefreshEntry k => Sys2Proof.Machine.execSelfRefreshEntry k s
  | .selfRefreshExit k => Sys2Proof.Machine.execSelfRefreshExit k s
  | .hbmPatrol line err => Sys2Proof.Machine.execHbmPatrol line err s
  | .captureWrite reads => Sys2Proof.Machine.execCaptureWrite reads s
  | .scpHostWrite fn a v waits => Sys2Proof.Machine.execScpHostWrite fn a v waits s
  | .scpHandoverStart by_ b v => Sys2Proof.Machine.execScpHandoverStart by_ b v s
  | .scpHandoverDone b => Sys2Proof.Machine.execScpHandoverDone b s
  | .marchTest fails taken retest => Sys2Proof.Machine.execMarchTest fails taken retest s
  | .keeperCmdWrite by_ k v poison => Sys2Proof.Machine.execKeeperCmdWrite by_ k v poison s
  | .kprWatchdog k => Sys2Proof.Machine.execKprWatchdog k s
  | .chipReaction => Sys2Proof.Machine.execChipReaction s
  | .faultQuietExpiry n => Sys2Proof.Machine.execFaultQuietExpiry n s
  | .stickyClear by_ j v => Sys2Proof.Machine.execStickyClear by_ j v s
  | .pairBreak n => Sys2Proof.Machine.execPairBreak n s
  | .lanternMismatch pos neg => Sys2Proof.Machine.execLanternMismatch pos neg s
  | .lanternTest by_ v => Sys2Proof.Machine.execLanternTest by_ v s
  | .lanternTestEnd => Sys2Proof.Machine.execLanternTestEnd s
  | .fltInject by_ v => Sys2Proof.Machine.execFltInject by_ v s
  | .factoryTestEntry enter unlock => Sys2Proof.Machine.execFactoryTestEntry enter unlock s
  | .jtagInstruction ix => Sys2Proof.Machine.execJtagInstruction ix s
  | .ferryEnterRequest by_ v => Sys2Proof.Machine.execFerryEnterRequest by_ v s
  | .ferryPath port lane d phi n bytes err => Sys2Proof.Machine.execFerryPath port lane d phi n bytes err s
  | .ferryQuietExpiry => Sys2Proof.Machine.execFerryQuietExpiry s
  | .ferryRelease by_ v => Sys2Proof.Machine.execFerryRelease by_ v s
  | .candleMeasure readings replicas => Sys2Proof.Machine.execCandleMeasure readings replicas s
  | .eyeScan l mui => Sys2Proof.Machine.execEyeScan l mui s
  | .replan remain remain95 => Sys2Proof.Machine.execReplan remain remain95 s
  | .replanRequest by_ v => Sys2Proof.Machine.execReplanRequest by_ v s
  | .avsStep ack => Sys2Proof.Machine.execAvsStep ack s
  | .tjHigh ix temp => Sys2Proof.Machine.execTjHigh ix temp s
  | .snapArm by_ v => Sys2Proof.Machine.execSnapArm by_ v s
  | .snapCancel by_ v => Sys2Proof.Machine.execSnapCancel by_ v s
  | .snapInstant => Sys2Proof.Machine.execSnapInstant s
  | .snapWrite addr len dmaError => Sys2Proof.Machine.execSnapWrite addr len dmaError s
  | .samplerOverflow ix => Sys2Proof.Machine.execSamplerOverflow ix s
  | .sampleTake ix id => Sys2Proof.Machine.execSampleTake ix id s
  | .samplerCfgWrite by_ ix v => Sys2Proof.Machine.execSamplerCfgWrite by_ ix v s
  | .smbusRead code => Sys2Proof.Machine.execSmbusRead code s
  | .hostRead fn bar off len ecc => Sys2Proof.Machine.execHostRead fn bar off len ecc s
  | .pcieConfigWrite fn vfs busMaster pmeEn => Sys2Proof.Machine.execPcieConfigWrite fn vfs busMaster pmeEn s
  | .ppsOutEdge ix rising => Sys2Proof.Machine.execPpsOutEdge ix rising s
  | .secOpComplete ok cert => Sys2Proof.Machine.execSecOpComplete ok cert s
  | .attestReportDone => Sys2Proof.Machine.execAttestReportDone s
  | .l12Entry => Sys2Proof.Machine.execL12Entry s

end Sys2Proof.Machine
end

