-- ==== Sys2Proof/Safety.lean ====
section
/-! DEFINITION. The notions that claims about the machine are stated with: canonical memory, states in which nothing is due,
what is held while the device is in reset, and what a command completes with. -/
namespace Sys2Proof

/-- A memory is in its canonical form: addresses strictly rising, and no byte listed that reads 0 unlisted. -/
def Memory.wf (m : List Host.Cell) : Bool := Machine.mwfD (0 : Byte) m

namespace Machine.State

/-- Every byte memory of the state is in its canonical form: the scratchpad and the capture ring. -/
def memWf (s : State) : Bool := Memory.wf s.scp.mem && Memory.wf s.hbm.capRing

/-- Every register listed holds a value other than its reset value, and offsets rise. -/
def regsWf (s : State) : Bool := mwf s.regs && s.regs.all (fun e => decide (e.2 ≠ BitVec.ofNat 64 (resetOf e.1)))

/-- Nothing is due in `s`: no reaction waits, no load has failed, block TOW is off, the bits TIME and SEAL of CFG_READY show
what they should, and the link is not in L1.2. What a command leaves in such a state is what it did itself. -/
def calm (s : State) : Bool :=
  s.flt.due.isEmpty && s.boot.cmdFail.isNone && !s.towOn
    && (s.flag Reg.CFG_BOOT_STAT F.CFG_BOOT_STAT.NO_IMAGE || s.ready 6 == decide (2 ≤ s.tq ∧ s.tq ≤ 7))
    && s.ready 8 == (s.ready 7 && s.ready 0) && !s.hif.l12

/-- Source `n` reacts with none of BLK, CHIP and DEG (R445). -/
def mild (s : State) (n : Nat) : Bool := !(bitOf (s.react n) 2) && !(bitOf (s.react n) 3) && !(bitOf (s.react n) 5)

/-- Everything that a reset clears is clear (Table BOOT-7): all but the NVM's own records, the pins, the registers that keep
their cause bits, and the model's own fields. -/
def cleared (s : State) : Prop :=
  s.time = 0 ∧ s.stg = {} ∧ s.tim = {} ∧ s.ports = [] ∧ s.nextPkt = 0 ∧ s.nextRel = 1 ∧ s.pkts = [] ∧ s.prs = {} ∧ s.tab = {} ∧ s.scp = {}
    ∧ s.que = {} ∧ s.mtr = {} ∧ s.egr = {} ∧ s.ver = {} ∧ s.tow = {} ∧ s.wit = {} ∧ s.hif = {} ∧ s.flt = {} ∧ s.cnd = {}
    ∧ s.kpr = [] ∧ s.pmc = {} ∧ s.hbm = {} ∧ s.boot.running = false ∧ s.boot.loading = false ∧ s.sec.nonce = none
    ∧ (∀ off, off ≠ Reg.CFG_NVM_CTL → off ≠ Reg.CFG_RESET_CAUSE → off ≠ Reg.FLT_LAST_CHIP → s.rd off = resetOf off)

/-- While PWR_OK or RESET_N is low, everything that a reset clears is clear. -/
def resetInv (s : State) : Prop := s.inReset = true → s.cleared

/-- Every waiting command is well formed. -/
def queueInv (s : State) : Prop := ∀ i ∈ s.pending, Instr.wellFormed i = true

/-- A write to register `off` by an agent reaches its block: the device is out of reset, the agent may issue it, and neither
the readiness (R380) nor the protection table (R359) turns it away. -/
def reaches (s : State) (by_ : Agent) (off : Nat) : Bool :=
  !s.inReset && s.mayIssue by_ &&
    match by_ with
    | .host _ => (s.ready 15 || [0, 1, 18, 23].contains (blockOf off)) && s.permits (s.roleOf by_) 1 (off / 8) 1
    | _ => true

/-- Command `i` completes in `s`: `exec` answers a next state, which is what follows at once (`finish`) from a state `u` that
has the property `P`; where nothing was due and nothing is due in `u`, it is `u` itself. -/
def completes (i : Instr) (s : State) (P : State → Prop) : Prop :=
  ∃ u, exec i s = .next (finish s u) ∧ P u
    ∧ (s.calm = true → u.calm = true → exec i s = .next { u with pending := s.pending, pins := s.pins })

/-- Port `p` sends a frame of its own at once: it sends frames, none is in transmission, and no flow-control frame and no earlier frame
of its own is due (R318). -/
def sendsAtOnce (s : State) (p : Nat) : Prop :=
  s.maySend p = true ∧ (s.egress p).sending = none ∧ (s.egress p).ahead = []
    ∧ ∀ k, k < 8 → (mget {} s.que.pfc (8 * p + k)).owed = false

/-- `u` differs from `s` in registers alone, and in those only where `touched` says. -/
def onlyRegs (s u : State) (touched : Nat → Prop) : Prop :=
  (∃ regs, u = { s with regs := regs }) ∧ ∀ off, ¬ touched off → u.rd off = s.rd off

/-- Barge `n`, which is `b` with packet `p`, runs its next word `w`, of opcode `o`, to its end: no handler runs, no trap is claimed
first, the routine has the word's cycles left, the word has no double-bit error yet, and no register it reads is pending (R101,
R106, R113, R116, R126). -/
def runsNext (s : State) (n o : Nat) (p : Packet) (b : Barge) (w : Microword) : Prop :=
  s.inReset = false ∧ mfind s.prs.barges n = some b ∧ mfind s.pkts b.pkt = some p ∧ s.fetch p b = w ∧ Word.op w = o
    ∧ b.serving = none ∧ trapFirst b = false ∧ b.cycles < s.runLimit (n / 96) p
    ∧ b.cycles + s.wordCycles b w ≤ s.runLimit (n / 96) p ∧ s.csBad (n / 96) p b = false ∧ pendingRead b w = none

/-- The state after barge `n` has fetched a word with `errs` bits in error, not two: a corrected one is counted (R126). -/
def fetched (s : State) (n errs : Nat) : State := if errs = 1 then s.count (Ctr.PRS_CS_CORRECTED (n / 96)) else s

/-- The state after barge `n` has spent `c` engine cycles (Table PARSE-35). -/
def spent (s : State) (n c : Nat) : State := s.count (Ctr.PRS_CYCLES (n / 96)) c

/-- The barge after word `w` of `b`, held `held` cycles, where the opcode itself has made it `x`: its cycles, its cursor, which
never passes 256, and its next address, which is `succ` or what COND selects on the new flags (R106, R108). -/
def wordDone (s : State) (b : Barge) (w : Microword) (held : Nat) (x : Barge) (succ : Option Nat) : Barge :=
  let y := { x with
    cycles := b.cycles + s.wordCycles b w + held, skid := b.skid + 1,
    cursor := min 256 (x.cursor + if Word.at_ w 103 103 = 1 then (greg x (Word.srcA w)).toNat else Word.at_ w 111 104) }
  { y with pc := (succ.getD (if condHolds x (Word.cond w) then Word.alt w else Word.next w)) % 2 ^ 14 }

/-- Word `w` of `b`, barge `n`, has run from `s`, fetched with `errs` bits in error, and the opcode itself has made the barge `x`. -/
def wordRan (s u : State) (n errs : Nat) (b : Barge) (w : Microword) (x : Barge) (succ : Option Nat) : Prop :=
  u = ((s.fetched n errs).spent n (s.wordCycles b w)).setBarge n (s.wordDone b w 0 x succ)

/-- Barge `n` of packet `id` has ended its routine with exception code `exc`, 0 for none (R101, R112, R115): the barge is free, the
manifest is closed with the code in it, and an exception is raised. -/
def routineEnded (s u : State) (n id exc : Nat) : Prop :=
  mfind u.prs.barges n = none ∧ (exc ≠ 0 → u.sticky Src.PRS_EXCEPTION = true)
    ∧ ∃ p q, mfind s.pkts id = some p ∧ mfind u.pkts id = some q ∧ q.stage = .closed ∧ manGet q.manifest 39 36 = exc
      ∧ q.bytes = p.bytes ∧ q.stamp = p.stamp
      ∧ q.excAction = (if exc = 0 then 1 else
          bits (s.cfgAt (Reg.PRS_PROFILE (n / 96) p.profile) p.ver p.stamp) F.PRS_PROFILE.EXC_ACTION.hi F.PRS_PROFILE.EXC_ACTION.lo)

/-- The next command of a ring is `cmd`, of opcode `op`, and may run now (R159, R160). -/
def cmdNext (s : State) (keeper : Bool) (op : Nat) (cmd : Bytes) : Prop :=
  s.inReset = false ∧ s.ringReady keeper = true ∧ byteAt cmd 0 = op

/-- A ring's commands may change region `r`: its role has the right CMD and its agent holds the region (R161, R359). -/
def cmdMay (s : State) (keeper : Bool) (r : Nat) : Prop :=
  (keeper = true ∨ s.permits (s.roleOf (.host 0)) 4 r 2 = true) ∧ s.holder r = s.ringAgent keeper

/-- Command `cmd` of a ring has completed with `status` and what it returns (R159): the ring's head has advanced by one, the
host ring's image has its status byte and its reply, keeper firmware is given both, and the two sources are raised as the command and the status ask. -/
def cmdDone (s u : State) (keeper : Bool) (cmd : Bytes) (status : Nat) (reply : Option Bytes) : Prop :=
  (if keeper then u.tab.keeperHead = s.tab.keeperHead + 1
        ∧ u.out = s.out ++ [.cmdReply (s.tab.keeperHead % 65536) status (reply.getD [])]
    else
      let head := s.fld Reg.FWD_RING_CTL F.FWD_RING_CTL.HEAD
      let image := s.fld Reg.FWD_RING_BASE F.FWD_RING_BASE.ADDR * 128 + 128 * (head % s.ringSize)
      u.fld Reg.FWD_RING_CTL F.FWD_RING_CTL.HEAD = (head + 1) % 65536
        ∧ u.out = s.out ++ (reply.toList.map (fun r => Output.hostWrite 0 (image + 16) r))
          ++ [.hostWrite 0 (image + 1) (le 1 status)])
    ∧ (byteAt cmd 2 % 2 = 1 → u.sticky Src.FWD_CMD_DONE = true) ∧ (1 < status → u.sticky Src.FWD_CMD_ERR = true)

/-- No exact-match entry has changed. -/
def sameEntries (s u : State) : Prop := ∀ l, u.emAt l = s.emAt l

/-- No ternary row has changed. -/
def sameRows (s u : State) : Prop := ∀ e, mget {} u.tab.tc e = mget {} s.tab.tc e

/-- The agent and the register of a command that is a write to one register and has no effect beside that write's: every such row
but REGISTER_WRITE, whose register is its operand, a Swap, which also returns a value, and EVQ_ENABLE of a keeper core's own queue. -/
def writeOf : Instr → Option (Agent × Nat)
  | .chipReset by_ _ => some (by_, Reg.CFG_RESET)
  | .blockReset by_ _ => some (by_, Reg.CFG_RESET)
  | .nvmRead by_ _ => some (by_, Reg.CFG_NVM_CMD)
  | .nvmErase by_ _ => some (by_, Reg.CFG_NVM_CMD)
  | .nvmProgram by_ _ => some (by_, Reg.CFG_NVM_CMD)
  | .nvmCmdInvalid by_ v => if 1 ≤ v.toNat % 8 ∧ v.toNat % 8 ≤ 3 then none else some (by_, Reg.CFG_NVM_CMD)
  | .bootSelectorWrite by_ _ => some (by_, Reg.CFG_NVM_CTL)
  | .timStep by_ _ => some (by_, Reg.TIM_STEP)
  | .timSlew by_ _ => some (by_, Reg.TIM_SLEW)
  | .timIncr by_ _ => some (by_, Reg.TIM_INCR)
  | .ptpServoUpdate by_ _ => some (by_, Reg.TIM_PTP_OFS)
  | .freeRun by_ _ => some (by_, Reg.TIM_CTRL)
  | .timApply by_ _ => some (by_, Reg.TIM_APPLY)
  | .prtApply by_ _ => some (by_, Reg.PRT_APPLY)
  | .prsApply by_ _ => some (by_, Reg.PRS_APPLY)
  | .xmtApply by_ _ => some (by_, Reg.XMT_APPLY)
  | .tcmApply by_ _ => some (by_, Reg.TCM_APPLY)
  | .fwdApply by_ _ => some (by_, Reg.FWD_APPLY)
  | .mtrApply by_ _ => some (by_, Reg.MTR_APPLY)
  | .queApply by_ _ => some (by_, Reg.QUE_APPLY)
  | .schApply by_ _ => some (by_, Reg.SCH_APPLY)
  | .lckApply by_ _ => some (by_, Reg.LCK_APPLY)
  | .witApply by_ _ => some (by_, Reg.WIT_APPLY)
  | .towApply by_ _ => some (by_, Reg.TOW_APPLY)
  | .hbmApply by_ _ => some (by_, Reg.HBM_APPLY)
  | .prtCfgWrite by_ p _ => some (by_, Reg.PRT_CFG p)
  | .prtOctetWrite by_ o _ => some (by_, Reg.PRT_OCTET o)
  | .portDisable by_ p => some (by_, Reg.PRT_CFG p)
  | .prsProfileWrite by_ sl ix _ => some (by_, Reg.PRS_PROFILE sl ix)
  | .prsCsBankWrite by_ _ => some (by_, Reg.PRS_CS_BANK)
  | .ucodeLoadGo by_ _ => some (by_, Reg.PRS_CS_LOAD_CTL)
  | .queHaltWrite by_ _ => some (by_, Reg.QUE_CTL)
  | .schGlWrite by_ ix _ => some (by_, Reg.SCH_GL ix)
  | .fwdRingTailWrite by_ _ => some (by_, Reg.FWD_RING_CTL)
  | .claimWrite by_ r _ => some (by_, Reg.FWD_CLAIM r)
  | .claimForce by_ _ => some (by_, Reg.FWD_CLAIM_FORCE)
  | .verOpen by_ => some (by_, Reg.VER_CTL)
  | .verArm by_ => some (by_, Reg.VER_CTL)
  | .verAbortAll by_ => some (by_, Reg.VER_CTL)
  | .verAbortOpen by_ => some (by_, Reg.VER_CTL)
  | .verCtlInvalid by_ => some (by_, Reg.VER_CTL)
  | .witStop by_ => some (by_, Reg.WIT_CTL)
  | .witStart by_ => some (by_, Reg.WIT_CTL)
  | .pushHeadWrite by_ ix _ => some (by_, Reg.WIT_EXP_RING_HEAD ix)
  | .pullHeadWrite by_ _ => some (by_, Reg.WIT_PULL_HEAD)
  | .towPortCfgWrite by_ p _ => some (by_, Reg.TOW_PORT_CFG p)
  | .towHeal by_ _ => some (by_, Reg.TOW_CTL)
  | .nonce by_ _ => some (by_, Reg.SEC_OP)
  | .secOpen by_ _ => some (by_, Reg.SEC_OP)
  | .secClose by_ _ => some (by_, Reg.SEC_OP)
  | .ownerInstall by_ _ => some (by_, Reg.SEC_OP)
  | .ownerRelease by_ _ => some (by_, Reg.SEC_OP)
  | .ldevGen by_ _ => some (by_, Reg.SEC_OP)
  | .ldevInstall by_ _ _ => some (by_, Reg.SEC_OP)
  | .selftest by_ _ => some (by_, Reg.SEC_OP)
  | .zeroise by_ _ => some (by_, Reg.SEC_OP)
  | .protCommit by_ _ => some (by_, Reg.SEC_OP)
  | .secOpBadOp by_ _ _ => some (by_, Reg.SEC_OP)
  | .attestGo by_ => some (by_, Reg.SEC_ATTEST_CTL)
  | .dmaEnable by_ c _ => some (by_, Reg.HIF_DMA_CFG c)
  | .dmaDescTailWrite by_ c _ => some (by_, Reg.HIF_DMA_TAIL c)
  | .evqArm by_ q _ => some (by_, Reg.EVQ_IDX q)
  | .scpHandoverStart by_ b _ => some (by_, Reg.SCP_OWNER b)
  | .keeperCmdWrite by_ k _ _ => some (by_, Reg.KPR_CMD_DATA k)
  | .stickyClear by_ j _ => some (by_, Reg.FLT_STICKY j)
  | .lanternTest by_ _ => some (by_, Reg.FLT_CTL)
  | .fltInject by_ _ => some (by_, Reg.FLT_INJECT)
  | .ferryEnterRequest by_ _ => some (by_, Reg.FLT_FERRY_CTL)
  | .ferryRelease by_ _ => some (by_, Reg.FLT_FERRY_CTL)
  | .replanRequest by_ _ => some (by_, Reg.CND_CTL)
  | .snapArm by_ _ => some (by_, Reg.PMC_SNAP_CTL)
  | .snapCancel by_ _ => some (by_, Reg.PMC_SNAP_CTL)
  | .samplerCfgWrite by_ ix _ => some (by_, Reg.PMC_SAMPLE_CFG ix)
  | .evqEnable by_ q _ => if 4 ≤ q then some (by_, Reg.EVQ_CFG q) else none
  | _ => none

/-- SEC_OP shows that operation `op` has `status`, 1 while it runs (Table SEC-4). -/
def opShows (u : State) (op status : Nat) : Prop :=
  u.fld Reg.SEC_OP F.SEC_OP.LAST_OP = op ∧ u.fld Reg.SEC_OP F.SEC_OP.STATUS = status
    ∧ u.flag Reg.SEC_OP F.SEC_OP.BUSY = decide (status = 1)

/-- What the STG fields of register `off` are in force (R8). -/
def inForce (s : State) (off : Nat) : Nat := s.cfg off &&& accMask off .stg

/-- An APPLY of block `b` has gone from `s` to `u` (R8, R185, R188): where the block's check `bad` of the shadows finds nothing,
every STG field of the block is in force as written; else none has changed, and what the check names is raised. -/
def applied (s u : State) (b : Nat) (bad : Option (Nat × Nat)) : Prop :=
  (bad = none → ∀ off, blockOf off = b → u.inForce off = s.rd off &&& accMask off .stg)
    ∧ ∀ src payload, bad = some (src, payload) → u.sticky src = true ∧ ∀ off, u.inForce off = s.inForce off

end Machine.State
end Sys2Proof
end

