-- ==== Sys2Proof/Laws/Maps.lean ====
section
/-! SUPPORT. The sparse tables: what is found after a change, and that every change keeps the canonical form. -/
namespace Sys2Proof.Machine

variable {α : Type}

/-- A table is canonical when its head is below every later index and its tail is canonical. -/
theorem mwf_cons (i : Nat) (v : α) (t : SMap α) :
    mwf ((i, v) :: t) = true ↔ (∀ e ∈ t, i < e.1) ∧ mwf t = true := by
  induction t generalizing i v with
  | nil => simp [mwf]
  | cons e t ih =>
    obtain ⟨j, w⟩ := e
    simp only [mwf, Bool.and_eq_true, decide_eq_true_eq, List.mem_cons]
    constructor
    · rintro ⟨h, ht⟩
      refine ⟨?_, ht⟩
      rintro e (rfl | he)
      · exact h
      · exact Nat.lt_trans h (((ih j w).mp ht).1 e he)
    · rintro ⟨h, ht⟩
      exact ⟨h (j, w) (Or.inl rfl), ht⟩

theorem mem_mput (m : SMap α) (k : Nat) (v : α) (e : Nat × α) (h : e ∈ mput m k v) : e = (k, v) ∨ e ∈ m := by
  induction m with
  | nil => simpa [mput] using h
  | cons a t ih =>
    obtain ⟨i, w⟩ := a
    simp only [mput] at h
    split at h
    · simpa using h
    · split at h
      · rcases List.mem_cons.mp h with h | h
        · exact Or.inl h
        · exact Or.inr (List.mem_cons_of_mem _ h)
      · rcases List.mem_cons.mp h with h | h
        · exact Or.inr (h ▸ List.mem_cons_self)
        · rcases ih h with h | h
          · exact Or.inl h
          · exact Or.inr (List.mem_cons_of_mem _ h)

theorem mem_mdel (m : SMap α) (k : Nat) (e : Nat × α) (h : e ∈ mdel m k) : e ∈ m := by
  induction m with
  | nil => simp [mdel] at h
  | cons a t ih =>
    obtain ⟨i, w⟩ := a
    simp only [mdel] at h
    split at h
    · exact List.mem_cons_of_mem _ (ih h)
    · rcases List.mem_cons.mp h with h | h
      · exact h ▸ List.mem_cons_self
      · exact List.mem_cons_of_mem _ (ih h)

theorem mput_wf (m : SMap α) (k : Nat) (v : α) (h : mwf m = true) : mwf (mput m k v) = true := by
  induction m with
  | nil => rfl
  | cons a t ih =>
    obtain ⟨i, w⟩ := a
    rw [mwf_cons] at h
    simp only [mput]
    split
    · rename_i hk
      rw [mwf_cons]
      refine ⟨?_, (mwf_cons i w t).mpr h⟩
      intro e he
      rcases List.mem_cons.mp he with rfl | he
      · exact hk
      · exact Nat.lt_trans hk (h.1 e he)
    · split
      · rename_i hk
        rw [mwf_cons]
        exact ⟨fun e he => hk ▸ h.1 e he, h.2⟩
      · rw [mwf_cons]
        refine ⟨?_, ih h.2⟩
        intro e he
        rcases mem_mput t k v e he with rfl | he
        · show i < k
          omega
        · exact h.1 e he

theorem mdel_wf (m : SMap α) (k : Nat) (h : mwf m = true) : mwf (mdel m k) = true := by
  induction m with
  | nil => rfl
  | cons a t ih =>
    obtain ⟨i, w⟩ := a
    rw [mwf_cons] at h
    simp only [mdel]
    split
    · exact ih h.2
    · rw [mwf_cons]
      exact ⟨fun e he => h.1 e (mem_mdel t k e he), ih h.2⟩

theorem mfilter_wf (m : SMap α) (p : Nat × α → Bool) (h : mwf m = true) : mwf (m.filter p) = true := by
  induction m with
  | nil => rfl
  | cons a t ih =>
    obtain ⟨i, w⟩ := a
    rw [mwf_cons] at h
    rw [List.filter_cons]
    split
    · rw [mwf_cons]
      exact ⟨fun e he => h.1 e (List.mem_of_mem_filter he), ih h.2⟩
    · exact ih h.2

/-- A value written is found. -/
@[simp] theorem mfind_mput_same (m : SMap α) (k : Nat) (v : α) : mfind (mput m k v) k = some v := by
  induction m with
  | nil => simp [mput, mfind]
  | cons a t ih =>
    obtain ⟨i, w⟩ := a
    simp only [mput]
    split
    · simp [mfind]
    · split
      · simp [mfind]
      · rename_i h1 h2
        simp only [mfind]
        rw [if_neg (by omega), ih]

/-- A write leaves every other index as it was. -/
theorem mfind_mput_other (m : SMap α) (k j : Nat) (v : α) (h : j ≠ k) : mfind (mput m k v) j = mfind m j := by
  have h' : ¬ k = j := fun e => h e.symm
  induction m with
  | nil => simp only [mput, mfind, if_neg h']
  | cons a t ih =>
    obtain ⟨i, w⟩ := a
    simp only [mput]
    split
    · simp only [mfind, if_neg h']
    · split
      · rename_i h1 h2
        subst h2
        simp only [mfind, if_neg h']
      · simp only [mfind, ih]

/-- A deleted index is not found. -/
@[simp] theorem mfind_mdel_same (m : SMap α) (k : Nat) : mfind (mdel m k) k = none := by
  induction m with
  | nil => rfl
  | cons a t ih =>
    obtain ⟨i, w⟩ := a
    simp only [mdel]
    split
    · exact ih
    · rename_i hi
      simp only [mfind, if_neg hi, ih]

/-- A deletion leaves every other index as it was. -/
theorem mfind_mdel_other (m : SMap α) (k j : Nat) (h : j ≠ k) : mfind (mdel m k) j = mfind m j := by
  have h' : ¬ k = j := fun e => h e.symm
  induction m with
  | nil => rfl
  | cons a t ih =>
    obtain ⟨i, w⟩ := a
    simp only [mdel]
    split
    · rename_i hi
      subst hi
      simp only [mfind, if_neg h', ih]
    · simp only [mfind, ih]

/-- What an index put into a table reads. -/
@[simp] theorem mget_mput_same (d : α) (m : SMap α) (k : Nat) (v : α) : mget d (mput m k v) k = v := by
  unfold mget
  rw [mfind_mput_same]; rfl

/-- An index put into a table leaves what every other reads. -/
theorem mget_mput_other (d : α) (m : SMap α) (k j : Nat) (v : α) (hj : j ≠ k) : mget d (mput m k v) j = mget d m j := by
  unfold mget
  rw [mfind_mput_other m k j v hj]

variable [DecidableEq α]

/-- What is found at an index that has been written. -/
theorem mfind_mset_same (d : α) (m : SMap α) (k : Nat) (v : α) :
    mfind (mset d m k v) k = if v = d then none else some v := by
  unfold mset
  split
  · exact mfind_mdel_same m k
  · exact mfind_mput_same m k v

/-- A write leaves what is found at every other index. -/
theorem mfind_mset_other (d : α) (m : SMap α) (k j : Nat) (v : α) (hj : j ≠ k) :
    mfind (mset d m k v) j = mfind m j := by
  unfold mset
  split
  · exact mfind_mdel_other m k j hj
  · exact mfind_mput_other m k j v hj

/-- What an index reads after it has been written. -/
@[simp] theorem mget_mset_same (d : α) (m : SMap α) (k : Nat) (v : α) : mget d (mset d m k v) k = v := by
  unfold mget mset
  split
  · rename_i hv
    rw [mfind_mdel_same m k, hv]; rfl
  · rw [mfind_mput_same]; rfl

/-- A write leaves what every other index reads. -/
theorem mget_mset_other (d : α) (m : SMap α) (k j : Nat) (v : α) (hj : j ≠ k) :
    mget d (mset d m k v) j = mget d m j := by
  unfold mget mset
  split
  · rw [mfind_mdel_other m k j hj]
  · rw [mfind_mput_other m k j v hj]

theorem mset_wf (d : α) (m : SMap α) (k : Nat) (v : α) (h : mwf m = true) : mwf (mset d m k v) = true := by
  unfold mset
  split
  · exact mdel_wf m k h
  · exact mput_wf m k v h

/-- A write keeps the canonical form. -/
theorem mset_wfD (d : α) (m : SMap α) (k : Nat) (v : α) (h : mwfD d m = true) : mwfD d (mset d m k v) = true := by
  simp only [mwfD, Bool.and_eq_true, List.all_eq_true, decide_eq_true_eq] at h ⊢
  refine ⟨mset_wf d m k v h.1, ?_⟩
  intro e he
  unfold mset at he
  split at he
  · exact h.2 e (mem_mdel m k e he)
  · rename_i hv
    rcases mem_mput m k v e he with rfl | he
    · exact hv
    · exact h.2 e he

/-- Leaving out entries keeps the canonical form. -/
theorem mfilter_wfD (d : α) (m : SMap α) (p : Nat × α → Bool) (h : mwfD d m = true) : mwfD d (m.filter p) = true := by
  simp only [mwfD, Bool.and_eq_true, List.all_eq_true, decide_eq_true_eq] at h ⊢
  exact ⟨mfilter_wf m p h.1, fun e he => h.2 e (List.mem_of_mem_filter he)⟩

end Sys2Proof.Machine
end

