-- ==== Sys2Proof/Laws/Registers.lean ====
section
/-! SUPPORT. Bit fields and registers: what a field reads after a write, and that a write to one register leaves the others. -/
namespace Sys2Proof.Machine

/-! ## Bit fields -/

/-- A number with a field replaced, in parts: above the field, the field, below it. -/
theorem putBits_parts (v hi lo x : Nat) :
    putBits v hi lo x
      = (v / 2 ^ lo / 2 ^ (hi + 1 - lo) * 2 ^ (hi + 1 - lo) + x % 2 ^ (hi + 1 - lo)) * 2 ^ lo + v % 2 ^ lo := by
  unfold putBits bits
  simp only [Nat.shiftRight_eq_div_pow, Nat.shiftLeft_eq]
  generalize 2 ^ (hi + 1 - lo) = w
  generalize 2 ^ lo = l
  have h1 : v = (v / l / w * w + v / l % w) * l + v % l := by
    rw [Nat.div_add_mod' (v / l) w, Nat.div_add_mod' v l]
  have e : v = v / l / w * w * l + v / l % w * l + v % l := by
    calc v = (v / l / w * w + v / l % w) * l + v % l := h1
      _ = _ := by rw [Nat.add_mul]
  have e2 : (v / l / w * w + x % w) * l = v / l / w * w * l + x % w * l := Nat.add_mul _ _ _
  omega

/-- A field reads what was put into it, cut to its width. -/
theorem bits_putBits_same (v hi lo x : Nat) : bits (putBits v hi lo x) hi lo = x % 2 ^ (hi + 1 - lo) := by
  have hp : 0 < 2 ^ (hi + 1 - lo) := Nat.two_pow_pos _
  have hl : 0 < 2 ^ lo := Nat.two_pow_pos _
  rw [putBits_parts]
  unfold bits
  rw [Nat.shiftRight_eq_div_pow, Nat.add_comm, Nat.add_mul_div_right _ _ hl, Nat.div_eq_of_lt (Nat.mod_lt _ hl),
    Nat.zero_add, Nat.add_comm, Nat.add_mul_mod_self_right, Nat.mod_mod]

/-- A bit outside the field is as it was. -/
theorem testBit_putBits_other (v hi lo x i : Nat) (h : lo ≤ hi) (hi' : i < lo ∨ hi < i) :
    (putBits v hi lo x).testBit i = v.testBit i := by
  have hp : 0 < 2 ^ (hi + 1 - lo) := Nat.two_pow_pos _
  have hl : 0 < 2 ^ lo := Nat.two_pow_pos _
  rw [putBits_parts]
  rcases hi' with hi' | hi'
  · have h1 : ∀ a b : Nat, b < 2 ^ lo → (a * 2 ^ lo + b).testBit i = b.testBit i := by
      intro a b hb
      have : (a * 2 ^ lo + b) % 2 ^ lo = b := by rw [Nat.add_comm, Nat.add_mul_mod_self_right, Nat.mod_eq_of_lt hb]
      have h2 := Nat.testBit_mod_two_pow (a * 2 ^ lo + b) lo i
      rw [this] at h2
      simpa [hi'] using h2.symm
    rw [h1 _ _ (Nat.mod_lt _ hl), Nat.testBit_mod_two_pow]
    simp [hi']
  · have h1 : ∀ u : Nat, u.testBit i = (u / 2 ^ lo / 2 ^ (hi + 1 - lo)).testBit (i - (hi + 1)) := by
      intro u
      rw [Nat.testBit_div_two_pow, Nat.testBit_div_two_pow]
      congr 1
      omega
    rw [h1, h1 v]
    congr 1
    rw [Nat.add_comm, Nat.add_mul_div_right _ _ hl, Nat.div_eq_of_lt (Nat.mod_lt _ hl), Nat.zero_add, Nat.add_comm,
      Nat.add_mul_div_right _ _ hp, Nat.div_eq_of_lt (Nat.mod_lt _ hp), Nat.zero_add]

/-- A field that does not overlap the one replaced reads as before. -/
theorem bits_putBits_other (v hi lo x hi2 lo2 : Nat) (h : lo ≤ hi) (h2 : lo2 ≤ hi2) (hd : hi2 < lo ∨ hi < lo2) :
    bits (putBits v hi lo x) hi2 lo2 = bits v hi2 lo2 := by
  unfold bits
  apply Nat.eq_of_testBit_eq
  intro i
  rw [Nat.testBit_mod_two_pow, Nat.testBit_mod_two_pow]
  by_cases hi' : i < hi2 + 1 - lo2
  · simp only [hi', decide_true, Bool.true_and, Nat.testBit_shiftRight]
    exact testBit_putBits_other v hi lo x _ h (by omega)
  · simp [hi']

/-- A value with a field replaced stays below the width it had. -/
theorem putBits_lt (v hi lo x n : Nat) (h : lo ≤ hi) (hn : hi < n) (hv : v < 2 ^ n) : putBits v hi lo x < 2 ^ n := by
  apply Nat.lt_pow_two_of_testBit
  intro i hi'
  rw [testBit_putBits_other v hi lo x i h (Or.inr (by omega))]
  exact Nat.testBit_lt_two_pow (Nat.lt_of_lt_of_le hv (Nat.pow_le_pow_right (by omega) hi'))

/-! ## Registers -/

theorem regIn_mem (ds : List RegD) (off : Nat) (d : RegD) (ix : List Nat) (h : regIn ds off = some (d, ix)) : d ∈ ds := by
  induction ds with
  | nil => simp [regIn] at h
  | cons a t ih =>
    simp only [regIn] at h
    split at h
    · exact List.mem_cons_of_mem _ (ih h)
    · split at h
      · simp only [Option.some.injEq, Prod.mk.injEq] at h
        exact h.1 ▸ List.mem_cons_self
      · exact List.mem_cons_of_mem _ (ih h)

/-- Every reset value in the register tables fits a register. -/
theorem regsOf_reset (b : Nat) : (regsOf b).all (fun d => decide (d.reset < 2 ^ 64)) = true := by
  unfold regsOf
  split <;> decide

theorem resetReact_lt (n : Nat) : resetReact n < 64 := by
  unfold resetReact
  repeat' split
  all_goals decide

theorem blockSize_lt (n : Nat) : Ctr.blockSize n < 2 ^ 64 := by
  unfold Ctr.blockSize
  split <;> decide

theorem resetProt_lt (i j : Nat) : resetProt i j < 2 ^ 64 := by
  unfold resetProt
  split <;> decide

theorem resetQuePool_lt (i : Nat) : resetQuePool i < 2 ^ 64 := by
  unfold resetQuePool
  split <;> decide

/-- A reset value fits a register. -/
theorem resetOf_lt (off : Nat) : resetOf off < 2 ^ 64 := by
  unfold resetOf
  split
  · decide
  · rename_i d ix h
    have hd : d.reset < 2 ^ 64 := by
      unfold regAt at h
      split at h
      · have := List.all_eq_true.mp (regsOf_reset (blockOf off)) d (regIn_mem _ _ _ _ h)
        simpa using this
      · simp at h
    have h3 := resetReact_lt (ix.headD 0)
    dsimp only
    split
    · exact resetQuePool_lt _
    · split
      · unfold resetSrcCfg
        split <;> omega
      · split
        · exact resetProt_lt _ _
        · split
          · exact blockSize_lt _
          · split
            · decide
            · split
              · decide
              · exact hd

namespace State

/-- A write to one register leaves what every other holds. -/
theorem rd_wr_other (s : State) (off off2 v : Nat) (h : off2 ≠ off) :
    (s.wr off v).rd off2 = s.rd off2 := by
  unfold rd wr
  dsimp only
  rw [mfind_mset_other _ _ _ _ _ h]

/-- A register holds what was written to it, cut to 64 bits. -/
theorem rd_wr_same (s : State) (off v : Nat) :
    (s.wr off v).rd off = v % 2 ^ 64 := by
  unfold rd wr
  dsimp only
  rw [mfind_mset_same _ _ _ _]
  by_cases hv : BitVec.ofNat 64 v = BitVec.ofNat 64 (resetOf off)
  · have h2 := congrArg BitVec.toNat hv
    simp only [BitVec.toNat_ofNat, Nat.mod_eq_of_lt (resetOf_lt off)] at h2
    simp only [hv, if_true]
    exact h2.symm
  · simp only [hv, if_false, BitVec.toNat_ofNat]

/-- A write keeps the table of registers canonical. -/
theorem wr_wf (s : State) (off v : Nat) (hw : mwf s.regs = true) : mwf (s.wr off v).regs = true :=
  mset_wf _ _ _ _ hw

/-- Setting a field keeps the table of registers canonical. -/
theorem setFld_wf (s : State) (off : Nat) (f : Fld) (v : Nat) (hw : mwf s.regs = true) : mwf (s.setFld off f v).regs = true :=
  wr_wf s off _ hw

/-- A field set in one register leaves what every other register holds. -/
theorem rd_setFld_other (s : State) (off off2 : Nat) (f : Fld) (v : Nat) (h : off2 ≠ off) :
    (s.setFld off f v).rd off2 = s.rd off2 := rd_wr_other s off off2 _ h

/-- A register's value after one of its fields was set. -/
theorem rd_setFld_same (s : State) (off : Nat) (f : Fld) (v : Nat) :
    (s.setFld off f v).rd off = putBits (s.rd off) f.hi f.lo v % 2 ^ 64 := rd_wr_same s off _

/-- Every register's value fits 64 bits. -/
theorem rd_lt (s : State) (off : Nat) : s.rd off < 2 ^ 64 := by
  unfold rd
  split
  · exact BitVec.isLt _
  · exact resetOf_lt off

/-- A field that was set reads what was put into it, cut to its width. -/
theorem fld_setFld_same (s : State) (off : Nat) (f : Fld) (v : Nat) (h : f.lo ≤ f.hi) (h64 : f.hi < 64) :
    (s.setFld off f v).fld off f = v % 2 ^ (f.hi + 1 - f.lo) := by
  unfold fld
  rw [rd_setFld_same s off f v, Nat.mod_eq_of_lt (putBits_lt _ _ _ _ 64 h h64 (rd_lt s off)), bits_putBits_same]

/-- A field of another register, or one that does not overlap, reads as before. -/
theorem fld_setFld_other (s : State) (off off2 : Nat) (f g : Fld) (v : Nat) (h : f.lo ≤ f.hi)
    (h64 : f.hi < 64) (hg : g.lo ≤ g.hi) (hd : off2 ≠ off ∨ g.hi < f.lo ∨ f.hi < g.lo) :
    (s.setFld off f v).fld off2 g = s.fld off2 g := by
  unfold fld
  by_cases ho : off2 = off
  · subst ho
    rw [rd_setFld_same s off2 f v, Nat.mod_eq_of_lt (putBits_lt _ _ _ _ 64 h h64 (rd_lt s off2))]
    exact bits_putBits_other _ _ _ _ _ _ h hg (by omega)
  · rw [rd_setFld_other s off off2 f v ho]

end State
end Sys2Proof.Machine
end

