-- ==== Sys2Proof/Laws/State.lean ====
section
/-! SUPPORT. What each named update of the state leaves as it was: one lemma per field and update. -/
namespace Sys2Proof.Machine.State

/-! ## wr -/

@[simp] theorem wr_pending (s : State) (off v : Nat) : (s.wr off v).pending = s.pending := rfl
@[simp] theorem wr_pins (s : State) (off v : Nat) : (s.wr off v).pins = s.pins := rfl
@[simp] theorem wr_unit (s : State) (off v : Nat) : (s.wr off v).unit = s.unit := rfl
@[simp] theorem wr_out (s : State) (off v : Nat) : (s.wr off v).out = s.out := rfl
@[simp] theorem wr_free (s : State) (off v : Nat) : (s.wr off v).free = s.free := rfl
@[simp] theorem wr_time (s : State) (off v : Nat) : (s.wr off v).time = s.time := rfl
@[simp] theorem wr_stg (s : State) (off v : Nat) : (s.wr off v).stg = s.stg := rfl
@[simp] theorem wr_tim (s : State) (off v : Nat) : (s.wr off v).tim = s.tim := rfl
@[simp] theorem wr_ports (s : State) (off v : Nat) : (s.wr off v).ports = s.ports := rfl
@[simp] theorem wr_nextPkt (s : State) (off v : Nat) : (s.wr off v).nextPkt = s.nextPkt := rfl
@[simp] theorem wr_nextRel (s : State) (off v : Nat) : (s.wr off v).nextRel = s.nextRel := rfl
@[simp] theorem wr_pkts (s : State) (off v : Nat) : (s.wr off v).pkts = s.pkts := rfl
@[simp] theorem wr_prs (s : State) (off v : Nat) : (s.wr off v).prs = s.prs := rfl
@[simp] theorem wr_tab (s : State) (off v : Nat) : (s.wr off v).tab = s.tab := rfl
@[simp] theorem wr_scp (s : State) (off v : Nat) : (s.wr off v).scp = s.scp := rfl
@[simp] theorem wr_que (s : State) (off v : Nat) : (s.wr off v).que = s.que := rfl
@[simp] theorem wr_mtr (s : State) (off v : Nat) : (s.wr off v).mtr = s.mtr := rfl
@[simp] theorem wr_egr (s : State) (off v : Nat) : (s.wr off v).egr = s.egr := rfl
@[simp] theorem wr_ver (s : State) (off v : Nat) : (s.wr off v).ver = s.ver := rfl
@[simp] theorem wr_tow (s : State) (off v : Nat) : (s.wr off v).tow = s.tow := rfl
@[simp] theorem wr_wit (s : State) (off v : Nat) : (s.wr off v).wit = s.wit := rfl
@[simp] theorem wr_sec (s : State) (off v : Nat) : (s.wr off v).sec = s.sec := rfl
@[simp] theorem wr_boot (s : State) (off v : Nat) : (s.wr off v).boot = s.boot := rfl
@[simp] theorem wr_hif (s : State) (off v : Nat) : (s.wr off v).hif = s.hif := rfl
@[simp] theorem wr_flt (s : State) (off v : Nat) : (s.wr off v).flt = s.flt := rfl
@[simp] theorem wr_cnd (s : State) (off v : Nat) : (s.wr off v).cnd = s.cnd := rfl
@[simp] theorem wr_kpr (s : State) (off v : Nat) : (s.wr off v).kpr = s.kpr := rfl
@[simp] theorem wr_pmc (s : State) (off v : Nat) : (s.wr off v).pmc = s.pmc := rfl
@[simp] theorem wr_hbm (s : State) (off v : Nat) : (s.wr off v).hbm = s.hbm := rfl

/-! ## setFld -/

@[simp] theorem setFld_pending (s : State) (off : Nat) (f : Fld) (v : Nat) : (s.setFld off f v).pending = s.pending := rfl
@[simp] theorem setFld_pins (s : State) (off : Nat) (f : Fld) (v : Nat) : (s.setFld off f v).pins = s.pins := rfl
@[simp] theorem setFld_unit (s : State) (off : Nat) (f : Fld) (v : Nat) : (s.setFld off f v).unit = s.unit := rfl
@[simp] theorem setFld_out (s : State) (off : Nat) (f : Fld) (v : Nat) : (s.setFld off f v).out = s.out := rfl
@[simp] theorem setFld_free (s : State) (off : Nat) (f : Fld) (v : Nat) : (s.setFld off f v).free = s.free := rfl
@[simp] theorem setFld_time (s : State) (off : Nat) (f : Fld) (v : Nat) : (s.setFld off f v).time = s.time := rfl
@[simp] theorem setFld_stg (s : State) (off : Nat) (f : Fld) (v : Nat) : (s.setFld off f v).stg = s.stg := rfl
@[simp] theorem setFld_tim (s : State) (off : Nat) (f : Fld) (v : Nat) : (s.setFld off f v).tim = s.tim := rfl
@[simp] theorem setFld_ports (s : State) (off : Nat) (f : Fld) (v : Nat) : (s.setFld off f v).ports = s.ports := rfl
@[simp] theorem setFld_nextPkt (s : State) (off : Nat) (f : Fld) (v : Nat) : (s.setFld off f v).nextPkt = s.nextPkt := rfl
@[simp] theorem setFld_nextRel (s : State) (off : Nat) (f : Fld) (v : Nat) : (s.setFld off f v).nextRel = s.nextRel := rfl
@[simp] theorem setFld_pkts (s : State) (off : Nat) (f : Fld) (v : Nat) : (s.setFld off f v).pkts = s.pkts := rfl
@[simp] theorem setFld_prs (s : State) (off : Nat) (f : Fld) (v : Nat) : (s.setFld off f v).prs = s.prs := rfl
@[simp] theorem setFld_tab (s : State) (off : Nat) (f : Fld) (v : Nat) : (s.setFld off f v).tab = s.tab := rfl
@[simp] theorem setFld_scp (s : State) (off : Nat) (f : Fld) (v : Nat) : (s.setFld off f v).scp = s.scp := rfl
@[simp] theorem setFld_que (s : State) (off : Nat) (f : Fld) (v : Nat) : (s.setFld off f v).que = s.que := rfl
@[simp] theorem setFld_mtr (s : State) (off : Nat) (f : Fld) (v : Nat) : (s.setFld off f v).mtr = s.mtr := rfl
@[simp] theorem setFld_egr (s : State) (off : Nat) (f : Fld) (v : Nat) : (s.setFld off f v).egr = s.egr := rfl
@[simp] theorem setFld_ver (s : State) (off : Nat) (f : Fld) (v : Nat) : (s.setFld off f v).ver = s.ver := rfl
@[simp] theorem setFld_tow (s : State) (off : Nat) (f : Fld) (v : Nat) : (s.setFld off f v).tow = s.tow := rfl
@[simp] theorem setFld_wit (s : State) (off : Nat) (f : Fld) (v : Nat) : (s.setFld off f v).wit = s.wit := rfl
@[simp] theorem setFld_sec (s : State) (off : Nat) (f : Fld) (v : Nat) : (s.setFld off f v).sec = s.sec := rfl
@[simp] theorem setFld_boot (s : State) (off : Nat) (f : Fld) (v : Nat) : (s.setFld off f v).boot = s.boot := rfl
@[simp] theorem setFld_hif (s : State) (off : Nat) (f : Fld) (v : Nat) : (s.setFld off f v).hif = s.hif := rfl
@[simp] theorem setFld_flt (s : State) (off : Nat) (f : Fld) (v : Nat) : (s.setFld off f v).flt = s.flt := rfl
@[simp] theorem setFld_cnd (s : State) (off : Nat) (f : Fld) (v : Nat) : (s.setFld off f v).cnd = s.cnd := rfl
@[simp] theorem setFld_kpr (s : State) (off : Nat) (f : Fld) (v : Nat) : (s.setFld off f v).kpr = s.kpr := rfl
@[simp] theorem setFld_pmc (s : State) (off : Nat) (f : Fld) (v : Nat) : (s.setFld off f v).pmc = s.pmc := rfl
@[simp] theorem setFld_hbm (s : State) (off : Nat) (f : Fld) (v : Nat) : (s.setFld off f v).hbm = s.hbm := rfl

/-! ## putBit -/

@[simp] theorem putBit_pending (s : State) (off i : Nat) (b : Bool) : (s.putBit off i b).pending = s.pending := rfl
@[simp] theorem putBit_pins (s : State) (off i : Nat) (b : Bool) : (s.putBit off i b).pins = s.pins := rfl
@[simp] theorem putBit_unit (s : State) (off i : Nat) (b : Bool) : (s.putBit off i b).unit = s.unit := rfl
@[simp] theorem putBit_out (s : State) (off i : Nat) (b : Bool) : (s.putBit off i b).out = s.out := rfl
@[simp] theorem putBit_free (s : State) (off i : Nat) (b : Bool) : (s.putBit off i b).free = s.free := rfl
@[simp] theorem putBit_time (s : State) (off i : Nat) (b : Bool) : (s.putBit off i b).time = s.time := rfl
@[simp] theorem putBit_stg (s : State) (off i : Nat) (b : Bool) : (s.putBit off i b).stg = s.stg := rfl
@[simp] theorem putBit_tim (s : State) (off i : Nat) (b : Bool) : (s.putBit off i b).tim = s.tim := rfl
@[simp] theorem putBit_ports (s : State) (off i : Nat) (b : Bool) : (s.putBit off i b).ports = s.ports := rfl
@[simp] theorem putBit_nextPkt (s : State) (off i : Nat) (b : Bool) : (s.putBit off i b).nextPkt = s.nextPkt := rfl
@[simp] theorem putBit_nextRel (s : State) (off i : Nat) (b : Bool) : (s.putBit off i b).nextRel = s.nextRel := rfl
@[simp] theorem putBit_pkts (s : State) (off i : Nat) (b : Bool) : (s.putBit off i b).pkts = s.pkts := rfl
@[simp] theorem putBit_prs (s : State) (off i : Nat) (b : Bool) : (s.putBit off i b).prs = s.prs := rfl
@[simp] theorem putBit_tab (s : State) (off i : Nat) (b : Bool) : (s.putBit off i b).tab = s.tab := rfl
@[simp] theorem putBit_scp (s : State) (off i : Nat) (b : Bool) : (s.putBit off i b).scp = s.scp := rfl
@[simp] theorem putBit_que (s : State) (off i : Nat) (b : Bool) : (s.putBit off i b).que = s.que := rfl
@[simp] theorem putBit_mtr (s : State) (off i : Nat) (b : Bool) : (s.putBit off i b).mtr = s.mtr := rfl
@[simp] theorem putBit_egr (s : State) (off i : Nat) (b : Bool) : (s.putBit off i b).egr = s.egr := rfl
@[simp] theorem putBit_ver (s : State) (off i : Nat) (b : Bool) : (s.putBit off i b).ver = s.ver := rfl
@[simp] theorem putBit_tow (s : State) (off i : Nat) (b : Bool) : (s.putBit off i b).tow = s.tow := rfl
@[simp] theorem putBit_wit (s : State) (off i : Nat) (b : Bool) : (s.putBit off i b).wit = s.wit := rfl
@[simp] theorem putBit_sec (s : State) (off i : Nat) (b : Bool) : (s.putBit off i b).sec = s.sec := rfl
@[simp] theorem putBit_boot (s : State) (off i : Nat) (b : Bool) : (s.putBit off i b).boot = s.boot := rfl
@[simp] theorem putBit_hif (s : State) (off i : Nat) (b : Bool) : (s.putBit off i b).hif = s.hif := rfl
@[simp] theorem putBit_flt (s : State) (off i : Nat) (b : Bool) : (s.putBit off i b).flt = s.flt := rfl
@[simp] theorem putBit_cnd (s : State) (off i : Nat) (b : Bool) : (s.putBit off i b).cnd = s.cnd := rfl
@[simp] theorem putBit_kpr (s : State) (off i : Nat) (b : Bool) : (s.putBit off i b).kpr = s.kpr := rfl
@[simp] theorem putBit_pmc (s : State) (off i : Nat) (b : Bool) : (s.putBit off i b).pmc = s.pmc := rfl
@[simp] theorem putBit_hbm (s : State) (off i : Nat) (b : Bool) : (s.putBit off i b).hbm = s.hbm := rfl

/-! ## emit -/

@[simp] theorem emit_pending (s : State) (o : Output) : (s.emit o).pending = s.pending := rfl
@[simp] theorem emit_pins (s : State) (o : Output) : (s.emit o).pins = s.pins := rfl
@[simp] theorem emit_unit (s : State) (o : Output) : (s.emit o).unit = s.unit := rfl
@[simp] theorem emit_free (s : State) (o : Output) : (s.emit o).free = s.free := rfl
@[simp] theorem emit_time (s : State) (o : Output) : (s.emit o).time = s.time := rfl
@[simp] theorem emit_regs (s : State) (o : Output) : (s.emit o).regs = s.regs := rfl
@[simp] theorem emit_stg (s : State) (o : Output) : (s.emit o).stg = s.stg := rfl
@[simp] theorem emit_tim (s : State) (o : Output) : (s.emit o).tim = s.tim := rfl
@[simp] theorem emit_ports (s : State) (o : Output) : (s.emit o).ports = s.ports := rfl
@[simp] theorem emit_nextPkt (s : State) (o : Output) : (s.emit o).nextPkt = s.nextPkt := rfl
@[simp] theorem emit_nextRel (s : State) (o : Output) : (s.emit o).nextRel = s.nextRel := rfl
@[simp] theorem emit_pkts (s : State) (o : Output) : (s.emit o).pkts = s.pkts := rfl
@[simp] theorem emit_prs (s : State) (o : Output) : (s.emit o).prs = s.prs := rfl
@[simp] theorem emit_tab (s : State) (o : Output) : (s.emit o).tab = s.tab := rfl
@[simp] theorem emit_scp (s : State) (o : Output) : (s.emit o).scp = s.scp := rfl
@[simp] theorem emit_que (s : State) (o : Output) : (s.emit o).que = s.que := rfl
@[simp] theorem emit_mtr (s : State) (o : Output) : (s.emit o).mtr = s.mtr := rfl
@[simp] theorem emit_egr (s : State) (o : Output) : (s.emit o).egr = s.egr := rfl
@[simp] theorem emit_ver (s : State) (o : Output) : (s.emit o).ver = s.ver := rfl
@[simp] theorem emit_tow (s : State) (o : Output) : (s.emit o).tow = s.tow := rfl
@[simp] theorem emit_wit (s : State) (o : Output) : (s.emit o).wit = s.wit := rfl
@[simp] theorem emit_sec (s : State) (o : Output) : (s.emit o).sec = s.sec := rfl
@[simp] theorem emit_boot (s : State) (o : Output) : (s.emit o).boot = s.boot := rfl
@[simp] theorem emit_hif (s : State) (o : Output) : (s.emit o).hif = s.hif := rfl
@[simp] theorem emit_flt (s : State) (o : Output) : (s.emit o).flt = s.flt := rfl
@[simp] theorem emit_cnd (s : State) (o : Output) : (s.emit o).cnd = s.cnd := rfl
@[simp] theorem emit_kpr (s : State) (o : Output) : (s.emit o).kpr = s.kpr := rfl
@[simp] theorem emit_pmc (s : State) (o : Output) : (s.emit o).pmc = s.pmc := rfl
@[simp] theorem emit_hbm (s : State) (o : Output) : (s.emit o).hbm = s.hbm := rfl

/-! ## takeFree -/

@[simp] theorem takeFree_pending (s : State) (w : Nat) : ((s.takeFree w).2).pending = s.pending := rfl
@[simp] theorem takeFree_pins (s : State) (w : Nat) : ((s.takeFree w).2).pins = s.pins := rfl
@[simp] theorem takeFree_unit (s : State) (w : Nat) : ((s.takeFree w).2).unit = s.unit := rfl
@[simp] theorem takeFree_out (s : State) (w : Nat) : ((s.takeFree w).2).out = s.out := rfl
@[simp] theorem takeFree_time (s : State) (w : Nat) : ((s.takeFree w).2).time = s.time := rfl
@[simp] theorem takeFree_regs (s : State) (w : Nat) : ((s.takeFree w).2).regs = s.regs := rfl
@[simp] theorem takeFree_stg (s : State) (w : Nat) : ((s.takeFree w).2).stg = s.stg := rfl
@[simp] theorem takeFree_tim (s : State) (w : Nat) : ((s.takeFree w).2).tim = s.tim := rfl
@[simp] theorem takeFree_ports (s : State) (w : Nat) : ((s.takeFree w).2).ports = s.ports := rfl
@[simp] theorem takeFree_nextPkt (s : State) (w : Nat) : ((s.takeFree w).2).nextPkt = s.nextPkt := rfl
@[simp] theorem takeFree_nextRel (s : State) (w : Nat) : ((s.takeFree w).2).nextRel = s.nextRel := rfl
@[simp] theorem takeFree_pkts (s : State) (w : Nat) : ((s.takeFree w).2).pkts = s.pkts := rfl
@[simp] theorem takeFree_prs (s : State) (w : Nat) : ((s.takeFree w).2).prs = s.prs := rfl
@[simp] theorem takeFree_tab (s : State) (w : Nat) : ((s.takeFree w).2).tab = s.tab := rfl
@[simp] theorem takeFree_scp (s : State) (w : Nat) : ((s.takeFree w).2).scp = s.scp := rfl
@[simp] theorem takeFree_que (s : State) (w : Nat) : ((s.takeFree w).2).que = s.que := rfl
@[simp] theorem takeFree_mtr (s : State) (w : Nat) : ((s.takeFree w).2).mtr = s.mtr := rfl
@[simp] theorem takeFree_egr (s : State) (w : Nat) : ((s.takeFree w).2).egr = s.egr := rfl
@[simp] theorem takeFree_ver (s : State) (w : Nat) : ((s.takeFree w).2).ver = s.ver := rfl
@[simp] theorem takeFree_tow (s : State) (w : Nat) : ((s.takeFree w).2).tow = s.tow := rfl
@[simp] theorem takeFree_wit (s : State) (w : Nat) : ((s.takeFree w).2).wit = s.wit := rfl
@[simp] theorem takeFree_sec (s : State) (w : Nat) : ((s.takeFree w).2).sec = s.sec := rfl
@[simp] theorem takeFree_boot (s : State) (w : Nat) : ((s.takeFree w).2).boot = s.boot := rfl
@[simp] theorem takeFree_hif (s : State) (w : Nat) : ((s.takeFree w).2).hif = s.hif := rfl
@[simp] theorem takeFree_flt (s : State) (w : Nat) : ((s.takeFree w).2).flt = s.flt := rfl
@[simp] theorem takeFree_cnd (s : State) (w : Nat) : ((s.takeFree w).2).cnd = s.cnd := rfl
@[simp] theorem takeFree_kpr (s : State) (w : Nat) : ((s.takeFree w).2).kpr = s.kpr := rfl
@[simp] theorem takeFree_pmc (s : State) (w : Nat) : ((s.takeFree w).2).pmc = s.pmc := rfl
@[simp] theorem takeFree_hbm (s : State) (w : Nat) : ((s.takeFree w).2).hbm = s.hbm := rfl

/-! ## count -/

@[simp] theorem count_pending (s : State) (n k : Nat) : (s.count n k).pending = s.pending := rfl
@[simp] theorem count_pins (s : State) (n k : Nat) : (s.count n k).pins = s.pins := rfl
@[simp] theorem count_unit (s : State) (n k : Nat) : (s.count n k).unit = s.unit := rfl
@[simp] theorem count_out (s : State) (n k : Nat) : (s.count n k).out = s.out := rfl
@[simp] theorem count_free (s : State) (n k : Nat) : (s.count n k).free = s.free := rfl
@[simp] theorem count_time (s : State) (n k : Nat) : (s.count n k).time = s.time := rfl
@[simp] theorem count_regs (s : State) (n k : Nat) : (s.count n k).regs = s.regs := rfl
@[simp] theorem count_stg (s : State) (n k : Nat) : (s.count n k).stg = s.stg := rfl
@[simp] theorem count_tim (s : State) (n k : Nat) : (s.count n k).tim = s.tim := rfl
@[simp] theorem count_ports (s : State) (n k : Nat) : (s.count n k).ports = s.ports := rfl
@[simp] theorem count_nextPkt (s : State) (n k : Nat) : (s.count n k).nextPkt = s.nextPkt := rfl
@[simp] theorem count_nextRel (s : State) (n k : Nat) : (s.count n k).nextRel = s.nextRel := rfl
@[simp] theorem count_pkts (s : State) (n k : Nat) : (s.count n k).pkts = s.pkts := rfl
@[simp] theorem count_prs (s : State) (n k : Nat) : (s.count n k).prs = s.prs := rfl
@[simp] theorem count_tab (s : State) (n k : Nat) : (s.count n k).tab = s.tab := rfl
@[simp] theorem count_scp (s : State) (n k : Nat) : (s.count n k).scp = s.scp := rfl
@[simp] theorem count_que (s : State) (n k : Nat) : (s.count n k).que = s.que := rfl
@[simp] theorem count_mtr (s : State) (n k : Nat) : (s.count n k).mtr = s.mtr := rfl
@[simp] theorem count_egr (s : State) (n k : Nat) : (s.count n k).egr = s.egr := rfl
@[simp] theorem count_ver (s : State) (n k : Nat) : (s.count n k).ver = s.ver := rfl
@[simp] theorem count_tow (s : State) (n k : Nat) : (s.count n k).tow = s.tow := rfl
@[simp] theorem count_wit (s : State) (n k : Nat) : (s.count n k).wit = s.wit := rfl
@[simp] theorem count_sec (s : State) (n k : Nat) : (s.count n k).sec = s.sec := rfl
@[simp] theorem count_boot (s : State) (n k : Nat) : (s.count n k).boot = s.boot := rfl
@[simp] theorem count_hif (s : State) (n k : Nat) : (s.count n k).hif = s.hif := rfl
@[simp] theorem count_flt (s : State) (n k : Nat) : (s.count n k).flt = s.flt := rfl
@[simp] theorem count_cnd (s : State) (n k : Nat) : (s.count n k).cnd = s.cnd := rfl
@[simp] theorem count_kpr (s : State) (n k : Nat) : (s.count n k).kpr = s.kpr := rfl
@[simp] theorem count_hbm (s : State) (n k : Nat) : (s.count n k).hbm = s.hbm := rfl

/-! ## setRecorder -/

@[simp] theorem setRecorder_pending (s : State) (st : Nat) (r : Recorder) : (s.setRecorder st r).pending = s.pending := rfl
@[simp] theorem setRecorder_pins (s : State) (st : Nat) (r : Recorder) : (s.setRecorder st r).pins = s.pins := rfl
@[simp] theorem setRecorder_unit (s : State) (st : Nat) (r : Recorder) : (s.setRecorder st r).unit = s.unit := rfl
@[simp] theorem setRecorder_out (s : State) (st : Nat) (r : Recorder) : (s.setRecorder st r).out = s.out := rfl
@[simp] theorem setRecorder_free (s : State) (st : Nat) (r : Recorder) : (s.setRecorder st r).free = s.free := rfl
@[simp] theorem setRecorder_time (s : State) (st : Nat) (r : Recorder) : (s.setRecorder st r).time = s.time := rfl
@[simp] theorem setRecorder_regs (s : State) (st : Nat) (r : Recorder) : (s.setRecorder st r).regs = s.regs := rfl
@[simp] theorem setRecorder_stg (s : State) (st : Nat) (r : Recorder) : (s.setRecorder st r).stg = s.stg := rfl
@[simp] theorem setRecorder_tim (s : State) (st : Nat) (r : Recorder) : (s.setRecorder st r).tim = s.tim := rfl
@[simp] theorem setRecorder_ports (s : State) (st : Nat) (r : Recorder) : (s.setRecorder st r).ports = s.ports := rfl
@[simp] theorem setRecorder_nextPkt (s : State) (st : Nat) (r : Recorder) : (s.setRecorder st r).nextPkt = s.nextPkt := rfl
@[simp] theorem setRecorder_nextRel (s : State) (st : Nat) (r : Recorder) : (s.setRecorder st r).nextRel = s.nextRel := rfl
@[simp] theorem setRecorder_pkts (s : State) (st : Nat) (r : Recorder) : (s.setRecorder st r).pkts = s.pkts := rfl
@[simp] theorem setRecorder_prs (s : State) (st : Nat) (r : Recorder) : (s.setRecorder st r).prs = s.prs := rfl
@[simp] theorem setRecorder_tab (s : State) (st : Nat) (r : Recorder) : (s.setRecorder st r).tab = s.tab := rfl
@[simp] theorem setRecorder_scp (s : State) (st : Nat) (r : Recorder) : (s.setRecorder st r).scp = s.scp := rfl
@[simp] theorem setRecorder_que (s : State) (st : Nat) (r : Recorder) : (s.setRecorder st r).que = s.que := rfl
@[simp] theorem setRecorder_mtr (s : State) (st : Nat) (r : Recorder) : (s.setRecorder st r).mtr = s.mtr := rfl
@[simp] theorem setRecorder_egr (s : State) (st : Nat) (r : Recorder) : (s.setRecorder st r).egr = s.egr := rfl
@[simp] theorem setRecorder_ver (s : State) (st : Nat) (r : Recorder) : (s.setRecorder st r).ver = s.ver := rfl
@[simp] theorem setRecorder_tow (s : State) (st : Nat) (r : Recorder) : (s.setRecorder st r).tow = s.tow := rfl
@[simp] theorem setRecorder_sec (s : State) (st : Nat) (r : Recorder) : (s.setRecorder st r).sec = s.sec := rfl
@[simp] theorem setRecorder_boot (s : State) (st : Nat) (r : Recorder) : (s.setRecorder st r).boot = s.boot := rfl
@[simp] theorem setRecorder_hif (s : State) (st : Nat) (r : Recorder) : (s.setRecorder st r).hif = s.hif := rfl
@[simp] theorem setRecorder_flt (s : State) (st : Nat) (r : Recorder) : (s.setRecorder st r).flt = s.flt := rfl
@[simp] theorem setRecorder_cnd (s : State) (st : Nat) (r : Recorder) : (s.setRecorder st r).cnd = s.cnd := rfl
@[simp] theorem setRecorder_kpr (s : State) (st : Nat) (r : Recorder) : (s.setRecorder st r).kpr = s.kpr := rfl
@[simp] theorem setRecorder_pmc (s : State) (st : Nat) (r : Recorder) : (s.setRecorder st r).pmc = s.pmc := rfl
@[simp] theorem setRecorder_hbm (s : State) (st : Nat) (r : Recorder) : (s.setRecorder st r).hbm = s.hbm := rfl

/-! ## onFn -/

@[simp] theorem onFn_pending (s : State) (fn : Nat) (f : FnState → FnState) : (s.onFn fn f).pending = s.pending := rfl
@[simp] theorem onFn_pins (s : State) (fn : Nat) (f : FnState → FnState) : (s.onFn fn f).pins = s.pins := rfl
@[simp] theorem onFn_unit (s : State) (fn : Nat) (f : FnState → FnState) : (s.onFn fn f).unit = s.unit := rfl
@[simp] theorem onFn_out (s : State) (fn : Nat) (f : FnState → FnState) : (s.onFn fn f).out = s.out := rfl
@[simp] theorem onFn_free (s : State) (fn : Nat) (f : FnState → FnState) : (s.onFn fn f).free = s.free := rfl
@[simp] theorem onFn_time (s : State) (fn : Nat) (f : FnState → FnState) : (s.onFn fn f).time = s.time := rfl
@[simp] theorem onFn_regs (s : State) (fn : Nat) (f : FnState → FnState) : (s.onFn fn f).regs = s.regs := rfl
@[simp] theorem onFn_stg (s : State) (fn : Nat) (f : FnState → FnState) : (s.onFn fn f).stg = s.stg := rfl
@[simp] theorem onFn_tim (s : State) (fn : Nat) (f : FnState → FnState) : (s.onFn fn f).tim = s.tim := rfl
@[simp] theorem onFn_ports (s : State) (fn : Nat) (f : FnState → FnState) : (s.onFn fn f).ports = s.ports := rfl
@[simp] theorem onFn_nextPkt (s : State) (fn : Nat) (f : FnState → FnState) : (s.onFn fn f).nextPkt = s.nextPkt := rfl
@[simp] theorem onFn_nextRel (s : State) (fn : Nat) (f : FnState → FnState) : (s.onFn fn f).nextRel = s.nextRel := rfl
@[simp] theorem onFn_pkts (s : State) (fn : Nat) (f : FnState → FnState) : (s.onFn fn f).pkts = s.pkts := rfl
@[simp] theorem onFn_prs (s : State) (fn : Nat) (f : FnState → FnState) : (s.onFn fn f).prs = s.prs := rfl
@[simp] theorem onFn_tab (s : State) (fn : Nat) (f : FnState → FnState) : (s.onFn fn f).tab = s.tab := rfl
@[simp] theorem onFn_scp (s : State) (fn : Nat) (f : FnState → FnState) : (s.onFn fn f).scp = s.scp := rfl
@[simp] theorem onFn_que (s : State) (fn : Nat) (f : FnState → FnState) : (s.onFn fn f).que = s.que := rfl
@[simp] theorem onFn_mtr (s : State) (fn : Nat) (f : FnState → FnState) : (s.onFn fn f).mtr = s.mtr := rfl
@[simp] theorem onFn_egr (s : State) (fn : Nat) (f : FnState → FnState) : (s.onFn fn f).egr = s.egr := rfl
@[simp] theorem onFn_ver (s : State) (fn : Nat) (f : FnState → FnState) : (s.onFn fn f).ver = s.ver := rfl
@[simp] theorem onFn_tow (s : State) (fn : Nat) (f : FnState → FnState) : (s.onFn fn f).tow = s.tow := rfl
@[simp] theorem onFn_wit (s : State) (fn : Nat) (f : FnState → FnState) : (s.onFn fn f).wit = s.wit := rfl
@[simp] theorem onFn_sec (s : State) (fn : Nat) (f : FnState → FnState) : (s.onFn fn f).sec = s.sec := rfl
@[simp] theorem onFn_boot (s : State) (fn : Nat) (f : FnState → FnState) : (s.onFn fn f).boot = s.boot := rfl
@[simp] theorem onFn_flt (s : State) (fn : Nat) (f : FnState → FnState) : (s.onFn fn f).flt = s.flt := rfl
@[simp] theorem onFn_cnd (s : State) (fn : Nat) (f : FnState → FnState) : (s.onFn fn f).cnd = s.cnd := rfl
@[simp] theorem onFn_kpr (s : State) (fn : Nat) (f : FnState → FnState) : (s.onFn fn f).kpr = s.kpr := rfl
@[simp] theorem onFn_pmc (s : State) (fn : Nat) (f : FnState → FnState) : (s.onFn fn f).pmc = s.pmc := rfl
@[simp] theorem onFn_hbm (s : State) (fn : Nat) (f : FnState → FnState) : (s.onFn fn f).hbm = s.hbm := rfl

/-! ## onFerry -/

@[simp] theorem onFerry_pending (s : State) (f : FerrySt → FerrySt) : (s.onFerry f).pending = s.pending := rfl
@[simp] theorem onFerry_pins (s : State) (f : FerrySt → FerrySt) : (s.onFerry f).pins = s.pins := rfl
@[simp] theorem onFerry_unit (s : State) (f : FerrySt → FerrySt) : (s.onFerry f).unit = s.unit := rfl
@[simp] theorem onFerry_out (s : State) (f : FerrySt → FerrySt) : (s.onFerry f).out = s.out := rfl
@[simp] theorem onFerry_free (s : State) (f : FerrySt → FerrySt) : (s.onFerry f).free = s.free := rfl
@[simp] theorem onFerry_time (s : State) (f : FerrySt → FerrySt) : (s.onFerry f).time = s.time := rfl
@[simp] theorem onFerry_regs (s : State) (f : FerrySt → FerrySt) : (s.onFerry f).regs = s.regs := rfl
@[simp] theorem onFerry_stg (s : State) (f : FerrySt → FerrySt) : (s.onFerry f).stg = s.stg := rfl
@[simp] theorem onFerry_tim (s : State) (f : FerrySt → FerrySt) : (s.onFerry f).tim = s.tim := rfl
@[simp] theorem onFerry_ports (s : State) (f : FerrySt → FerrySt) : (s.onFerry f).ports = s.ports := rfl
@[simp] theorem onFerry_nextPkt (s : State) (f : FerrySt → FerrySt) : (s.onFerry f).nextPkt = s.nextPkt := rfl
@[simp] theorem onFerry_nextRel (s : State) (f : FerrySt → FerrySt) : (s.onFerry f).nextRel = s.nextRel := rfl
@[simp] theorem onFerry_pkts (s : State) (f : FerrySt → FerrySt) : (s.onFerry f).pkts = s.pkts := rfl
@[simp] theorem onFerry_prs (s : State) (f : FerrySt → FerrySt) : (s.onFerry f).prs = s.prs := rfl
@[simp] theorem onFerry_tab (s : State) (f : FerrySt → FerrySt) : (s.onFerry f).tab = s.tab := rfl
@[simp] theorem onFerry_scp (s : State) (f : FerrySt → FerrySt) : (s.onFerry f).scp = s.scp := rfl
@[simp] theorem onFerry_que (s : State) (f : FerrySt → FerrySt) : (s.onFerry f).que = s.que := rfl
@[simp] theorem onFerry_mtr (s : State) (f : FerrySt → FerrySt) : (s.onFerry f).mtr = s.mtr := rfl
@[simp] theorem onFerry_egr (s : State) (f : FerrySt → FerrySt) : (s.onFerry f).egr = s.egr := rfl
@[simp] theorem onFerry_ver (s : State) (f : FerrySt → FerrySt) : (s.onFerry f).ver = s.ver := rfl
@[simp] theorem onFerry_tow (s : State) (f : FerrySt → FerrySt) : (s.onFerry f).tow = s.tow := rfl
@[simp] theorem onFerry_wit (s : State) (f : FerrySt → FerrySt) : (s.onFerry f).wit = s.wit := rfl
@[simp] theorem onFerry_sec (s : State) (f : FerrySt → FerrySt) : (s.onFerry f).sec = s.sec := rfl
@[simp] theorem onFerry_boot (s : State) (f : FerrySt → FerrySt) : (s.onFerry f).boot = s.boot := rfl
@[simp] theorem onFerry_hif (s : State) (f : FerrySt → FerrySt) : (s.onFerry f).hif = s.hif := rfl
@[simp] theorem onFerry_cnd (s : State) (f : FerrySt → FerrySt) : (s.onFerry f).cnd = s.cnd := rfl
@[simp] theorem onFerry_kpr (s : State) (f : FerrySt → FerrySt) : (s.onFerry f).kpr = s.kpr := rfl
@[simp] theorem onFerry_pmc (s : State) (f : FerrySt → FerrySt) : (s.onFerry f).pmc = s.pmc := rfl
@[simp] theorem onFerry_hbm (s : State) (f : FerrySt → FerrySt) : (s.onFerry f).hbm = s.hbm := rfl

/-! ## onEgress -/

@[simp] theorem onEgress_pending (s : State) (p : Nat) (f : EgressPort → EgressPort) : (s.onEgress p f).pending = s.pending := rfl
@[simp] theorem onEgress_pins (s : State) (p : Nat) (f : EgressPort → EgressPort) : (s.onEgress p f).pins = s.pins := rfl
@[simp] theorem onEgress_unit (s : State) (p : Nat) (f : EgressPort → EgressPort) : (s.onEgress p f).unit = s.unit := rfl
@[simp] theorem onEgress_out (s : State) (p : Nat) (f : EgressPort → EgressPort) : (s.onEgress p f).out = s.out := rfl
@[simp] theorem onEgress_free (s : State) (p : Nat) (f : EgressPort → EgressPort) : (s.onEgress p f).free = s.free := rfl
@[simp] theorem onEgress_time (s : State) (p : Nat) (f : EgressPort → EgressPort) : (s.onEgress p f).time = s.time := rfl
@[simp] theorem onEgress_regs (s : State) (p : Nat) (f : EgressPort → EgressPort) : (s.onEgress p f).regs = s.regs := rfl
@[simp] theorem onEgress_stg (s : State) (p : Nat) (f : EgressPort → EgressPort) : (s.onEgress p f).stg = s.stg := rfl
@[simp] theorem onEgress_tim (s : State) (p : Nat) (f : EgressPort → EgressPort) : (s.onEgress p f).tim = s.tim := rfl
@[simp] theorem onEgress_ports (s : State) (p : Nat) (f : EgressPort → EgressPort) : (s.onEgress p f).ports = s.ports := rfl
@[simp] theorem onEgress_nextPkt (s : State) (p : Nat) (f : EgressPort → EgressPort) : (s.onEgress p f).nextPkt = s.nextPkt := rfl
@[simp] theorem onEgress_nextRel (s : State) (p : Nat) (f : EgressPort → EgressPort) : (s.onEgress p f).nextRel = s.nextRel := rfl
@[simp] theorem onEgress_pkts (s : State) (p : Nat) (f : EgressPort → EgressPort) : (s.onEgress p f).pkts = s.pkts := rfl
@[simp] theorem onEgress_prs (s : State) (p : Nat) (f : EgressPort → EgressPort) : (s.onEgress p f).prs = s.prs := rfl
@[simp] theorem onEgress_tab (s : State) (p : Nat) (f : EgressPort → EgressPort) : (s.onEgress p f).tab = s.tab := rfl
@[simp] theorem onEgress_scp (s : State) (p : Nat) (f : EgressPort → EgressPort) : (s.onEgress p f).scp = s.scp := rfl
@[simp] theorem onEgress_que (s : State) (p : Nat) (f : EgressPort → EgressPort) : (s.onEgress p f).que = s.que := rfl
@[simp] theorem onEgress_mtr (s : State) (p : Nat) (f : EgressPort → EgressPort) : (s.onEgress p f).mtr = s.mtr := rfl
@[simp] theorem onEgress_ver (s : State) (p : Nat) (f : EgressPort → EgressPort) : (s.onEgress p f).ver = s.ver := rfl
@[simp] theorem onEgress_tow (s : State) (p : Nat) (f : EgressPort → EgressPort) : (s.onEgress p f).tow = s.tow := rfl
@[simp] theorem onEgress_wit (s : State) (p : Nat) (f : EgressPort → EgressPort) : (s.onEgress p f).wit = s.wit := rfl
@[simp] theorem onEgress_sec (s : State) (p : Nat) (f : EgressPort → EgressPort) : (s.onEgress p f).sec = s.sec := rfl
@[simp] theorem onEgress_boot (s : State) (p : Nat) (f : EgressPort → EgressPort) : (s.onEgress p f).boot = s.boot := rfl
@[simp] theorem onEgress_hif (s : State) (p : Nat) (f : EgressPort → EgressPort) : (s.onEgress p f).hif = s.hif := rfl
@[simp] theorem onEgress_flt (s : State) (p : Nat) (f : EgressPort → EgressPort) : (s.onEgress p f).flt = s.flt := rfl
@[simp] theorem onEgress_cnd (s : State) (p : Nat) (f : EgressPort → EgressPort) : (s.onEgress p f).cnd = s.cnd := rfl
@[simp] theorem onEgress_kpr (s : State) (p : Nat) (f : EgressPort → EgressPort) : (s.onEgress p f).kpr = s.kpr := rfl
@[simp] theorem onEgress_pmc (s : State) (p : Nat) (f : EgressPort → EgressPort) : (s.onEgress p f).pmc = s.pmc := rfl
@[simp] theorem onEgress_hbm (s : State) (p : Nat) (f : EgressPort → EgressPort) : (s.onEgress p f).hbm = s.hbm := rfl

/-! ## setPkt -/

@[simp] theorem setPkt_pending (s : State) (id : Nat) (p : Packet) : (s.setPkt id p).pending = s.pending := rfl
@[simp] theorem setPkt_pins (s : State) (id : Nat) (p : Packet) : (s.setPkt id p).pins = s.pins := rfl
@[simp] theorem setPkt_unit (s : State) (id : Nat) (p : Packet) : (s.setPkt id p).unit = s.unit := rfl
@[simp] theorem setPkt_out (s : State) (id : Nat) (p : Packet) : (s.setPkt id p).out = s.out := rfl
@[simp] theorem setPkt_free (s : State) (id : Nat) (p : Packet) : (s.setPkt id p).free = s.free := rfl
@[simp] theorem setPkt_time (s : State) (id : Nat) (p : Packet) : (s.setPkt id p).time = s.time := rfl
@[simp] theorem setPkt_regs (s : State) (id : Nat) (p : Packet) : (s.setPkt id p).regs = s.regs := rfl
@[simp] theorem setPkt_stg (s : State) (id : Nat) (p : Packet) : (s.setPkt id p).stg = s.stg := rfl
@[simp] theorem setPkt_tim (s : State) (id : Nat) (p : Packet) : (s.setPkt id p).tim = s.tim := rfl
@[simp] theorem setPkt_ports (s : State) (id : Nat) (p : Packet) : (s.setPkt id p).ports = s.ports := rfl
@[simp] theorem setPkt_nextPkt (s : State) (id : Nat) (p : Packet) : (s.setPkt id p).nextPkt = s.nextPkt := rfl
@[simp] theorem setPkt_nextRel (s : State) (id : Nat) (p : Packet) : (s.setPkt id p).nextRel = s.nextRel := rfl
@[simp] theorem setPkt_prs (s : State) (id : Nat) (p : Packet) : (s.setPkt id p).prs = s.prs := rfl
@[simp] theorem setPkt_tab (s : State) (id : Nat) (p : Packet) : (s.setPkt id p).tab = s.tab := rfl
@[simp] theorem setPkt_scp (s : State) (id : Nat) (p : Packet) : (s.setPkt id p).scp = s.scp := rfl
@[simp] theorem setPkt_que (s : State) (id : Nat) (p : Packet) : (s.setPkt id p).que = s.que := rfl
@[simp] theorem setPkt_mtr (s : State) (id : Nat) (p : Packet) : (s.setPkt id p).mtr = s.mtr := rfl
@[simp] theorem setPkt_egr (s : State) (id : Nat) (p : Packet) : (s.setPkt id p).egr = s.egr := rfl
@[simp] theorem setPkt_ver (s : State) (id : Nat) (p : Packet) : (s.setPkt id p).ver = s.ver := rfl
@[simp] theorem setPkt_tow (s : State) (id : Nat) (p : Packet) : (s.setPkt id p).tow = s.tow := rfl
@[simp] theorem setPkt_wit (s : State) (id : Nat) (p : Packet) : (s.setPkt id p).wit = s.wit := rfl
@[simp] theorem setPkt_sec (s : State) (id : Nat) (p : Packet) : (s.setPkt id p).sec = s.sec := rfl
@[simp] theorem setPkt_boot (s : State) (id : Nat) (p : Packet) : (s.setPkt id p).boot = s.boot := rfl
@[simp] theorem setPkt_hif (s : State) (id : Nat) (p : Packet) : (s.setPkt id p).hif = s.hif := rfl
@[simp] theorem setPkt_flt (s : State) (id : Nat) (p : Packet) : (s.setPkt id p).flt = s.flt := rfl
@[simp] theorem setPkt_cnd (s : State) (id : Nat) (p : Packet) : (s.setPkt id p).cnd = s.cnd := rfl
@[simp] theorem setPkt_kpr (s : State) (id : Nat) (p : Packet) : (s.setPkt id p).kpr = s.kpr := rfl
@[simp] theorem setPkt_pmc (s : State) (id : Nat) (p : Packet) : (s.setPkt id p).pmc = s.pmc := rfl
@[simp] theorem setPkt_hbm (s : State) (id : Nat) (p : Packet) : (s.setPkt id p).hbm = s.hbm := rfl

/-! ## setBarge -/

@[simp] theorem setBarge_pending (s : State) (n : Nat) (b : Barge) : (s.setBarge n b).pending = s.pending := rfl
@[simp] theorem setBarge_pins (s : State) (n : Nat) (b : Barge) : (s.setBarge n b).pins = s.pins := rfl
@[simp] theorem setBarge_unit (s : State) (n : Nat) (b : Barge) : (s.setBarge n b).unit = s.unit := rfl
@[simp] theorem setBarge_out (s : State) (n : Nat) (b : Barge) : (s.setBarge n b).out = s.out := rfl
@[simp] theorem setBarge_free (s : State) (n : Nat) (b : Barge) : (s.setBarge n b).free = s.free := rfl
@[simp] theorem setBarge_time (s : State) (n : Nat) (b : Barge) : (s.setBarge n b).time = s.time := rfl
@[simp] theorem setBarge_regs (s : State) (n : Nat) (b : Barge) : (s.setBarge n b).regs = s.regs := rfl
@[simp] theorem setBarge_stg (s : State) (n : Nat) (b : Barge) : (s.setBarge n b).stg = s.stg := rfl
@[simp] theorem setBarge_tim (s : State) (n : Nat) (b : Barge) : (s.setBarge n b).tim = s.tim := rfl
@[simp] theorem setBarge_ports (s : State) (n : Nat) (b : Barge) : (s.setBarge n b).ports = s.ports := rfl
@[simp] theorem setBarge_nextPkt (s : State) (n : Nat) (b : Barge) : (s.setBarge n b).nextPkt = s.nextPkt := rfl
@[simp] theorem setBarge_nextRel (s : State) (n : Nat) (b : Barge) : (s.setBarge n b).nextRel = s.nextRel := rfl
@[simp] theorem setBarge_pkts (s : State) (n : Nat) (b : Barge) : (s.setBarge n b).pkts = s.pkts := rfl
@[simp] theorem setBarge_tab (s : State) (n : Nat) (b : Barge) : (s.setBarge n b).tab = s.tab := rfl
@[simp] theorem setBarge_scp (s : State) (n : Nat) (b : Barge) : (s.setBarge n b).scp = s.scp := rfl
@[simp] theorem setBarge_que (s : State) (n : Nat) (b : Barge) : (s.setBarge n b).que = s.que := rfl
@[simp] theorem setBarge_mtr (s : State) (n : Nat) (b : Barge) : (s.setBarge n b).mtr = s.mtr := rfl
@[simp] theorem setBarge_egr (s : State) (n : Nat) (b : Barge) : (s.setBarge n b).egr = s.egr := rfl
@[simp] theorem setBarge_ver (s : State) (n : Nat) (b : Barge) : (s.setBarge n b).ver = s.ver := rfl
@[simp] theorem setBarge_tow (s : State) (n : Nat) (b : Barge) : (s.setBarge n b).tow = s.tow := rfl
@[simp] theorem setBarge_wit (s : State) (n : Nat) (b : Barge) : (s.setBarge n b).wit = s.wit := rfl
@[simp] theorem setBarge_sec (s : State) (n : Nat) (b : Barge) : (s.setBarge n b).sec = s.sec := rfl
@[simp] theorem setBarge_boot (s : State) (n : Nat) (b : Barge) : (s.setBarge n b).boot = s.boot := rfl
@[simp] theorem setBarge_hif (s : State) (n : Nat) (b : Barge) : (s.setBarge n b).hif = s.hif := rfl
@[simp] theorem setBarge_flt (s : State) (n : Nat) (b : Barge) : (s.setBarge n b).flt = s.flt := rfl
@[simp] theorem setBarge_cnd (s : State) (n : Nat) (b : Barge) : (s.setBarge n b).cnd = s.cnd := rfl
@[simp] theorem setBarge_kpr (s : State) (n : Nat) (b : Barge) : (s.setBarge n b).kpr = s.kpr := rfl
@[simp] theorem setBarge_pmc (s : State) (n : Nat) (b : Barge) : (s.setBarge n b).pmc = s.pmc := rfl
@[simp] theorem setBarge_hbm (s : State) (n : Nat) (b : Barge) : (s.setBarge n b).hbm = s.hbm := rfl

/-! ## putRow -/

@[simp] theorem putRow_pending (s : State) (e : Nat) (r : TcRow) : (s.putRow e r).pending = s.pending := rfl
@[simp] theorem putRow_pins (s : State) (e : Nat) (r : TcRow) : (s.putRow e r).pins = s.pins := rfl
@[simp] theorem putRow_unit (s : State) (e : Nat) (r : TcRow) : (s.putRow e r).unit = s.unit := rfl
@[simp] theorem putRow_out (s : State) (e : Nat) (r : TcRow) : (s.putRow e r).out = s.out := rfl
@[simp] theorem putRow_free (s : State) (e : Nat) (r : TcRow) : (s.putRow e r).free = s.free := rfl
@[simp] theorem putRow_time (s : State) (e : Nat) (r : TcRow) : (s.putRow e r).time = s.time := rfl
@[simp] theorem putRow_regs (s : State) (e : Nat) (r : TcRow) : (s.putRow e r).regs = s.regs := rfl
@[simp] theorem putRow_stg (s : State) (e : Nat) (r : TcRow) : (s.putRow e r).stg = s.stg := rfl
@[simp] theorem putRow_tim (s : State) (e : Nat) (r : TcRow) : (s.putRow e r).tim = s.tim := rfl
@[simp] theorem putRow_ports (s : State) (e : Nat) (r : TcRow) : (s.putRow e r).ports = s.ports := rfl
@[simp] theorem putRow_nextPkt (s : State) (e : Nat) (r : TcRow) : (s.putRow e r).nextPkt = s.nextPkt := rfl
@[simp] theorem putRow_nextRel (s : State) (e : Nat) (r : TcRow) : (s.putRow e r).nextRel = s.nextRel := rfl
@[simp] theorem putRow_pkts (s : State) (e : Nat) (r : TcRow) : (s.putRow e r).pkts = s.pkts := rfl
@[simp] theorem putRow_prs (s : State) (e : Nat) (r : TcRow) : (s.putRow e r).prs = s.prs := rfl
@[simp] theorem putRow_scp (s : State) (e : Nat) (r : TcRow) : (s.putRow e r).scp = s.scp := rfl
@[simp] theorem putRow_que (s : State) (e : Nat) (r : TcRow) : (s.putRow e r).que = s.que := rfl
@[simp] theorem putRow_mtr (s : State) (e : Nat) (r : TcRow) : (s.putRow e r).mtr = s.mtr := rfl
@[simp] theorem putRow_egr (s : State) (e : Nat) (r : TcRow) : (s.putRow e r).egr = s.egr := rfl
@[simp] theorem putRow_ver (s : State) (e : Nat) (r : TcRow) : (s.putRow e r).ver = s.ver := rfl
@[simp] theorem putRow_tow (s : State) (e : Nat) (r : TcRow) : (s.putRow e r).tow = s.tow := rfl
@[simp] theorem putRow_wit (s : State) (e : Nat) (r : TcRow) : (s.putRow e r).wit = s.wit := rfl
@[simp] theorem putRow_sec (s : State) (e : Nat) (r : TcRow) : (s.putRow e r).sec = s.sec := rfl
@[simp] theorem putRow_boot (s : State) (e : Nat) (r : TcRow) : (s.putRow e r).boot = s.boot := rfl
@[simp] theorem putRow_hif (s : State) (e : Nat) (r : TcRow) : (s.putRow e r).hif = s.hif := rfl
@[simp] theorem putRow_flt (s : State) (e : Nat) (r : TcRow) : (s.putRow e r).flt = s.flt := rfl
@[simp] theorem putRow_cnd (s : State) (e : Nat) (r : TcRow) : (s.putRow e r).cnd = s.cnd := rfl
@[simp] theorem putRow_kpr (s : State) (e : Nat) (r : TcRow) : (s.putRow e r).kpr = s.kpr := rfl
@[simp] theorem putRow_pmc (s : State) (e : Nat) (r : TcRow) : (s.putRow e r).pmc = s.pmc := rfl
@[simp] theorem putRow_hbm (s : State) (e : Nat) (r : TcRow) : (s.putRow e r).hbm = s.hbm := rfl

/-! ## tick -/

@[simp] theorem tick_pending (s : State) : (s.tick).pending = s.pending := rfl
@[simp] theorem tick_pins (s : State) : (s.tick).pins = s.pins := rfl
@[simp] theorem tick_unit (s : State) : (s.tick).unit = s.unit := rfl
@[simp] theorem tick_out (s : State) : (s.tick).out = s.out := rfl
@[simp] theorem tick_free (s : State) : (s.tick).free = s.free := rfl
@[simp] theorem tick_regs (s : State) : (s.tick).regs = s.regs := rfl
@[simp] theorem tick_stg (s : State) : (s.tick).stg = s.stg := rfl
@[simp] theorem tick_ports (s : State) : (s.tick).ports = s.ports := rfl
@[simp] theorem tick_nextPkt (s : State) : (s.tick).nextPkt = s.nextPkt := rfl
@[simp] theorem tick_nextRel (s : State) : (s.tick).nextRel = s.nextRel := rfl
@[simp] theorem tick_pkts (s : State) : (s.tick).pkts = s.pkts := rfl
@[simp] theorem tick_prs (s : State) : (s.tick).prs = s.prs := rfl
@[simp] theorem tick_tab (s : State) : (s.tick).tab = s.tab := rfl
@[simp] theorem tick_scp (s : State) : (s.tick).scp = s.scp := rfl
@[simp] theorem tick_que (s : State) : (s.tick).que = s.que := rfl
@[simp] theorem tick_mtr (s : State) : (s.tick).mtr = s.mtr := rfl
@[simp] theorem tick_egr (s : State) : (s.tick).egr = s.egr := rfl
@[simp] theorem tick_ver (s : State) : (s.tick).ver = s.ver := rfl
@[simp] theorem tick_tow (s : State) : (s.tick).tow = s.tow := rfl
@[simp] theorem tick_wit (s : State) : (s.tick).wit = s.wit := rfl
@[simp] theorem tick_sec (s : State) : (s.tick).sec = s.sec := rfl
@[simp] theorem tick_boot (s : State) : (s.tick).boot = s.boot := rfl
@[simp] theorem tick_hif (s : State) : (s.tick).hif = s.hif := rfl
@[simp] theorem tick_flt (s : State) : (s.tick).flt = s.flt := rfl
@[simp] theorem tick_cnd (s : State) : (s.tick).cnd = s.cnd := rfl
@[simp] theorem tick_kpr (s : State) : (s.tick).kpr = s.kpr := rfl
@[simp] theorem tick_pmc (s : State) : (s.tick).pmc = s.pmc := rfl
@[simp] theorem tick_hbm (s : State) : (s.tick).hbm = s.hbm := rfl

end Sys2Proof.Machine.State
end

