-- ==== Sys2Proof/Laws/Raise.lean ====
section
/-! SUPPORT. What raising a source can change: registers of blocks FLT and EVQ, counters, event requests, keeper interrupts and
the collector's state, and nothing else. -/
namespace Sys2Proof.Machine.State

/-- The registers that raising a source writes: the EVQ_STAT, FLT_STATUS, and the FLT_STICKY and FLT_INFAULT. -/
abbrev raiseRegion (off : Nat) : Prop :=
  (0x1600000 ≤ off ∧ off < 0x1602000 ∧ off % 32 = 24) ∨ off = 0x1800000 ∨ (0x1800800 ≤ off ∧ off < 0x18009C0)

/-- `t` differs from `s` in nothing but what raising a source changes; in the registers, only those of `raiseRegion`. -/
def raised (s t : State) : Prop :=
  (∃ regs ctr samplers snap msgs conds queues kpr faults due chipDue lastAt,
      t = { s with
        regs := regs, kpr := kpr,
        pmc := { s.pmc with ctr := ctr, samplers := samplers, snap := snap },
        hif := { s.hif with msgs := msgs, conds := conds, queues := queues },
        flt := { s.flt with faults := faults, due := due, chipDue := chipDue, lastAt := lastAt } })
    ∧ ∀ off, ¬ raiseRegion off → t.rd off = s.rd off

theorem raised_refl (s : State) : s.raised s := ⟨⟨_, _, _, _, _, _, _, _, _, _, _, _, rfl⟩, fun _ _ => rfl⟩

theorem raised_trans {s t u : State} (h1 : s.raised t) (h2 : t.raised u) : s.raised u := by
  obtain ⟨⟨_, _, _, _, _, _, _, _, _, _, _, _, rfl⟩, h1⟩ := h1
  obtain ⟨⟨_, _, _, _, _, _, _, _, _, _, _, _, rfl⟩, h2⟩ := h2
  exact ⟨⟨_, _, _, _, _, _, _, _, _, _, _, _, rfl⟩, fun off ho => (h2 off ho).trans (h1 off ho)⟩

theorem raised_wr (s : State) (off v : Nat) (h : raiseRegion off) : s.raised (s.wr off v) :=
  ⟨⟨_, _, _, _, _, _, _, _, _, _, _, _, rfl⟩, fun o ho => rd_wr_other s off o v (fun e => ho (e ▸ h))⟩

theorem raised_setFld (s : State) (off : Nat) (f : Fld) (v : Nat)
    (h : raiseRegion off) : s.raised (s.setFld off f v) :=
  raised_wr s off _ h

theorem raised_putBit (s : State) (off i : Nat) (b : Bool)
    (h : raiseRegion off) : s.raised (s.putBit off i b) :=
  raised_wr s off _ h

theorem raised_count (s : State) (n k : Nat) : s.raised (s.count n k) := ⟨⟨_, _, _, _, _, _, _, _, _, _, _, _, rfl⟩, fun _ _ => rfl⟩
theorem raised_hif (s : State) (a : List EvReq) (b : SMap CondReq) (c : SMap EvQueue) :
    s.raised { s with hif := { s.hif with msgs := a, conds := b, queues := c } } :=
  ⟨⟨_, _, _, _, _, _, _, _, _, _, _, _, rfl⟩, fun _ _ => rfl⟩
theorem raised_flt (s : State) (a : SMap FaultSt) (b : List Reaction) (c : Option (Nat × Stamp)) :
    s.raised { s with flt := { s.flt with faults := a, due := b, chipDue := c } } :=
  ⟨⟨_, _, _, _, _, _, _, _, _, _, _, _, rfl⟩, fun _ _ => rfl⟩
theorem raised_kpr (s : State) (x : SMap KprCore) : s.raised { s with kpr := x } :=
  ⟨⟨_, _, _, _, _, _, _, _, _, _, _, _, rfl⟩, fun _ _ => rfl⟩
theorem raised_lastAt (s : State) (x : Stamp) : s.raised { s with flt := { s.flt with lastAt := x } } :=
  ⟨⟨_, _, _, _, _, _, _, _, _, _, _, _, rfl⟩, fun _ _ => rfl⟩

/-- An interrupt that becomes pending changes only its core. -/
theorem kprPend_eq (s : State) (c p : Nat) : ∃ x, s.kprPend c p = { s with kpr := x } := by
  unfold kprPend
  dsimp only
  split
  · split
    · exact ⟨_, rfl⟩
    · split
      · exact ⟨s.kpr, rfl⟩
      · exact ⟨_, rfl⟩
  · split
    · exact ⟨s.kpr, rfl⟩
    · exact ⟨_, rfl⟩
theorem raised_kprPend (s : State) (c p : Nat) : s.raised (s.kprPend c p) := by
  obtain ⟨x, h⟩ := kprPend_eq s c p
  rw [h]
  exact raised_kpr s x

/-- The words of FLT_STICKY and FLT_INFAULT that hold the bits of a source. -/
theorem fltWord (n : Nat) (h : n < 1536) : raiseRegion (Reg.FLT_STICKY (n / 64)) ∧ raiseRegion (Reg.FLT_INFAULT (n / 64)) := by
  unfold Reg.FLT_STICKY Reg.FLT_INFAULT raiseRegion
  omega

theorem bits_lt (v hi lo : Nat) : bits v hi lo < 2 ^ (hi + 1 - lo) := Nat.mod_lt _ (Nat.two_pow_pos _)

/-- The queue a record goes to is one of the 128. -/
theorem route_lt (s : State) (n p q : Nat) (h : s.route n p = some q) : q < 128 := by
  unfold route at h
  by_cases hc : (s.flag (Reg.EVQ_ROUTE n) F.EVQ_ROUTE.EN && s.queueOn
      (if n = Src.HIF_DMA_CPL then s.fld (Reg.HIF_DMA_CFG (bits p 3 0)) F.HIF_DMA_CFG.EVQ
        else if n = Src.XMT_LEARN then 0
        else if n = Src.TIM_PTP_TX ∧ s.fld Reg.TIM_CTRL F.TIM_CTRL.SERVO_HOST = 0 then 1
        else s.fld (Reg.EVQ_ROUTE n) F.EVQ_ROUTE.QUEUE)) = true
  · rw [if_pos hc] at h
    simp only [Option.some.injEq] at h
    subst h
    split
    · exact bits_lt _ F.HIF_DMA_CFG.EVQ.hi F.HIF_DMA_CFG.EVQ.lo
    · split
      · decide
      · split
        · decide
        · exact bits_lt _ F.EVQ_ROUTE.QUEUE.hi F.EVQ_ROUTE.QUEUE.lo
  · rw [if_neg hc] at h
    cases h

theorem raised_loseEvent (s : State) (q : Nat) (t : Stamp) (h : q < 128) : s.raised (s.loseEvent q t).1 := by
  have hq : raiseRegion (Reg.EVQ_STAT q) := by
    unfold raiseRegion Reg.EVQ_STAT; omega
  unfold loseEvent
  dsimp only
  have h0 := raised_trans (raised_count s (Ctr.EVQ_LOST q) 1) (raised_setFld (s.count (Ctr.EVQ_LOST q)) (Reg.EVQ_STAT q) F.EVQ_STAT.OVERRUN 1 hq)
  have h1 := raised_trans h0 (raised_setFld _ (Reg.EVQ_STAT q) F.EVQ_STAT.LOST (min (s.fld (Reg.EVQ_STAT q) F.EVQ_STAT.LOST + 1) 0xFFFF_FFFF) hq)
  split
  · exact raised_trans h1 (raised_hif _ _ _ _)
  · exact h1

theorem raised_request (s : State) (n p : Nat) (t : Stamp) : s.raised (s.request n p t).1 := by
  unfold request
  split
  · exact raised_refl s
  · rename_i q hq
    have hq := route_lt s n p q hq
    split
    · split
      · exact raised_hif s _ _ _
      · exact raised_loseEvent s q t hq
    · dsimp only
      split
      · exact raised_hif s _ _ _
      · split
        · exact raised_hif s _ _ _
        · split
          · exact raised_hif s _ _ _
          · exact raised_count s _ _

theorem raised_noteAssert (s : State) (n : Nat) (t : Stamp) (h : n < 1536) : s.raised (s.noteAssert n t) := by
  obtain ⟨a1, a2⟩ := fltWord n h
  unfold noteAssert
  dsimp only
  have h0 := raised_trans (raised_trans (raised_trans (raised_count s (Ctr.FLT_ASSERTIONS n) 1) (raised_putBit _ _ (n % 64) true a1))
    (raised_putBit _ _ (n % 64) true a2)) (raised_flt _ (mput s.flt.faults n { mget {} s.flt.faults n with
      last := s.now, blkDone := if s.inFault n then (mget {} s.flt.faults n).blkDone else false }) s.flt.due s.flt.chipDue)
  split
  · exact h0
  · exact raised_trans (raised_trans h0 (raised_lastAt _ t)) (raised_setFld _ Reg.FLT_STATUS F.FLT_STATUS.LAST_SOURCE n (Or.inr (Or.inl rfl)))

theorem raised_reactDue (s : State) (n r : Nat) : s.raised (s.reactDue n r) := by
  unfold reactDue
  dsimp only
  split
  · exact raised_trans (raised_kprPend s _ _) (raised_flt _ _ _ _)
  · exact raised_flt _ _ _ _

/-- An assertion changes only what `raised` names. -/
theorem raised_assertSrc (s : State) (n p : Nat) (t : Stamp) (h : n < 1536) : s.raised (s.assertSrc n p t).1 := by
  unfold assertSrc
  have b : s.raised (if bitOf (s.react n) 0 then (s.noteAssert n t).request n p t else (s.noteAssert n t, none)).1 := by
    split
    · exact raised_trans (raised_noteAssert s n t h) (raised_request _ _ _ _)
    · exact raised_noteAssert s n t h
  dsimp only
  split
  · exact b
  · exact raised_trans b (raised_reactDue _ _ _)

/-- Raising a source changes only what `raised` names. -/
theorem raised_raiseAt (s : State) (n p : Nat) (t : Stamp) (h : n < 1536) : s.raised (s.raiseAt n p t) := by
  unfold raiseAt
  have h1 := raised_assertSrc s n p t h
  split
  · rename_i s' hs
    rw [hs] at h1
    exact h1
  · rename_i s' q hs
    rw [hs] at h1
    exact raised_trans h1 (raised_assertSrc _ _ _ _ (by decide))

theorem raised_raise (s : State) (n p : Nat) (h : n < 1536) : s.raised (s.raise n p) := raised_raiseAt s n p _ h

/-! ## The fields alone, for any source number -/

/-- `t` differs from `s` in no field but the five that raising a source may change. -/
def raisedFields (s t : State) : Prop :=
  ∃ regs ctr samplers snap msgs conds queues kpr faults due chipDue lastAt,
    t = { s with
      regs := regs, kpr := kpr,
      pmc := { s.pmc with ctr := ctr, samplers := samplers, snap := snap },
      hif := { s.hif with msgs := msgs, conds := conds, queues := queues },
      flt := { s.flt with faults := faults, due := due, chipDue := chipDue, lastAt := lastAt } }

theorem raisedFields_refl (s : State) : s.raisedFields s := ⟨_, _, _, _, _, _, _, _, _, _, _, _, rfl⟩

theorem raisedFields_trans {s t u : State} (h1 : s.raisedFields t) (h2 : t.raisedFields u) : s.raisedFields u := by
  obtain ⟨_, _, _, _, _, _, _, _, _, _, _, _, rfl⟩ := h1
  obtain ⟨_, _, _, _, _, _, _, _, _, _, _, _, rfl⟩ := h2
  exact ⟨_, _, _, _, _, _, _, _, _, _, _, _, rfl⟩

theorem raisedFields_ite (c : Prop) [Decidable c] {s a b : State} (ha : s.raisedFields a) (hb : s.raisedFields b) :
    s.raisedFields (if c then a else b) := by
  split
  · exact ha
  · exact hb

theorem setFld_fields (s : State) (off : Nat) (f : Fld) (v : Nat) : s.raisedFields (s.setFld off f v) := ⟨_, _, _, _, _, _, _, _, _, _, _, _, rfl⟩
theorem count_fields (s : State) (n k : Nat) : s.raisedFields (s.count n k) := ⟨_, _, _, _, _, _, _, _, _, _, _, _, rfl⟩
theorem hif_fields (s : State) (a : List EvReq) (b : SMap CondReq) (c : SMap EvQueue) :
    s.raisedFields { s with hif := { s.hif with msgs := a, conds := b, queues := c } } := ⟨_, _, _, _, _, _, _, _, _, _, _, _, rfl⟩

theorem loseEvent_fields (s : State) (q : Nat) (t : Stamp) : s.raisedFields (s.loseEvent q t).1 := by
  have h := raisedFields_trans (raisedFields_trans (count_fields s (Ctr.EVQ_LOST q) 1)
    (setFld_fields _ (Reg.EVQ_STAT q) F.EVQ_STAT.OVERRUN 1))
    (setFld_fields _ (Reg.EVQ_STAT q) F.EVQ_STAT.LOST (min (s.fld (Reg.EVQ_STAT q) F.EVQ_STAT.LOST + 1) 0xFFFF_FFFF))
  unfold loseEvent
  dsimp only
  split
  · exact raisedFields_trans h (hif_fields _ _ _ _)
  · exact h

theorem request_fields (s : State) (n p : Nat) (t : Stamp) : s.raisedFields (s.request n p t).1 := by
  unfold request
  split
  · exact raisedFields_refl s
  · split
    · split
      · exact ⟨_, _, _, _, _, _, _, _, _, _, _, _, rfl⟩
      · exact loseEvent_fields s _ t
    · dsimp only
      split
      · exact ⟨_, _, _, _, _, _, _, _, _, _, _, _, rfl⟩
      · split
        · exact ⟨_, _, _, _, _, _, _, _, _, _, _, _, rfl⟩
        · split
          · exact ⟨_, _, _, _, _, _, _, _, _, _, _, _, rfl⟩
          · exact ⟨_, _, _, _, _, _, _, _, _, _, _, _, rfl⟩

theorem flt_fields (s : State) (a : SMap FaultSt) (b : Stamp) :
    s.raisedFields { s with flt := { s.flt with faults := a, lastAt := b } } := ⟨_, _, _, _, _, _, _, _, _, _, _, _, rfl⟩

theorem noteAssert_fields (s : State) (n : Nat) (t : Stamp) : s.raisedFields (s.noteAssert n t) := by
  unfold noteAssert
  dsimp only
  have h0 := raisedFields_trans (count_fields s (Ctr.FLT_ASSERTIONS n) 1) (raisedFields_trans
    (setFld_fields _ (Reg.FLT_STICKY (n / 64)) ⟨n % 64, n % 64⟩ 1) (setFld_fields _ (Reg.FLT_INFAULT (n / 64)) ⟨n % 64, n % 64⟩ 1))
  have h1 := raisedFields_trans h0 (flt_fields _ (mput s.flt.faults n { mget {} s.flt.faults n with
      last := s.now, blkDone := if s.inFault n then (mget {} s.flt.faults n).blkDone else false }) s.flt.lastAt)
  split
  · exact h1
  · exact raisedFields_trans (raisedFields_trans h1 (flt_fields _ _ t)) (setFld_fields _ Reg.FLT_STATUS F.FLT_STATUS.LAST_SOURCE n)

theorem assertSrc_fields (s : State) (n p : Nat) (t : Stamp) : s.raisedFields (s.assertSrc n p t).1 := by
  have h0 := noteAssert_fields s n t
  have h2 : ∀ (u : State) r, u.raisedFields (u.reactDue n r) := by
    intro u r
    unfold reactDue
    dsimp only
    split
    · obtain ⟨x, h⟩ := kprPend_eq u (u.fld (Reg.FLT_SRC_CFG n) F.FLT_SRC_CFG.KCORE) 0
      rw [h]
      exact ⟨_, _, _, _, _, _, _, _, _, _, _, _, rfl⟩
    · exact ⟨_, _, _, _, _, _, _, _, _, _, _, _, rfl⟩
  have h1 : s.raisedFields (if bitOf (s.react n) 0 then (s.noteAssert n t).request n p t else (s.noteAssert n t, none)).1 := by
    split
    · exact raisedFields_trans h0 (request_fields _ _ _ _)
    · exact h0
  unfold assertSrc
  dsimp only
  split
  · exact h1
  · exact raisedFields_trans h1 (h2 _ _)

theorem raiseAt_fields (s : State) (n p : Nat) (t : Stamp) : s.raisedFields (s.raiseAt n p t) := by
  unfold raiseAt
  have h1 := assertSrc_fields s n p t
  split
  · rename_i s' hs
    rw [hs] at h1
    exact h1
  · rename_i s' q hs
    rw [hs] at h1
    exact raisedFields_trans h1 (assertSrc_fields _ _ _ _)

theorem raise_fields (s : State) (n p : Nat) : s.raisedFields (s.raise n p) := raiseAt_fields _ _ _ _

/-- Raising a source writes no register outside `raiseRegion`. -/
theorem raise_rd (s : State) (n p off : Nat) (h : n < 1536) (ho : ¬ raiseRegion off) : (s.raise n p).rd off = s.rd off :=
  (raised_raise s n p h).2 off ho

/-! ## The sticky bit -/

theorem bitOf_bits (v i : Nat) : bitOf v i = (bits v i i == 1) := by
  unfold bitOf bits
  rw [show i + 1 - i = 1 by omega, Nat.pow_one]

theorem bitOf_putBits_same (v i : Nat) (b : Bool) : bitOf (putBits v i i (b2n b)) i = b := by
  rw [bitOf_bits, bits_putBits_same, show i + 1 - i = 1 by omega, Nat.pow_one]
  cases b <;> rfl

theorem bitOf_putBits_other (v i j : Nat) (b : Bool) (h : j ≠ i) : bitOf (putBits v i i (b2n b)) j = bitOf v j := by
  rw [bitOf_bits, bitOf_bits, bits_putBits_other _ _ _ _ _ _ (Nat.le_refl _) (Nat.le_refl _) (by omega)]

/-- The bits of a register after one of them was put. -/
theorem bitOf_rd_putBit (s : State) (off i j : Nat) (b : Bool) (hi : i < 64) :
    bitOf ((s.putBit off i b).rd off) j = if j = i then b else bitOf (s.rd off) j := by
  unfold putBit
  rw [rd_wr_same, Nat.mod_eq_of_lt (putBits_lt _ _ _ _ 64 (Nat.le_refl _) hi (rd_lt s off))]
  split
  · rename_i e; subst e; exact bitOf_putBits_same _ _ _
  · rename_i e; exact bitOf_putBits_other _ _ _ _ e

theorem rd_putBit_other (s : State) (off off2 i : Nat) (b : Bool) (h : off2 ≠ off) : (s.putBit off i b).rd off2 = s.rd off2 :=
  rd_wr_other s off off2 _ h

/-- An assertion of `m` sets the sticky bit of `m` and clears none. -/
theorem noteAssert_sticky (s : State) (m n : Nat) (t : Stamp) (hm : m < 1536) (hn : n < 1536) :
    (s.noteAssert m t).sticky n = (decide (n = m) || s.sticky n) := by
  have e1 : ∀ (u : State) x off f v, (({ u with flt := x } : State).setFld off f v).rd = (u.setFld off f v).rd := fun _ _ _ _ _ => rfl
  have e2 : ∀ (u : State) x, ({ u with flt := x } : State).rd = u.rd := fun _ _ => rfl
  have h : ((((s.count (Ctr.FLT_ASSERTIONS m)).putBit (Reg.FLT_STICKY (m / 64)) (m % 64) true).putBit
      (Reg.FLT_INFAULT (m / 64)) (m % 64) true)).sticky n = (decide (n = m) || s.sticky n) := by
    unfold sticky
    rw [rd_putBit_other _ _ _ _ _ (by unfold Reg.FLT_STICKY Reg.FLT_INFAULT; omega)]
    by_cases hr : n / 64 = m / 64
    · rw [hr, bitOf_rd_putBit _ _ _ _ _ (by omega)]
      by_cases he : n = m
      · subst he; simp
      · rw [if_neg (by omega), decide_eq_false he]; rfl
    · rw [rd_putBit_other _ _ _ _ _ (by unfold Reg.FLT_STICKY; omega)]
      have he : n ≠ m := fun e => hr (by rw [e])
      rw [decide_eq_false he]; rfl
  rw [← h]
  unfold noteAssert sticky
  dsimp only
  split
  · rw [e2]
  · rw [e1, rd_setFld_other _ _ _ _ _ (by unfold Reg.FLT_STICKY Reg.FLT_STATUS; omega), e2]

theorem loseEvent_rd (s : State) (q : Nat) (t : Stamp) (off : Nat) (h : off ≠ Reg.EVQ_STAT q) :
    (s.loseEvent q t).1.rd off = s.rd off := by
  unfold loseEvent
  dsimp only
  have e : ∀ (t : State) x, ({ t with hif := x } : State).rd off = t.rd off := fun _ _ => rfl
  split
  · rw [e, rd_setFld_other _ _ _ _ _ h, rd_setFld_other _ _ _ _ _ h]; rfl
  · rw [rd_setFld_other _ _ _ _ _ h, rd_setFld_other _ _ _ _ _ h]; rfl

theorem request_rd (s : State) (n p : Nat) (t : Stamp) (off : Nat) (h : off < 0x1600000 ∨ 0x1700000 ≤ off) :
    (s.request n p t).1.rd off = s.rd off := by
  unfold request
  split
  · rfl
  · rename_i q hq
    have hq := route_lt s n p q hq
    split
    · split
      · rfl
      · exact loseEvent_rd s q t off (by unfold Reg.EVQ_STAT; omega)
    · dsimp only
      split
      · rfl
      · split
        · rfl
        · split
          · rfl
          · rfl

theorem reactDue_rd (s : State) (n r off : Nat) : (s.reactDue n r).rd off = s.rd off := by
  unfold reactDue
  dsimp only
  split
  · obtain ⟨x, h⟩ := kprPend_eq s (s.fld (Reg.FLT_SRC_CFG n) F.FLT_SRC_CFG.KCORE) 0
    rw [h]
    rfl
  · rfl

theorem assertSrc_sticky (s : State) (m n p : Nat) (t : Stamp) (hm : m < 1536) (hn : n < 1536) :
    (s.assertSrc m p t).1.sticky n = (decide (n = m) || s.sticky n) := by
  have h1 : ∀ u : State, u.sticky n = (decide (n = m) || s.sticky n) →
      (if (mget {} s.flt.faults m).broken = true then u else u.reactDue m (s.react m)).sticky n = (decide (n = m) || s.sticky n) := by
    intro u hu
    split
    · exact hu
    · rw [← hu]; unfold sticky; rw [reactDue_rd]
  have h2 : (if bitOf (s.react m) 0 then (s.noteAssert m t).request m p t else (s.noteAssert m t, none)).1.sticky n
      = (decide (n = m) || s.sticky n) := by
    split
    · rw [← noteAssert_sticky s m n t hm hn]
      unfold sticky
      rw [request_rd _ _ _ _ _ (by unfold Reg.FLT_STICKY; omega)]
    · exact noteAssert_sticky s m n t hm hn
  unfold assertSrc
  exact h1 _ h2

/-- Raising source `m` sets its sticky bit and clears none; beside, at most EVQ_OVERFLOW_SEEN's is set. -/
theorem raise_sticky_or (s : State) (m n p : Nat) (hm : m < 1536) (hn : n < 1536) (h : n = m ∨ s.sticky n = true) :
    (s.raise m p).sticky n = true := by
  have h0 : (decide (n = m) || s.sticky n) = true := by
    rcases h with h | h
    · simp [h]
    · simp [h]
  unfold raise raiseAt
  have h1 := assertSrc_sticky s m n p s.now hm hn
  split
  · rename_i s' hs
    rw [hs] at h1
    exact h1.trans h0
  · rename_i s' q hs
    rw [hs] at h1
    rw [assertSrc_sticky _ _ _ _ _ (by decide) hn, show s'.sticky n = true from h1.trans h0]
    simp

theorem raise_sticky (s : State) (n p : Nat) (h : n < 1536) : (s.raise n p).sticky n = true :=
  raise_sticky_or s n n p h h (Or.inl rfl)

end Sys2Proof.Machine.State
end

