-- ==== Sys2Proof/Laws/Witness.lean ====
section
/-! SUPPORT. What writing the witness can change: what raising a source changes, block WIT, and the panic bits of HBM_STAT. -/
namespace Sys2Proof.Machine.State

/-- The offsets of WIT, HBM, EVQ and FLT, outside which writing the witness writes no register. -/
abbrev logRegion (off : Nat) : Prop := (0x1200000 ≤ off ∧ off < 0x1300000) ∨ (0x1400000 ≤ off ∧ off < 0x1500000) ∨ raiseRegion off

/-- `t` differs from `s` in nothing but what writing the witness changes. -/
def logged (s t : State) : Prop :=
  (∃ regs ctr samplers spans running snap msgs conds queues kpr faults due chipDue lastAt wit,
      t = { s with
        regs := regs, kpr := kpr, wit := wit,
        pmc := { s.pmc with ctr := ctr, samplers := samplers, spans := spans, running := running, snap := snap },
        hif := { s.hif with msgs := msgs, conds := conds, queues := queues },
        flt := { s.flt with faults := faults, due := due, chipDue := chipDue, lastAt := lastAt } })
    ∧ ∀ off, ¬ logRegion off → t.rd off = s.rd off

theorem logged_refl (s : State) : s.logged s := ⟨⟨_, _, _, _, _, _, _, _, _, _, _, _, _, _, _, rfl⟩, fun _ _ => rfl⟩

theorem logged_trans {s t u : State} (h1 : s.logged t) (h2 : t.logged u) : s.logged u := by
  obtain ⟨⟨_, _, _, _, _, _, _, _, _, _, _, _, _, _, _, rfl⟩, h1⟩ := h1
  obtain ⟨⟨_, _, _, _, _, _, _, _, _, _, _, _, _, _, _, rfl⟩, h2⟩ := h2
  exact ⟨⟨_, _, _, _, _, _, _, _, _, _, _, _, _, _, _, rfl⟩, fun off ho => (h2 off ho).trans (h1 off ho)⟩

theorem logged_of_raised {s t : State} (h : s.raised t) : s.logged t := by
  obtain ⟨⟨_, _, _, _, _, _, _, _, _, _, _, _, rfl⟩, h⟩ := h
  exact ⟨⟨_, _, _, _, _, _, _, _, _, _, _, _, _, _, _, rfl⟩, fun off ho => h off (fun hr => ho (Or.inr (Or.inr hr)))⟩

theorem logged_wr (s : State) (off v : Nat) (h : logRegion off) : s.logged (s.wr off v) :=
  ⟨⟨_, _, _, _, _, _, _, _, _, _, _, _, _, _, _, rfl⟩, fun o ho => rd_wr_other s off o v (fun e => ho (e ▸ h))⟩

theorem logged_setFld (s : State) (off : Nat) (f : Fld) (v : Nat) (h : logRegion off) : s.logged (s.setFld off f v) :=
  logged_wr s off _ h

theorem logged_wit (s : State) (w : WitState) : s.logged { s with wit := w } := ⟨⟨_, _, _, _, _, _, _, _, _, _, _, _, _, _, _, rfl⟩, fun _ _ => rfl⟩
theorem logged_pmc (s : State) (a : SMap Nat) (b : SMap Stamp) :
    s.logged { s with pmc := { s.pmc with spans := a, running := b } } := ⟨⟨_, _, _, _, _, _, _, _, _, _, _, _, _, _, _, rfl⟩, fun _ _ => rfl⟩
theorem logged_count (s : State) (n k : Nat) : s.logged (s.count n k) := ⟨⟨_, _, _, _, _, _, _, _, _, _, _, _, _, _, _, rfl⟩, fun _ _ => rfl⟩
theorem logged_setRecorder (s : State) (st : Nat) (r : Recorder) : s.logged (s.setRecorder st r) :=
  ⟨⟨_, _, _, _, _, _, _, _, _, _, _, _, _, _, _, rfl⟩, fun _ _ => rfl⟩

theorem logged_startNs (s : State) (n : Nat) : s.logged (s.startNs n) := by
  unfold startNs
  split
  · exact logged_refl s
  · exact logged_pmc s s.pmc.spans _

theorem logged_stopNs (s : State) (n : Nat) : s.logged (s.stopNs n) := by
  unfold stopNs
  split
  · exact logged_refl s
  · exact logged_pmc s _ _

theorem logged_raise (s : State) (n p : Nat) (h : n < 1536) : s.logged (s.raise n p) := logged_of_raised (raised_raise s n p h)

theorem logged_ite (c : Prop) [Decidable c] {s a b : State} (ha : s.logged a) (hb : s.logged b) : s.logged (if c then a else b) := by
  split
  · exact ha
  · exact hb

/-- What each step of a fold changes, the fold changes. -/
theorem logged_foldl {α : Type} (f : State → α → State) (l : List α) (s : State) (h : ∀ a ∈ l, ∀ t : State, t.logged (f t a)) :
    s.logged (l.foldl f s) := by
  induction l generalizing s with
  | nil => exact logged_refl s
  | cons a l ih =>
    exact logged_trans (h a List.mem_cons_self s) (ih (f s a) (fun b hb => h b (List.mem_cons_of_mem _ hb)))

theorem streamStat_region (st : Nat) (h : st < 32) : logRegion (Reg.WIT_STREAM_STAT st) := by
  refine Or.inl ?_
  unfold Reg.WIT_STREAM_STAT
  omega

theorem logged_syncStaging (s : State) : s.logged s.syncStaging := by
  unfold syncStaging
  have h0 : s.logged ((List.range 17).foldl (fun s st =>
      s.setFld (Reg.WIT_STREAM_STAT st) F.WIT_STREAM_STAT.STAGING
        (s.stagedUnits st + (if (s.recorder st).blk.isSome then 1 else 0))) s) :=
    logged_foldl _ _ _ (fun a ha t => logged_setFld _ _ _ _ (streamStat_region a (by have := List.mem_range.mp ha; omega)))
  dsimp only
  split
  · split
    · refine logged_trans h0 ?_
      refine logged_trans ?_ (logged_raise _ _ _ (by decide))
      refine logged_trans ?_ (logged_setFld _ _ _ _ (Or.inr (Or.inl (by decide))))
      refine logged_trans ?_ (logged_setFld _ _ _ _ (Or.inr (Or.inl (by decide))))
      refine logged_trans ?_ (logged_startNs _ _)
      exact logged_wit _ _
    · exact h0
  · split
    · refine logged_trans h0 ?_
      refine logged_trans ?_ (logged_setFld _ _ _ _ (Or.inr (Or.inl (by decide))))
      refine logged_trans ?_ (logged_setFld _ _ _ _ (Or.inr (Or.inl (by decide))))
      refine logged_trans ?_ (logged_stopNs _ _)
      exact logged_wit _ _
    · exact h0

theorem logged_putBytes (n : Nat) : ∀ (s : State) (off : Nat) (bs : Bytes),
    0x1200000 ≤ off → off + 8 * n ≤ 0x1300000 → s.logged (s.putBytes off n bs) := by
  induction n with
  | zero => intro s off bs _ _; exact logged_refl s
  | succ n ih =>
    intro s off bs h1 h2
    unfold putBytes
    exact logged_trans (logged_wr s off _ (Or.inl (by omega))) (ih _ _ _ (by omega) (by omega))

theorem logged_closeBlock (s : State) (st : Nat) (last : Bool) (h : st < 32) : s.logged (s.closeBlock st last) := by
  unfold closeBlock
  dsimp only
  split
  · exact logged_refl s
  · refine logged_trans ?_ (logged_syncStaging _)
    refine logged_trans ?_ (logged_count _ _ _)
    refine logged_trans ?_ (logged_count _ _ _)
    refine logged_trans ?_ (logged_putBytes 4 _ _ _ (by unfold Reg.WIT_HEAD; omega) (by unfold Reg.WIT_HEAD; omega))
    refine logged_trans ?_ (logged_setFld _ _ _ _ (streamStat_region st h))
    exact logged_trans (logged_setRecorder _ _ _) (logged_wit _ _)

theorem logged_openBlock (s : State) (st : Nat) : s.logged (s.openBlock st) := by
  unfold openBlock
  dsimp only
  split
  · exact logged_refl s
  · split
    · exact logged_refl s
    · exact logged_trans (logged_setRecorder _ _ _) (logged_syncStaging _)

theorem logged_gapCount (s : State) (st k : Nat) (t : Stamp) (h : st < 32) : s.logged (s.gapCount st k t) := by
  unfold gapCount
  dsimp only
  refine logged_ite _ ?_ ?_
  · refine logged_trans ?_ (logged_raise _ _ _ (by decide))
    refine logged_trans ?_ (logged_setFld _ _ _ _ (streamStat_region st h))
    exact logged_trans (logged_count s _ _) (logged_setRecorder _ _ _)
  · exact logged_trans (logged_count s _ _) (logged_setRecorder _ _ _)

theorem logged_closeFull (s : State) (st : Nat) (h : st < 32) : s.logged (s.closeFull st) := by
  unfold closeFull
  dsimp only
  split
  · exact logged_ite _ (logged_closeBlock _ _ _ h) (logged_refl s)
  · exact logged_refl s

theorem logged_gapEvent (s : State) (st k : Nat) (t : Stamp) (h : st < 32) : s.logged (s.gapEvent st k t) :=
  logged_trans (logged_trans (logged_openBlock s st) (logged_gapCount _ _ _ _ h)) (logged_closeFull _ _ h)

theorem logged_putRecs (s : State) (st k : Nat) (t : Stamp) (recs : List WRec) (h : st < 32) : s.logged (s.putRecs st k t recs) := by
  unfold putRecs
  dsimp only
  have h0 : ∀ c : Bool, s.logged ((if c then s.closeBlock st else s).openBlock st) := by
    intro c
    cases c
    · exact logged_openBlock s st
    · exact logged_trans (logged_closeBlock s st false h) (logged_openBlock _ _)
  split
  · exact logged_trans (h0 _) (logged_gapEvent _ _ _ _ h)
  · rename_i b hb
    refine logged_trans ?_ (logged_closeFull _ _ h)
    exact logged_trans (h0 _) (logged_trans (logged_setRecorder _ _ _) (logged_count _ _ _))

theorem logged_writeCtl (s : State) (e : CtlEvent) (h : e.stream < 32) : s.logged (s.writeCtl e) := logged_putRecs _ _ _ _ _ h

theorem logged_holdCtl (s : State) (e : CtlEvent) (h : e.stream < 32) : s.logged (s.holdCtl e) :=
  logged_ite _ (logged_wit s _) (logged_gapCount _ _ _ _ h)

/-- A control event changes only what `logged` names. -/
theorem logged_control (s : State) (st ty : Nat) (payload : Bytes) (t : Stamp) (h : st < 32) : s.logged (s.control st ty payload t) := by
  unfold control
  exact logged_ite _ (logged_gapCount _ _ _ _ h) (logged_ite _ (logged_writeCtl _ _ h) (logged_holdCtl _ _ h))

theorem logged_controlNow (s : State) (ty : Nat) (payload : Bytes) : s.logged (s.controlNow ty payload) :=
  logged_control _ _ _ _ _ (by decide)

/-! ## The end of an epoch -/

/-- The offsets that the end of an epoch may write: what the witness writes, and block TOW. -/
abbrev sealRegion (off : Nat) : Prop := (0x1300000 ≤ off ∧ off < 0x1400000) ∨ logRegion off

/-- `t` differs from `s` in nothing but what the end of an epoch changes. -/
def sealed (s t : State) : Prop :=
  (∃ regs ctr samplers spans running snap msgs conds queues kpr faults due chipDue lastAt wit tow sec,
      t = { s with
        regs := regs, kpr := kpr, wit := wit, tow := tow, sec := sec,
        pmc := { s.pmc with ctr := ctr, samplers := samplers, spans := spans, running := running, snap := snap },
        hif := { s.hif with msgs := msgs, conds := conds, queues := queues },
        flt := { s.flt with faults := faults, due := due, chipDue := chipDue, lastAt := lastAt } })
    ∧ ∀ off, ¬ sealRegion off → t.rd off = s.rd off

theorem sealed_refl (s : State) : s.sealed s := ⟨⟨_, _, _, _, _, _, _, _, _, _, _, _, _, _, _, _, _, rfl⟩, fun _ _ => rfl⟩

theorem sealed_trans {s t u : State} (h1 : s.sealed t) (h2 : t.sealed u) : s.sealed u := by
  obtain ⟨⟨_, _, _, _, _, _, _, _, _, _, _, _, _, _, _, _, _, rfl⟩, h1⟩ := h1
  obtain ⟨⟨_, _, _, _, _, _, _, _, _, _, _, _, _, _, _, _, _, rfl⟩, h2⟩ := h2
  exact ⟨⟨_, _, _, _, _, _, _, _, _, _, _, _, _, _, _, _, _, rfl⟩, fun off ho => (h2 off ho).trans (h1 off ho)⟩

theorem sealed_of_logged {s t : State} (h : s.logged t) : s.sealed t := by
  obtain ⟨⟨_, _, _, _, _, _, _, _, _, _, _, _, _, _, _, rfl⟩, h⟩ := h
  exact ⟨⟨_, _, _, _, _, _, _, _, _, _, _, _, _, _, _, _, _, rfl⟩, fun off ho => h off (fun hr => ho (Or.inr hr))⟩

theorem sealed_ite (c : Prop) [Decidable c] {s a b : State} (ha : s.sealed a) (hb : s.sealed b) : s.sealed (if c then a else b) := by
  split
  · exact ha
  · exact hb

theorem sealed_setFld (s : State) (off : Nat) (f : Fld) (v : Nat) (h : sealRegion off) : s.sealed (s.setFld off f v) :=
  ⟨⟨_, _, _, _, _, _, _, _, _, _, _, _, _, _, _, _, _, rfl⟩, fun o ho => rd_setFld_other s off o f v (fun e => ho (e ▸ h))⟩

theorem sealed_foldl {α : Type} (f : State → α → State) (l : List α) (s : State) (h : ∀ a ∈ l, ∀ t : State, t.sealed (f t a)) :
    s.sealed (l.foldl f s) := by
  induction l generalizing s with
  | nil => exact sealed_refl s
  | cons a l ih => exact sealed_trans (h a List.mem_cons_self s) (ih (f s a) (fun b hb => h b (List.mem_cons_of_mem _ hb)))

theorem sealed_tow (s : State) (w : TowState) : s.sealed { s with tow := w } := ⟨⟨_, _, _, _, _, _, _, _, _, _, _, _, _, _, _, _, _, rfl⟩, fun _ _ => rfl⟩
theorem sealed_wit (s : State) (w : WitState) : s.sealed { s with wit := w } := ⟨⟨_, _, _, _, _, _, _, _, _, _, _, _, _, _, _, _, _, rfl⟩, fun _ _ => rfl⟩
theorem sealed_raise (s : State) (n p : Nat) (h : n < 1536) : s.sealed (s.raise n p) := sealed_of_logged (logged_raise s n p h)

theorem logged_syncPending (s : State) : s.logged s.syncPending := logged_setFld _ _ _ _ (Or.inl (by decide))

theorem sealed_sec (s : State) (x : SecState) : s.sealed { s with sec := x } := ⟨⟨_, _, _, _, _, _, _, _, _, _, _, _, _, _, _, _, _, rfl⟩, fun _ _ => rfl⟩

theorem sealed_holdSeal (s : State) (a b : Stamp) (x : Bool) : s.sealed (s.holdSeal a b x) := by
  unfold holdSeal
  dsimp only
  refine sealed_ite _ ?_ ?_
  · split
    · exact sealed_trans (sealed_wit s _) (sealed_raise _ _ _ (by decide))
    · exact sealed_refl s
  · exact sealed_trans (sealed_trans (sealed_wit s _) (sealed_of_logged (logged_syncPending _))) (sealed_sec _ _)

theorem logged_startKey (s : State) : s.logged s.startKey := by
  unfold startKey
  split
  · exact logged_refl s
  · exact logged_trans (logged_trans (logged_wit s _) (logged_setFld _ _ _ _ (Or.inl (by decide)))) (logged_control _ _ _ _ _ (by decide))

theorem sealed_publishSlack (s : State) : s.sealed s.publishSlack := by
  unfold publishSlack
  refine sealed_trans (sealed_foldl _ _ _ (fun c hc t => ?_)) (sealed_tow _ _)
  have hc := List.mem_range.mp hc
  have hr : sealRegion (Reg.TOW_SLACK c) := Or.inl (by unfold Reg.TOW_SLACK; omega)
  exact sealed_ite _ (sealed_trans (sealed_setFld t _ _ _ hr) (sealed_raise _ _ _ (by unfold Src.TOW_SYSD_SHORT; omega)))
    (sealed_setFld t _ _ _ hr)

theorem logged_openForLoss (s : State) (st : Nat) : s.logged (s.openForLoss st) :=
  logged_ite _ (logged_openBlock s st) (logged_refl s)

/-- The end of an epoch changes only what `sealed` names. -/
theorem sealed_closeEpoch (s : State) (a b : Stamp) (x : Bool) (e : Option Nat) : s.sealed (s.closeEpoch a b x e) := by
  unfold closeEpoch
  dsimp only
  have h1 : ∀ u : State, s.sealed u → s.sealed (if x = true then u else u.startKey) :=
    fun u hu => sealed_ite _ hu (sealed_trans hu (sealed_of_logged (logged_startKey u)))
  refine h1 _ ?_
  refine sealed_trans ?_ (sealed_wit _ _)
  refine sealed_trans ?_ (sealed_setFld _ _ _ _ (Or.inr (Or.inl (by decide))))
  refine sealed_trans ?_ (sealed_publishSlack _)
  refine sealed_trans ?_ (sealed_wit _ _)
  refine sealed_trans ?_ (sealed_foldl _ _ _ (fun st _ t => sealed_of_logged (logged_setRecorder t _ _)))
  refine sealed_trans ?_ (sealed_holdSeal _ _ _ _)
  exact sealed_foldl _ _ _ (fun st hst t => sealed_of_logged (logged_trans (logged_openForLoss t st)
    (logged_closeBlock _ st true (by have := List.mem_range.mp hst; omega))))

end Sys2Proof.Machine.State
end

