-- ==== Sys2Proof/Laws/Exec.lean ====
section
/-! SUPPORT. How a command's effect becomes the next state: a write that reaches its block, a state in which nothing is due,
and the completion of a command. -/
namespace Sys2Proof.Machine.State

/-- What is due in a calm state is nothing: `finish` changes only the queue and the pins, which it takes from `s0`. -/
theorem finish_calm (s0 s : State) (h0 : s0.calm = true) (h : s.calm = true) :
    finish s0 s = { s with pending := s0.pending, pins := s0.pins } := by
  have hd : s.flt.due = [] := by
    simp only [calm, Bool.and_eq_true, List.isEmpty_iff] at h; exact h.1.1.1.1.1
  have hc : s.boot.cmdFail = none := by
    simp only [calm, Bool.and_eq_true, Option.isNone_iff_eq_none] at h; exact h.1.1.1.1.2
  have ht : s.towOn = false := by
    simp only [calm, Bool.and_eq_true, Bool.not_eq_true'] at h; exact h.1.1.1.2
  have h6 : s.flag Reg.CFG_BOOT_STAT F.CFG_BOOT_STAT.NO_IMAGE = true ∨ s.ready 6 = decide (2 ≤ s.tq ∧ s.tq ≤ 7) := by
    simp only [calm, Bool.and_eq_true, Bool.or_eq_true, beq_iff_eq] at h; exact h.1.1.2
  have h8 : s.ready 8 = (s.ready 7 && s.ready 0) := by
    simp only [calm, Bool.and_eq_true, beq_iff_eq] at h; simpa using h.1.2
  have hl : s.hif.l12 = false := by
    simp only [calm, Bool.and_eq_true, Bool.not_eq_true'] at h; exact h.2
  have hs : s.towSt = 0 := by
    simp only [towOn, Bool.or_eq_false_iff, decide_eq_false_iff_not, not_not] at ht; exact ht.2
  have hs0 : s0.towSt = 0 := by
    have : s0.towOn = false := by
      simp only [calm, Bool.and_eq_true, Bool.not_eq_true'] at h0; exact h0.1.1.1.2
    simp only [towOn, Bool.or_eq_false_iff, decide_eq_false_iff_not, not_not] at this; exact this.2
  have hr : reactions 4096 s = s := by unfold reactions; rw [hd]
  have hf : s.failLoad = s := by unfold failLoad; rw [hc]
  have same : ∀ i b, s.ready i = b → s.setReady i b = s := by
    intro i b hb; unfold setReady; rw [if_pos hb]
  have hsync : s.syncReady s0.towSt = s := by
    unfold syncReady
    have e1 : (if s.flag Reg.CFG_BOOT_STAT F.CFG_BOOT_STAT.NO_IMAGE then s else s.setReady 6 (decide (2 ≤ s.tq ∧ s.tq ≤ 7))) = s := by
      split
      · rfl
      · rename_i hn
        exact same _ _ (h6.resolve_left hn)
    simp only [e1, same 8 _ h8, hs, hs0]
    simp
  have h12 : ∀ n, s.leaveL12 n = s := by
    intro n; unfold leaveL12; rw [hl]; rfl
  have hset : settle s0 s = s := by
    unfold settle
    simp only [hr, hf, ht, hsync, h12, Bool.false_eq_true, if_false]
  unfold finish
  rw [hset]

/-- The effect of a command whose numbers name something the device has, out of reset. -/
theorem act_live {ok : Bool} {f : State → State} {s : State} (hr : s.inReset = false) (ho : ok = true) :
    act ok f s = .next (finish s (f s)) := by
  unfold act; rw [hr, ho]; rfl

/-- A command completes with what its effect does. -/
theorem completes_act {i : Instr} {s : State} {P : State → Prop} {ok : Bool} {f : State → State}
    (hx : exec i s = act ok f s) (hr : s.inReset = false) (ho : ok = true) (hP : P (f s)) : completes i s P := by
  have e : exec i s = .next (finish s (f s)) := hx.trans (act_live hr ho)
  exact ⟨f s, e, hP, fun h0 h => by rw [e, finish_calm _ _ h0 h]⟩

theorem reaches_live {s : State} {by_ : Agent} {off : Nat} (h : s.reaches by_ off = true) : s.inReset = false := by
  simp only [reaches, Bool.and_eq_true, Bool.not_eq_true'] at h; exact h.1.1

theorem reaches_mayIssue {s : State} {by_ : Agent} {off : Nat} (h : s.reaches by_ off = true) : s.mayIssue by_ = true := by
  simp only [reaches, Bool.and_eq_true, Bool.not_eq_true'] at h; exact h.1.2

/-- A write that reaches its block does what it does there, after the session's idle time has begun again. -/
theorem accept_of_reaches {s : State} {by_ : Agent} {off : Nat} {f : State → State} (h : s.reaches by_ off = true) :
    s.accept by_ off f = f (s.touch by_) := by
  unfold reaches at h
  unfold accept
  cases by_ with
  | host fn =>
    simp only [Bool.and_eq_true, Bool.or_eq_true] at h
    obtain ⟨_, h1, h2⟩ := h
    have t1 : (s.touch (.host fn)).ready 15 = s.ready 15 := by unfold touch; split <;> rfl
    have t2 : (s.touch (.host fn)).permits ((s.touch (.host fn)).roleOf (.host fn)) 1 (off / 8) 1
        = s.permits (s.roleOf (.host fn)) 1 (off / 8) 1 := by
      unfold touch
      split
      · unfold permits
        have : ∀ n e k u role, ({ s with sec := { s.sec with lastPf0 := s.now } } : State).rightsFrom k u role n e
            = s.rightsFrom k u role n e := by
          intro n
          induction n with
          | zero => intros; rfl
          | succ n ih => intro e k u role; unfold rightsFrom; rw [ih]; rfl
        rw [this]; rfl
      · rfl
    dsimp only
    rw [t1, t2, h2]
    rcases h1 with h1 | h1
    · rw [h1]; rfl
    · rw [h1]; simp
  | keeper c => simp [touch]
  | loader => simp [touch]

/-- Only the session's idle time differs after `touch`. -/
theorem touch_regs (s : State) (by_ : Agent) : (s.touch by_).regs = s.regs := by unfold touch; split <;> rfl

theorem touch_eq (s : State) (by_ : Agent) : ∃ n, s.touch by_ = { s with sec := { s.sec with lastPf0 := n } } := by
  unfold touch
  split
  · exact ⟨_, rfl⟩
  · exact ⟨s.sec.lastPf0, rfl⟩

end Sys2Proof.Machine.State
end

