-- ==== Sys2Proof/Laws/Fields.lean ====
section
/-! SUPPORT. What each shared operation leaves as it was, one lemma per field: generated from what Laws/Raise and Laws/Witness
say each operation can change. -/
namespace Sys2Proof.Machine.State

@[simp] theorem sliceOf_lt (p : Nat) : sliceOf p < 32 := by unfold sliceOf; split <;> omega


/-! ## raise -/

@[simp] theorem raise_pending (s : State) (n p : Nat) : (s.raise n p).pending = s.pending := by
  obtain ⟨_, _, _, _, _, _, _, _, _, _, _, _, h⟩ := raise_fields s n p; rw [h]
@[simp] theorem raise_pins (s : State) (n p : Nat) : (s.raise n p).pins = s.pins := by
  obtain ⟨_, _, _, _, _, _, _, _, _, _, _, _, h⟩ := raise_fields s n p; rw [h]
@[simp] theorem raise_unit (s : State) (n p : Nat) : (s.raise n p).unit = s.unit := by
  obtain ⟨_, _, _, _, _, _, _, _, _, _, _, _, h⟩ := raise_fields s n p; rw [h]
@[simp] theorem raise_out (s : State) (n p : Nat) : (s.raise n p).out = s.out := by
  obtain ⟨_, _, _, _, _, _, _, _, _, _, _, _, h⟩ := raise_fields s n p; rw [h]
@[simp] theorem raise_free (s : State) (n p : Nat) : (s.raise n p).free = s.free := by
  obtain ⟨_, _, _, _, _, _, _, _, _, _, _, _, h⟩ := raise_fields s n p; rw [h]
@[simp] theorem raise_time (s : State) (n p : Nat) : (s.raise n p).time = s.time := by
  obtain ⟨_, _, _, _, _, _, _, _, _, _, _, _, h⟩ := raise_fields s n p; rw [h]
@[simp] theorem raise_stg (s : State) (n p : Nat) : (s.raise n p).stg = s.stg := by
  obtain ⟨_, _, _, _, _, _, _, _, _, _, _, _, h⟩ := raise_fields s n p; rw [h]
@[simp] theorem raise_tim (s : State) (n p : Nat) : (s.raise n p).tim = s.tim := by
  obtain ⟨_, _, _, _, _, _, _, _, _, _, _, _, h⟩ := raise_fields s n p; rw [h]
@[simp] theorem raise_ports (s : State) (n p : Nat) : (s.raise n p).ports = s.ports := by
  obtain ⟨_, _, _, _, _, _, _, _, _, _, _, _, h⟩ := raise_fields s n p; rw [h]
@[simp] theorem raise_nextPkt (s : State) (n p : Nat) : (s.raise n p).nextPkt = s.nextPkt := by
  obtain ⟨_, _, _, _, _, _, _, _, _, _, _, _, h⟩ := raise_fields s n p; rw [h]
@[simp] theorem raise_nextRel (s : State) (n p : Nat) : (s.raise n p).nextRel = s.nextRel := by
  obtain ⟨_, _, _, _, _, _, _, _, _, _, _, _, h⟩ := raise_fields s n p; rw [h]
@[simp] theorem raise_pkts (s : State) (n p : Nat) : (s.raise n p).pkts = s.pkts := by
  obtain ⟨_, _, _, _, _, _, _, _, _, _, _, _, h⟩ := raise_fields s n p; rw [h]
@[simp] theorem raise_prs (s : State) (n p : Nat) : (s.raise n p).prs = s.prs := by
  obtain ⟨_, _, _, _, _, _, _, _, _, _, _, _, h⟩ := raise_fields s n p; rw [h]
@[simp] theorem raise_tab (s : State) (n p : Nat) : (s.raise n p).tab = s.tab := by
  obtain ⟨_, _, _, _, _, _, _, _, _, _, _, _, h⟩ := raise_fields s n p; rw [h]
@[simp] theorem raise_scp (s : State) (n p : Nat) : (s.raise n p).scp = s.scp := by
  obtain ⟨_, _, _, _, _, _, _, _, _, _, _, _, h⟩ := raise_fields s n p; rw [h]
@[simp] theorem raise_que (s : State) (n p : Nat) : (s.raise n p).que = s.que := by
  obtain ⟨_, _, _, _, _, _, _, _, _, _, _, _, h⟩ := raise_fields s n p; rw [h]
@[simp] theorem raise_mtr (s : State) (n p : Nat) : (s.raise n p).mtr = s.mtr := by
  obtain ⟨_, _, _, _, _, _, _, _, _, _, _, _, h⟩ := raise_fields s n p; rw [h]
@[simp] theorem raise_egr (s : State) (n p : Nat) : (s.raise n p).egr = s.egr := by
  obtain ⟨_, _, _, _, _, _, _, _, _, _, _, _, h⟩ := raise_fields s n p; rw [h]
@[simp] theorem raise_ver (s : State) (n p : Nat) : (s.raise n p).ver = s.ver := by
  obtain ⟨_, _, _, _, _, _, _, _, _, _, _, _, h⟩ := raise_fields s n p; rw [h]
@[simp] theorem raise_tow (s : State) (n p : Nat) : (s.raise n p).tow = s.tow := by
  obtain ⟨_, _, _, _, _, _, _, _, _, _, _, _, h⟩ := raise_fields s n p; rw [h]
@[simp] theorem raise_wit (s : State) (n p : Nat) : (s.raise n p).wit = s.wit := by
  obtain ⟨_, _, _, _, _, _, _, _, _, _, _, _, h⟩ := raise_fields s n p; rw [h]
@[simp] theorem raise_sec (s : State) (n p : Nat) : (s.raise n p).sec = s.sec := by
  obtain ⟨_, _, _, _, _, _, _, _, _, _, _, _, h⟩ := raise_fields s n p; rw [h]
@[simp] theorem raise_boot (s : State) (n p : Nat) : (s.raise n p).boot = s.boot := by
  obtain ⟨_, _, _, _, _, _, _, _, _, _, _, _, h⟩ := raise_fields s n p; rw [h]
@[simp] theorem raise_cnd (s : State) (n p : Nat) : (s.raise n p).cnd = s.cnd := by
  obtain ⟨_, _, _, _, _, _, _, _, _, _, _, _, h⟩ := raise_fields s n p; rw [h]
@[simp] theorem raise_hbm (s : State) (n p : Nat) : (s.raise n p).hbm = s.hbm := by
  obtain ⟨_, _, _, _, _, _, _, _, _, _, _, _, h⟩ := raise_fields s n p; rw [h]
@[simp] theorem raise_hif_fns (s : State) (n p : Nat) : (s.raise n p).hif.fns = s.hif.fns := by
  obtain ⟨_, _, _, _, _, _, _, _, _, _, _, _, h'⟩ := raise_fields s n p; rw [h']
@[simp] theorem raise_hif_chans (s : State) (n p : Nat) : (s.raise n p).hif.chans = s.hif.chans := by
  obtain ⟨_, _, _, _, _, _, _, _, _, _, _, _, h'⟩ := raise_fields s n p; rw [h']
@[simp] theorem raise_hif_keeperMem (s : State) (n p : Nat) : (s.raise n p).hif.keeperMem = s.hif.keeperMem := by
  obtain ⟨_, _, _, _, _, _, _, _, _, _, _, _, h'⟩ := raise_fields s n p; rw [h']
@[simp] theorem raise_hif_pushNext (s : State) (n p : Nat) : (s.raise n p).hif.pushNext = s.hif.pushNext := by
  obtain ⟨_, _, _, _, _, _, _, _, _, _, _, _, h'⟩ := raise_fields s n p; rw [h']
@[simp] theorem raise_hif_l12 (s : State) (n p : Nat) : (s.raise n p).hif.l12 = s.hif.l12 := by
  obtain ⟨_, _, _, _, _, _, _, _, _, _, _, _, h'⟩ := raise_fields s n p; rw [h']
@[simp] theorem raise_pmc_next (s : State) (n p : Nat) : (s.raise n p).pmc.next = s.pmc.next := by
  obtain ⟨_, _, _, _, _, _, _, _, _, _, _, _, h'⟩ := raise_fields s n p; rw [h']
@[simp] theorem raise_pmc_seq (s : State) (n p : Nat) : (s.raise n p).pmc.seq = s.pmc.seq := by
  obtain ⟨_, _, _, _, _, _, _, _, _, _, _, _, h'⟩ := raise_fields s n p; rw [h']
@[simp] theorem raise_pmc_skipped (s : State) (n p : Nat) : (s.raise n p).pmc.skipped = s.pmc.skipped := by
  obtain ⟨_, _, _, _, _, _, _, _, _, _, _, _, h'⟩ := raise_fields s n p; rw [h']
@[simp] theorem raise_pmc_posted (s : State) (n p : Nat) : (s.raise n p).pmc.posted = s.pmc.posted := by
  obtain ⟨_, _, _, _, _, _, _, _, _, _, _, _, h'⟩ := raise_fields s n p; rw [h']
@[simp] theorem raise_pmc_running (s : State) (n p : Nat) : (s.raise n p).pmc.running = s.pmc.running := by
  obtain ⟨_, _, _, _, _, _, _, _, _, _, _, _, h'⟩ := raise_fields s n p; rw [h']
@[simp] theorem raise_pmc_spans (s : State) (n p : Nat) : (s.raise n p).pmc.spans = s.pmc.spans := by
  obtain ⟨_, _, _, _, _, _, _, _, _, _, _, _, h'⟩ := raise_fields s n p; rw [h']
@[simp] theorem raise_flt_testUntil (s : State) (n p : Nat) : (s.raise n p).flt.testUntil = s.flt.testUntil := by
  obtain ⟨_, _, _, _, _, _, _, _, _, _, _, _, h'⟩ := raise_fields s n p; rw [h']
@[simp] theorem raise_flt_ferry (s : State) (n p : Nat) : (s.raise n p).flt.ferry = s.flt.ferry := by
  obtain ⟨_, _, _, _, _, _, _, _, _, _, _, _, h'⟩ := raise_fields s n p; rw [h']

/-! ## raiseAt -/

@[simp] theorem raiseAt_pending (s : State) (n p : Nat) (t : Stamp) : (s.raiseAt n p t).pending = s.pending := by
  obtain ⟨_, _, _, _, _, _, _, _, _, _, _, _, h⟩ := raiseAt_fields s n p t; rw [h]
@[simp] theorem raiseAt_pins (s : State) (n p : Nat) (t : Stamp) : (s.raiseAt n p t).pins = s.pins := by
  obtain ⟨_, _, _, _, _, _, _, _, _, _, _, _, h⟩ := raiseAt_fields s n p t; rw [h]
@[simp] theorem raiseAt_unit (s : State) (n p : Nat) (t : Stamp) : (s.raiseAt n p t).unit = s.unit := by
  obtain ⟨_, _, _, _, _, _, _, _, _, _, _, _, h⟩ := raiseAt_fields s n p t; rw [h]
@[simp] theorem raiseAt_out (s : State) (n p : Nat) (t : Stamp) : (s.raiseAt n p t).out = s.out := by
  obtain ⟨_, _, _, _, _, _, _, _, _, _, _, _, h⟩ := raiseAt_fields s n p t; rw [h]
@[simp] theorem raiseAt_free (s : State) (n p : Nat) (t : Stamp) : (s.raiseAt n p t).free = s.free := by
  obtain ⟨_, _, _, _, _, _, _, _, _, _, _, _, h⟩ := raiseAt_fields s n p t; rw [h]
@[simp] theorem raiseAt_time (s : State) (n p : Nat) (t : Stamp) : (s.raiseAt n p t).time = s.time := by
  obtain ⟨_, _, _, _, _, _, _, _, _, _, _, _, h⟩ := raiseAt_fields s n p t; rw [h]
@[simp] theorem raiseAt_stg (s : State) (n p : Nat) (t : Stamp) : (s.raiseAt n p t).stg = s.stg := by
  obtain ⟨_, _, _, _, _, _, _, _, _, _, _, _, h⟩ := raiseAt_fields s n p t; rw [h]
@[simp] theorem raiseAt_tim (s : State) (n p : Nat) (t : Stamp) : (s.raiseAt n p t).tim = s.tim := by
  obtain ⟨_, _, _, _, _, _, _, _, _, _, _, _, h⟩ := raiseAt_fields s n p t; rw [h]
@[simp] theorem raiseAt_ports (s : State) (n p : Nat) (t : Stamp) : (s.raiseAt n p t).ports = s.ports := by
  obtain ⟨_, _, _, _, _, _, _, _, _, _, _, _, h⟩ := raiseAt_fields s n p t; rw [h]
@[simp] theorem raiseAt_nextPkt (s : State) (n p : Nat) (t : Stamp) : (s.raiseAt n p t).nextPkt = s.nextPkt := by
  obtain ⟨_, _, _, _, _, _, _, _, _, _, _, _, h⟩ := raiseAt_fields s n p t; rw [h]
@[simp] theorem raiseAt_nextRel (s : State) (n p : Nat) (t : Stamp) : (s.raiseAt n p t).nextRel = s.nextRel := by
  obtain ⟨_, _, _, _, _, _, _, _, _, _, _, _, h⟩ := raiseAt_fields s n p t; rw [h]
@[simp] theorem raiseAt_pkts (s : State) (n p : Nat) (t : Stamp) : (s.raiseAt n p t).pkts = s.pkts := by
  obtain ⟨_, _, _, _, _, _, _, _, _, _, _, _, h⟩ := raiseAt_fields s n p t; rw [h]
@[simp] theorem raiseAt_prs (s : State) (n p : Nat) (t : Stamp) : (s.raiseAt n p t).prs = s.prs := by
  obtain ⟨_, _, _, _, _, _, _, _, _, _, _, _, h⟩ := raiseAt_fields s n p t; rw [h]
@[simp] theorem raiseAt_tab (s : State) (n p : Nat) (t : Stamp) : (s.raiseAt n p t).tab = s.tab := by
  obtain ⟨_, _, _, _, _, _, _, _, _, _, _, _, h⟩ := raiseAt_fields s n p t; rw [h]
@[simp] theorem raiseAt_scp (s : State) (n p : Nat) (t : Stamp) : (s.raiseAt n p t).scp = s.scp := by
  obtain ⟨_, _, _, _, _, _, _, _, _, _, _, _, h⟩ := raiseAt_fields s n p t; rw [h]
@[simp] theorem raiseAt_que (s : State) (n p : Nat) (t : Stamp) : (s.raiseAt n p t).que = s.que := by
  obtain ⟨_, _, _, _, _, _, _, _, _, _, _, _, h⟩ := raiseAt_fields s n p t; rw [h]
@[simp] theorem raiseAt_mtr (s : State) (n p : Nat) (t : Stamp) : (s.raiseAt n p t).mtr = s.mtr := by
  obtain ⟨_, _, _, _, _, _, _, _, _, _, _, _, h⟩ := raiseAt_fields s n p t; rw [h]
@[simp] theorem raiseAt_egr (s : State) (n p : Nat) (t : Stamp) : (s.raiseAt n p t).egr = s.egr := by
  obtain ⟨_, _, _, _, _, _, _, _, _, _, _, _, h⟩ := raiseAt_fields s n p t; rw [h]
@[simp] theorem raiseAt_ver (s : State) (n p : Nat) (t : Stamp) : (s.raiseAt n p t).ver = s.ver := by
  obtain ⟨_, _, _, _, _, _, _, _, _, _, _, _, h⟩ := raiseAt_fields s n p t; rw [h]
@[simp] theorem raiseAt_tow (s : State) (n p : Nat) (t : Stamp) : (s.raiseAt n p t).tow = s.tow := by
  obtain ⟨_, _, _, _, _, _, _, _, _, _, _, _, h⟩ := raiseAt_fields s n p t; rw [h]
@[simp] theorem raiseAt_wit (s : State) (n p : Nat) (t : Stamp) : (s.raiseAt n p t).wit = s.wit := by
  obtain ⟨_, _, _, _, _, _, _, _, _, _, _, _, h⟩ := raiseAt_fields s n p t; rw [h]
@[simp] theorem raiseAt_sec (s : State) (n p : Nat) (t : Stamp) : (s.raiseAt n p t).sec = s.sec := by
  obtain ⟨_, _, _, _, _, _, _, _, _, _, _, _, h⟩ := raiseAt_fields s n p t; rw [h]
@[simp] theorem raiseAt_boot (s : State) (n p : Nat) (t : Stamp) : (s.raiseAt n p t).boot = s.boot := by
  obtain ⟨_, _, _, _, _, _, _, _, _, _, _, _, h⟩ := raiseAt_fields s n p t; rw [h]
@[simp] theorem raiseAt_cnd (s : State) (n p : Nat) (t : Stamp) : (s.raiseAt n p t).cnd = s.cnd := by
  obtain ⟨_, _, _, _, _, _, _, _, _, _, _, _, h⟩ := raiseAt_fields s n p t; rw [h]
@[simp] theorem raiseAt_hbm (s : State) (n p : Nat) (t : Stamp) : (s.raiseAt n p t).hbm = s.hbm := by
  obtain ⟨_, _, _, _, _, _, _, _, _, _, _, _, h⟩ := raiseAt_fields s n p t; rw [h]
@[simp] theorem raiseAt_hif_fns (s : State) (n p : Nat) (t : Stamp) : (s.raiseAt n p t).hif.fns = s.hif.fns := by
  obtain ⟨_, _, _, _, _, _, _, _, _, _, _, _, h'⟩ := raiseAt_fields s n p t; rw [h']
@[simp] theorem raiseAt_hif_chans (s : State) (n p : Nat) (t : Stamp) : (s.raiseAt n p t).hif.chans = s.hif.chans := by
  obtain ⟨_, _, _, _, _, _, _, _, _, _, _, _, h'⟩ := raiseAt_fields s n p t; rw [h']
@[simp] theorem raiseAt_hif_keeperMem (s : State) (n p : Nat) (t : Stamp) : (s.raiseAt n p t).hif.keeperMem = s.hif.keeperMem := by
  obtain ⟨_, _, _, _, _, _, _, _, _, _, _, _, h'⟩ := raiseAt_fields s n p t; rw [h']
@[simp] theorem raiseAt_hif_pushNext (s : State) (n p : Nat) (t : Stamp) : (s.raiseAt n p t).hif.pushNext = s.hif.pushNext := by
  obtain ⟨_, _, _, _, _, _, _, _, _, _, _, _, h'⟩ := raiseAt_fields s n p t; rw [h']
@[simp] theorem raiseAt_hif_l12 (s : State) (n p : Nat) (t : Stamp) : (s.raiseAt n p t).hif.l12 = s.hif.l12 := by
  obtain ⟨_, _, _, _, _, _, _, _, _, _, _, _, h'⟩ := raiseAt_fields s n p t; rw [h']
@[simp] theorem raiseAt_pmc_next (s : State) (n p : Nat) (t : Stamp) : (s.raiseAt n p t).pmc.next = s.pmc.next := by
  obtain ⟨_, _, _, _, _, _, _, _, _, _, _, _, h'⟩ := raiseAt_fields s n p t; rw [h']
@[simp] theorem raiseAt_pmc_seq (s : State) (n p : Nat) (t : Stamp) : (s.raiseAt n p t).pmc.seq = s.pmc.seq := by
  obtain ⟨_, _, _, _, _, _, _, _, _, _, _, _, h'⟩ := raiseAt_fields s n p t; rw [h']
@[simp] theorem raiseAt_pmc_skipped (s : State) (n p : Nat) (t : Stamp) : (s.raiseAt n p t).pmc.skipped = s.pmc.skipped := by
  obtain ⟨_, _, _, _, _, _, _, _, _, _, _, _, h'⟩ := raiseAt_fields s n p t; rw [h']
@[simp] theorem raiseAt_pmc_posted (s : State) (n p : Nat) (t : Stamp) : (s.raiseAt n p t).pmc.posted = s.pmc.posted := by
  obtain ⟨_, _, _, _, _, _, _, _, _, _, _, _, h'⟩ := raiseAt_fields s n p t; rw [h']
@[simp] theorem raiseAt_pmc_running (s : State) (n p : Nat) (t : Stamp) : (s.raiseAt n p t).pmc.running = s.pmc.running := by
  obtain ⟨_, _, _, _, _, _, _, _, _, _, _, _, h'⟩ := raiseAt_fields s n p t; rw [h']
@[simp] theorem raiseAt_pmc_spans (s : State) (n p : Nat) (t : Stamp) : (s.raiseAt n p t).pmc.spans = s.pmc.spans := by
  obtain ⟨_, _, _, _, _, _, _, _, _, _, _, _, h'⟩ := raiseAt_fields s n p t; rw [h']
@[simp] theorem raiseAt_flt_testUntil (s : State) (n p : Nat) (t : Stamp) : (s.raiseAt n p t).flt.testUntil = s.flt.testUntil := by
  obtain ⟨_, _, _, _, _, _, _, _, _, _, _, _, h'⟩ := raiseAt_fields s n p t; rw [h']
@[simp] theorem raiseAt_flt_ferry (s : State) (n p : Nat) (t : Stamp) : (s.raiseAt n p t).flt.ferry = s.flt.ferry := by
  obtain ⟨_, _, _, _, _, _, _, _, _, _, _, _, h'⟩ := raiseAt_fields s n p t; rw [h']

/-! ## startNs -/

@[simp] theorem startNs_pending (s : State) (n : Nat) : (s.startNs n).pending = s.pending := by
  obtain ⟨⟨_, _, _, _, _, _, _, _, _, _, _, _, _, _, _, h'⟩, _⟩ := logged_startNs s n; rw [h']
@[simp] theorem startNs_pins (s : State) (n : Nat) : (s.startNs n).pins = s.pins := by
  obtain ⟨⟨_, _, _, _, _, _, _, _, _, _, _, _, _, _, _, h'⟩, _⟩ := logged_startNs s n; rw [h']
@[simp] theorem startNs_unit (s : State) (n : Nat) : (s.startNs n).unit = s.unit := by
  obtain ⟨⟨_, _, _, _, _, _, _, _, _, _, _, _, _, _, _, h'⟩, _⟩ := logged_startNs s n; rw [h']
@[simp] theorem startNs_out (s : State) (n : Nat) : (s.startNs n).out = s.out := by
  obtain ⟨⟨_, _, _, _, _, _, _, _, _, _, _, _, _, _, _, h'⟩, _⟩ := logged_startNs s n; rw [h']
@[simp] theorem startNs_free (s : State) (n : Nat) : (s.startNs n).free = s.free := by
  obtain ⟨⟨_, _, _, _, _, _, _, _, _, _, _, _, _, _, _, h'⟩, _⟩ := logged_startNs s n; rw [h']
@[simp] theorem startNs_time (s : State) (n : Nat) : (s.startNs n).time = s.time := by
  obtain ⟨⟨_, _, _, _, _, _, _, _, _, _, _, _, _, _, _, h'⟩, _⟩ := logged_startNs s n; rw [h']
@[simp] theorem startNs_stg (s : State) (n : Nat) : (s.startNs n).stg = s.stg := by
  obtain ⟨⟨_, _, _, _, _, _, _, _, _, _, _, _, _, _, _, h'⟩, _⟩ := logged_startNs s n; rw [h']
@[simp] theorem startNs_tim (s : State) (n : Nat) : (s.startNs n).tim = s.tim := by
  obtain ⟨⟨_, _, _, _, _, _, _, _, _, _, _, _, _, _, _, h'⟩, _⟩ := logged_startNs s n; rw [h']
@[simp] theorem startNs_ports (s : State) (n : Nat) : (s.startNs n).ports = s.ports := by
  obtain ⟨⟨_, _, _, _, _, _, _, _, _, _, _, _, _, _, _, h'⟩, _⟩ := logged_startNs s n; rw [h']
@[simp] theorem startNs_nextPkt (s : State) (n : Nat) : (s.startNs n).nextPkt = s.nextPkt := by
  obtain ⟨⟨_, _, _, _, _, _, _, _, _, _, _, _, _, _, _, h'⟩, _⟩ := logged_startNs s n; rw [h']
@[simp] theorem startNs_nextRel (s : State) (n : Nat) : (s.startNs n).nextRel = s.nextRel := by
  obtain ⟨⟨_, _, _, _, _, _, _, _, _, _, _, _, _, _, _, h'⟩, _⟩ := logged_startNs s n; rw [h']
@[simp] theorem startNs_pkts (s : State) (n : Nat) : (s.startNs n).pkts = s.pkts := by
  obtain ⟨⟨_, _, _, _, _, _, _, _, _, _, _, _, _, _, _, h'⟩, _⟩ := logged_startNs s n; rw [h']
@[simp] theorem startNs_prs (s : State) (n : Nat) : (s.startNs n).prs = s.prs := by
  obtain ⟨⟨_, _, _, _, _, _, _, _, _, _, _, _, _, _, _, h'⟩, _⟩ := logged_startNs s n; rw [h']
@[simp] theorem startNs_tab (s : State) (n : Nat) : (s.startNs n).tab = s.tab := by
  obtain ⟨⟨_, _, _, _, _, _, _, _, _, _, _, _, _, _, _, h'⟩, _⟩ := logged_startNs s n; rw [h']
@[simp] theorem startNs_scp (s : State) (n : Nat) : (s.startNs n).scp = s.scp := by
  obtain ⟨⟨_, _, _, _, _, _, _, _, _, _, _, _, _, _, _, h'⟩, _⟩ := logged_startNs s n; rw [h']
@[simp] theorem startNs_que (s : State) (n : Nat) : (s.startNs n).que = s.que := by
  obtain ⟨⟨_, _, _, _, _, _, _, _, _, _, _, _, _, _, _, h'⟩, _⟩ := logged_startNs s n; rw [h']
@[simp] theorem startNs_mtr (s : State) (n : Nat) : (s.startNs n).mtr = s.mtr := by
  obtain ⟨⟨_, _, _, _, _, _, _, _, _, _, _, _, _, _, _, h'⟩, _⟩ := logged_startNs s n; rw [h']
@[simp] theorem startNs_egr (s : State) (n : Nat) : (s.startNs n).egr = s.egr := by
  obtain ⟨⟨_, _, _, _, _, _, _, _, _, _, _, _, _, _, _, h'⟩, _⟩ := logged_startNs s n; rw [h']
@[simp] theorem startNs_ver (s : State) (n : Nat) : (s.startNs n).ver = s.ver := by
  obtain ⟨⟨_, _, _, _, _, _, _, _, _, _, _, _, _, _, _, h'⟩, _⟩ := logged_startNs s n; rw [h']
@[simp] theorem startNs_tow (s : State) (n : Nat) : (s.startNs n).tow = s.tow := by
  obtain ⟨⟨_, _, _, _, _, _, _, _, _, _, _, _, _, _, _, h'⟩, _⟩ := logged_startNs s n; rw [h']
@[simp] theorem startNs_sec (s : State) (n : Nat) : (s.startNs n).sec = s.sec := by
  obtain ⟨⟨_, _, _, _, _, _, _, _, _, _, _, _, _, _, _, h'⟩, _⟩ := logged_startNs s n; rw [h']
@[simp] theorem startNs_boot (s : State) (n : Nat) : (s.startNs n).boot = s.boot := by
  obtain ⟨⟨_, _, _, _, _, _, _, _, _, _, _, _, _, _, _, h'⟩, _⟩ := logged_startNs s n; rw [h']
@[simp] theorem startNs_cnd (s : State) (n : Nat) : (s.startNs n).cnd = s.cnd := by
  obtain ⟨⟨_, _, _, _, _, _, _, _, _, _, _, _, _, _, _, h'⟩, _⟩ := logged_startNs s n; rw [h']
@[simp] theorem startNs_hbm (s : State) (n : Nat) : (s.startNs n).hbm = s.hbm := by
  obtain ⟨⟨_, _, _, _, _, _, _, _, _, _, _, _, _, _, _, h'⟩, _⟩ := logged_startNs s n; rw [h']
@[simp] theorem startNs_hif_fns (s : State) (n : Nat) : (s.startNs n).hif.fns = s.hif.fns := by
  obtain ⟨⟨_, _, _, _, _, _, _, _, _, _, _, _, _, _, _, h'⟩, _⟩ := logged_startNs s n; rw [h']
@[simp] theorem startNs_hif_chans (s : State) (n : Nat) : (s.startNs n).hif.chans = s.hif.chans := by
  obtain ⟨⟨_, _, _, _, _, _, _, _, _, _, _, _, _, _, _, h'⟩, _⟩ := logged_startNs s n; rw [h']
@[simp] theorem startNs_hif_keeperMem (s : State) (n : Nat) : (s.startNs n).hif.keeperMem = s.hif.keeperMem := by
  obtain ⟨⟨_, _, _, _, _, _, _, _, _, _, _, _, _, _, _, h'⟩, _⟩ := logged_startNs s n; rw [h']
@[simp] theorem startNs_hif_pushNext (s : State) (n : Nat) : (s.startNs n).hif.pushNext = s.hif.pushNext := by
  obtain ⟨⟨_, _, _, _, _, _, _, _, _, _, _, _, _, _, _, h'⟩, _⟩ := logged_startNs s n; rw [h']
@[simp] theorem startNs_hif_l12 (s : State) (n : Nat) : (s.startNs n).hif.l12 = s.hif.l12 := by
  obtain ⟨⟨_, _, _, _, _, _, _, _, _, _, _, _, _, _, _, h'⟩, _⟩ := logged_startNs s n; rw [h']
@[simp] theorem startNs_pmc_next (s : State) (n : Nat) : (s.startNs n).pmc.next = s.pmc.next := by
  obtain ⟨⟨_, _, _, _, _, _, _, _, _, _, _, _, _, _, _, h'⟩, _⟩ := logged_startNs s n; rw [h']
@[simp] theorem startNs_pmc_seq (s : State) (n : Nat) : (s.startNs n).pmc.seq = s.pmc.seq := by
  obtain ⟨⟨_, _, _, _, _, _, _, _, _, _, _, _, _, _, _, h'⟩, _⟩ := logged_startNs s n; rw [h']
@[simp] theorem startNs_pmc_skipped (s : State) (n : Nat) : (s.startNs n).pmc.skipped = s.pmc.skipped := by
  obtain ⟨⟨_, _, _, _, _, _, _, _, _, _, _, _, _, _, _, h'⟩, _⟩ := logged_startNs s n; rw [h']
@[simp] theorem startNs_pmc_posted (s : State) (n : Nat) : (s.startNs n).pmc.posted = s.pmc.posted := by
  obtain ⟨⟨_, _, _, _, _, _, _, _, _, _, _, _, _, _, _, h'⟩, _⟩ := logged_startNs s n; rw [h']
@[simp] theorem startNs_flt_testUntil (s : State) (n : Nat) : (s.startNs n).flt.testUntil = s.flt.testUntil := by
  obtain ⟨⟨_, _, _, _, _, _, _, _, _, _, _, _, _, _, _, h'⟩, _⟩ := logged_startNs s n; rw [h']
@[simp] theorem startNs_flt_ferry (s : State) (n : Nat) : (s.startNs n).flt.ferry = s.flt.ferry := by
  obtain ⟨⟨_, _, _, _, _, _, _, _, _, _, _, _, _, _, _, h'⟩, _⟩ := logged_startNs s n; rw [h']

/-! ## stopNs -/

@[simp] theorem stopNs_pending (s : State) (n : Nat) : (s.stopNs n).pending = s.pending := by
  obtain ⟨⟨_, _, _, _, _, _, _, _, _, _, _, _, _, _, _, h'⟩, _⟩ := logged_stopNs s n; rw [h']
@[simp] theorem stopNs_pins (s : State) (n : Nat) : (s.stopNs n).pins = s.pins := by
  obtain ⟨⟨_, _, _, _, _, _, _, _, _, _, _, _, _, _, _, h'⟩, _⟩ := logged_stopNs s n; rw [h']
@[simp] theorem stopNs_unit (s : State) (n : Nat) : (s.stopNs n).unit = s.unit := by
  obtain ⟨⟨_, _, _, _, _, _, _, _, _, _, _, _, _, _, _, h'⟩, _⟩ := logged_stopNs s n; rw [h']
@[simp] theorem stopNs_out (s : State) (n : Nat) : (s.stopNs n).out = s.out := by
  obtain ⟨⟨_, _, _, _, _, _, _, _, _, _, _, _, _, _, _, h'⟩, _⟩ := logged_stopNs s n; rw [h']
@[simp] theorem stopNs_free (s : State) (n : Nat) : (s.stopNs n).free = s.free := by
  obtain ⟨⟨_, _, _, _, _, _, _, _, _, _, _, _, _, _, _, h'⟩, _⟩ := logged_stopNs s n; rw [h']
@[simp] theorem stopNs_time (s : State) (n : Nat) : (s.stopNs n).time = s.time := by
  obtain ⟨⟨_, _, _, _, _, _, _, _, _, _, _, _, _, _, _, h'⟩, _⟩ := logged_stopNs s n; rw [h']
@[simp] theorem stopNs_stg (s : State) (n : Nat) : (s.stopNs n).stg = s.stg := by
  obtain ⟨⟨_, _, _, _, _, _, _, _, _, _, _, _, _, _, _, h'⟩, _⟩ := logged_stopNs s n; rw [h']
@[simp] theorem stopNs_tim (s : State) (n : Nat) : (s.stopNs n).tim = s.tim := by
  obtain ⟨⟨_, _, _, _, _, _, _, _, _, _, _, _, _, _, _, h'⟩, _⟩ := logged_stopNs s n; rw [h']
@[simp] theorem stopNs_ports (s : State) (n : Nat) : (s.stopNs n).ports = s.ports := by
  obtain ⟨⟨_, _, _, _, _, _, _, _, _, _, _, _, _, _, _, h'⟩, _⟩ := logged_stopNs s n; rw [h']
@[simp] theorem stopNs_nextPkt (s : State) (n : Nat) : (s.stopNs n).nextPkt = s.nextPkt := by
  obtain ⟨⟨_, _, _, _, _, _, _, _, _, _, _, _, _, _, _, h'⟩, _⟩ := logged_stopNs s n; rw [h']
@[simp] theorem stopNs_nextRel (s : State) (n : Nat) : (s.stopNs n).nextRel = s.nextRel := by
  obtain ⟨⟨_, _, _, _, _, _, _, _, _, _, _, _, _, _, _, h'⟩, _⟩ := logged_stopNs s n; rw [h']
@[simp] theorem stopNs_pkts (s : State) (n : Nat) : (s.stopNs n).pkts = s.pkts := by
  obtain ⟨⟨_, _, _, _, _, _, _, _, _, _, _, _, _, _, _, h'⟩, _⟩ := logged_stopNs s n; rw [h']
@[simp] theorem stopNs_prs (s : State) (n : Nat) : (s.stopNs n).prs = s.prs := by
  obtain ⟨⟨_, _, _, _, _, _, _, _, _, _, _, _, _, _, _, h'⟩, _⟩ := logged_stopNs s n; rw [h']
@[simp] theorem stopNs_tab (s : State) (n : Nat) : (s.stopNs n).tab = s.tab := by
  obtain ⟨⟨_, _, _, _, _, _, _, _, _, _, _, _, _, _, _, h'⟩, _⟩ := logged_stopNs s n; rw [h']
@[simp] theorem stopNs_scp (s : State) (n : Nat) : (s.stopNs n).scp = s.scp := by
  obtain ⟨⟨_, _, _, _, _, _, _, _, _, _, _, _, _, _, _, h'⟩, _⟩ := logged_stopNs s n; rw [h']
@[simp] theorem stopNs_que (s : State) (n : Nat) : (s.stopNs n).que = s.que := by
  obtain ⟨⟨_, _, _, _, _, _, _, _, _, _, _, _, _, _, _, h'⟩, _⟩ := logged_stopNs s n; rw [h']
@[simp] theorem stopNs_mtr (s : State) (n : Nat) : (s.stopNs n).mtr = s.mtr := by
  obtain ⟨⟨_, _, _, _, _, _, _, _, _, _, _, _, _, _, _, h'⟩, _⟩ := logged_stopNs s n; rw [h']
@[simp] theorem stopNs_egr (s : State) (n : Nat) : (s.stopNs n).egr = s.egr := by
  obtain ⟨⟨_, _, _, _, _, _, _, _, _, _, _, _, _, _, _, h'⟩, _⟩ := logged_stopNs s n; rw [h']
@[simp] theorem stopNs_ver (s : State) (n : Nat) : (s.stopNs n).ver = s.ver := by
  obtain ⟨⟨_, _, _, _, _, _, _, _, _, _, _, _, _, _, _, h'⟩, _⟩ := logged_stopNs s n; rw [h']
@[simp] theorem stopNs_tow (s : State) (n : Nat) : (s.stopNs n).tow = s.tow := by
  obtain ⟨⟨_, _, _, _, _, _, _, _, _, _, _, _, _, _, _, h'⟩, _⟩ := logged_stopNs s n; rw [h']
@[simp] theorem stopNs_sec (s : State) (n : Nat) : (s.stopNs n).sec = s.sec := by
  obtain ⟨⟨_, _, _, _, _, _, _, _, _, _, _, _, _, _, _, h'⟩, _⟩ := logged_stopNs s n; rw [h']
@[simp] theorem stopNs_boot (s : State) (n : Nat) : (s.stopNs n).boot = s.boot := by
  obtain ⟨⟨_, _, _, _, _, _, _, _, _, _, _, _, _, _, _, h'⟩, _⟩ := logged_stopNs s n; rw [h']
@[simp] theorem stopNs_cnd (s : State) (n : Nat) : (s.stopNs n).cnd = s.cnd := by
  obtain ⟨⟨_, _, _, _, _, _, _, _, _, _, _, _, _, _, _, h'⟩, _⟩ := logged_stopNs s n; rw [h']
@[simp] theorem stopNs_hbm (s : State) (n : Nat) : (s.stopNs n).hbm = s.hbm := by
  obtain ⟨⟨_, _, _, _, _, _, _, _, _, _, _, _, _, _, _, h'⟩, _⟩ := logged_stopNs s n; rw [h']
@[simp] theorem stopNs_hif_fns (s : State) (n : Nat) : (s.stopNs n).hif.fns = s.hif.fns := by
  obtain ⟨⟨_, _, _, _, _, _, _, _, _, _, _, _, _, _, _, h'⟩, _⟩ := logged_stopNs s n; rw [h']
@[simp] theorem stopNs_hif_chans (s : State) (n : Nat) : (s.stopNs n).hif.chans = s.hif.chans := by
  obtain ⟨⟨_, _, _, _, _, _, _, _, _, _, _, _, _, _, _, h'⟩, _⟩ := logged_stopNs s n; rw [h']
@[simp] theorem stopNs_hif_keeperMem (s : State) (n : Nat) : (s.stopNs n).hif.keeperMem = s.hif.keeperMem := by
  obtain ⟨⟨_, _, _, _, _, _, _, _, _, _, _, _, _, _, _, h'⟩, _⟩ := logged_stopNs s n; rw [h']
@[simp] theorem stopNs_hif_pushNext (s : State) (n : Nat) : (s.stopNs n).hif.pushNext = s.hif.pushNext := by
  obtain ⟨⟨_, _, _, _, _, _, _, _, _, _, _, _, _, _, _, h'⟩, _⟩ := logged_stopNs s n; rw [h']
@[simp] theorem stopNs_hif_l12 (s : State) (n : Nat) : (s.stopNs n).hif.l12 = s.hif.l12 := by
  obtain ⟨⟨_, _, _, _, _, _, _, _, _, _, _, _, _, _, _, h'⟩, _⟩ := logged_stopNs s n; rw [h']
@[simp] theorem stopNs_pmc_next (s : State) (n : Nat) : (s.stopNs n).pmc.next = s.pmc.next := by
  obtain ⟨⟨_, _, _, _, _, _, _, _, _, _, _, _, _, _, _, h'⟩, _⟩ := logged_stopNs s n; rw [h']
@[simp] theorem stopNs_pmc_seq (s : State) (n : Nat) : (s.stopNs n).pmc.seq = s.pmc.seq := by
  obtain ⟨⟨_, _, _, _, _, _, _, _, _, _, _, _, _, _, _, h'⟩, _⟩ := logged_stopNs s n; rw [h']
@[simp] theorem stopNs_pmc_skipped (s : State) (n : Nat) : (s.stopNs n).pmc.skipped = s.pmc.skipped := by
  obtain ⟨⟨_, _, _, _, _, _, _, _, _, _, _, _, _, _, _, h'⟩, _⟩ := logged_stopNs s n; rw [h']
@[simp] theorem stopNs_pmc_posted (s : State) (n : Nat) : (s.stopNs n).pmc.posted = s.pmc.posted := by
  obtain ⟨⟨_, _, _, _, _, _, _, _, _, _, _, _, _, _, _, h'⟩, _⟩ := logged_stopNs s n; rw [h']
@[simp] theorem stopNs_flt_testUntil (s : State) (n : Nat) : (s.stopNs n).flt.testUntil = s.flt.testUntil := by
  obtain ⟨⟨_, _, _, _, _, _, _, _, _, _, _, _, _, _, _, h'⟩, _⟩ := logged_stopNs s n; rw [h']
@[simp] theorem stopNs_flt_ferry (s : State) (n : Nat) : (s.stopNs n).flt.ferry = s.flt.ferry := by
  obtain ⟨⟨_, _, _, _, _, _, _, _, _, _, _, _, _, _, _, h'⟩, _⟩ := logged_stopNs s n; rw [h']

/-! ## syncStaging -/

@[simp] theorem syncStaging_pending (s : State) : (s.syncStaging).pending = s.pending := by
  obtain ⟨⟨_, _, _, _, _, _, _, _, _, _, _, _, _, _, _, h'⟩, _⟩ := logged_syncStaging s; rw [h']
@[simp] theorem syncStaging_pins (s : State) : (s.syncStaging).pins = s.pins := by
  obtain ⟨⟨_, _, _, _, _, _, _, _, _, _, _, _, _, _, _, h'⟩, _⟩ := logged_syncStaging s; rw [h']
@[simp] theorem syncStaging_unit (s : State) : (s.syncStaging).unit = s.unit := by
  obtain ⟨⟨_, _, _, _, _, _, _, _, _, _, _, _, _, _, _, h'⟩, _⟩ := logged_syncStaging s; rw [h']
@[simp] theorem syncStaging_out (s : State) : (s.syncStaging).out = s.out := by
  obtain ⟨⟨_, _, _, _, _, _, _, _, _, _, _, _, _, _, _, h'⟩, _⟩ := logged_syncStaging s; rw [h']
@[simp] theorem syncStaging_free (s : State) : (s.syncStaging).free = s.free := by
  obtain ⟨⟨_, _, _, _, _, _, _, _, _, _, _, _, _, _, _, h'⟩, _⟩ := logged_syncStaging s; rw [h']
@[simp] theorem syncStaging_time (s : State) : (s.syncStaging).time = s.time := by
  obtain ⟨⟨_, _, _, _, _, _, _, _, _, _, _, _, _, _, _, h'⟩, _⟩ := logged_syncStaging s; rw [h']
@[simp] theorem syncStaging_stg (s : State) : (s.syncStaging).stg = s.stg := by
  obtain ⟨⟨_, _, _, _, _, _, _, _, _, _, _, _, _, _, _, h'⟩, _⟩ := logged_syncStaging s; rw [h']
@[simp] theorem syncStaging_tim (s : State) : (s.syncStaging).tim = s.tim := by
  obtain ⟨⟨_, _, _, _, _, _, _, _, _, _, _, _, _, _, _, h'⟩, _⟩ := logged_syncStaging s; rw [h']
@[simp] theorem syncStaging_ports (s : State) : (s.syncStaging).ports = s.ports := by
  obtain ⟨⟨_, _, _, _, _, _, _, _, _, _, _, _, _, _, _, h'⟩, _⟩ := logged_syncStaging s; rw [h']
@[simp] theorem syncStaging_nextPkt (s : State) : (s.syncStaging).nextPkt = s.nextPkt := by
  obtain ⟨⟨_, _, _, _, _, _, _, _, _, _, _, _, _, _, _, h'⟩, _⟩ := logged_syncStaging s; rw [h']
@[simp] theorem syncStaging_nextRel (s : State) : (s.syncStaging).nextRel = s.nextRel := by
  obtain ⟨⟨_, _, _, _, _, _, _, _, _, _, _, _, _, _, _, h'⟩, _⟩ := logged_syncStaging s; rw [h']
@[simp] theorem syncStaging_pkts (s : State) : (s.syncStaging).pkts = s.pkts := by
  obtain ⟨⟨_, _, _, _, _, _, _, _, _, _, _, _, _, _, _, h'⟩, _⟩ := logged_syncStaging s; rw [h']
@[simp] theorem syncStaging_prs (s : State) : (s.syncStaging).prs = s.prs := by
  obtain ⟨⟨_, _, _, _, _, _, _, _, _, _, _, _, _, _, _, h'⟩, _⟩ := logged_syncStaging s; rw [h']
@[simp] theorem syncStaging_tab (s : State) : (s.syncStaging).tab = s.tab := by
  obtain ⟨⟨_, _, _, _, _, _, _, _, _, _, _, _, _, _, _, h'⟩, _⟩ := logged_syncStaging s; rw [h']
@[simp] theorem syncStaging_scp (s : State) : (s.syncStaging).scp = s.scp := by
  obtain ⟨⟨_, _, _, _, _, _, _, _, _, _, _, _, _, _, _, h'⟩, _⟩ := logged_syncStaging s; rw [h']
@[simp] theorem syncStaging_que (s : State) : (s.syncStaging).que = s.que := by
  obtain ⟨⟨_, _, _, _, _, _, _, _, _, _, _, _, _, _, _, h'⟩, _⟩ := logged_syncStaging s; rw [h']
@[simp] theorem syncStaging_mtr (s : State) : (s.syncStaging).mtr = s.mtr := by
  obtain ⟨⟨_, _, _, _, _, _, _, _, _, _, _, _, _, _, _, h'⟩, _⟩ := logged_syncStaging s; rw [h']
@[simp] theorem syncStaging_egr (s : State) : (s.syncStaging).egr = s.egr := by
  obtain ⟨⟨_, _, _, _, _, _, _, _, _, _, _, _, _, _, _, h'⟩, _⟩ := logged_syncStaging s; rw [h']
@[simp] theorem syncStaging_ver (s : State) : (s.syncStaging).ver = s.ver := by
  obtain ⟨⟨_, _, _, _, _, _, _, _, _, _, _, _, _, _, _, h'⟩, _⟩ := logged_syncStaging s; rw [h']
@[simp] theorem syncStaging_tow (s : State) : (s.syncStaging).tow = s.tow := by
  obtain ⟨⟨_, _, _, _, _, _, _, _, _, _, _, _, _, _, _, h'⟩, _⟩ := logged_syncStaging s; rw [h']
@[simp] theorem syncStaging_sec (s : State) : (s.syncStaging).sec = s.sec := by
  obtain ⟨⟨_, _, _, _, _, _, _, _, _, _, _, _, _, _, _, h'⟩, _⟩ := logged_syncStaging s; rw [h']
@[simp] theorem syncStaging_boot (s : State) : (s.syncStaging).boot = s.boot := by
  obtain ⟨⟨_, _, _, _, _, _, _, _, _, _, _, _, _, _, _, h'⟩, _⟩ := logged_syncStaging s; rw [h']
@[simp] theorem syncStaging_cnd (s : State) : (s.syncStaging).cnd = s.cnd := by
  obtain ⟨⟨_, _, _, _, _, _, _, _, _, _, _, _, _, _, _, h'⟩, _⟩ := logged_syncStaging s; rw [h']
@[simp] theorem syncStaging_hbm (s : State) : (s.syncStaging).hbm = s.hbm := by
  obtain ⟨⟨_, _, _, _, _, _, _, _, _, _, _, _, _, _, _, h'⟩, _⟩ := logged_syncStaging s; rw [h']
@[simp] theorem syncStaging_hif_fns (s : State) : (s.syncStaging).hif.fns = s.hif.fns := by
  obtain ⟨⟨_, _, _, _, _, _, _, _, _, _, _, _, _, _, _, h'⟩, _⟩ := logged_syncStaging s; rw [h']
@[simp] theorem syncStaging_hif_chans (s : State) : (s.syncStaging).hif.chans = s.hif.chans := by
  obtain ⟨⟨_, _, _, _, _, _, _, _, _, _, _, _, _, _, _, h'⟩, _⟩ := logged_syncStaging s; rw [h']
@[simp] theorem syncStaging_hif_keeperMem (s : State) : (s.syncStaging).hif.keeperMem = s.hif.keeperMem := by
  obtain ⟨⟨_, _, _, _, _, _, _, _, _, _, _, _, _, _, _, h'⟩, _⟩ := logged_syncStaging s; rw [h']
@[simp] theorem syncStaging_hif_pushNext (s : State) : (s.syncStaging).hif.pushNext = s.hif.pushNext := by
  obtain ⟨⟨_, _, _, _, _, _, _, _, _, _, _, _, _, _, _, h'⟩, _⟩ := logged_syncStaging s; rw [h']
@[simp] theorem syncStaging_hif_l12 (s : State) : (s.syncStaging).hif.l12 = s.hif.l12 := by
  obtain ⟨⟨_, _, _, _, _, _, _, _, _, _, _, _, _, _, _, h'⟩, _⟩ := logged_syncStaging s; rw [h']
@[simp] theorem syncStaging_pmc_next (s : State) : (s.syncStaging).pmc.next = s.pmc.next := by
  obtain ⟨⟨_, _, _, _, _, _, _, _, _, _, _, _, _, _, _, h'⟩, _⟩ := logged_syncStaging s; rw [h']
@[simp] theorem syncStaging_pmc_seq (s : State) : (s.syncStaging).pmc.seq = s.pmc.seq := by
  obtain ⟨⟨_, _, _, _, _, _, _, _, _, _, _, _, _, _, _, h'⟩, _⟩ := logged_syncStaging s; rw [h']
@[simp] theorem syncStaging_pmc_skipped (s : State) : (s.syncStaging).pmc.skipped = s.pmc.skipped := by
  obtain ⟨⟨_, _, _, _, _, _, _, _, _, _, _, _, _, _, _, h'⟩, _⟩ := logged_syncStaging s; rw [h']
@[simp] theorem syncStaging_pmc_posted (s : State) : (s.syncStaging).pmc.posted = s.pmc.posted := by
  obtain ⟨⟨_, _, _, _, _, _, _, _, _, _, _, _, _, _, _, h'⟩, _⟩ := logged_syncStaging s; rw [h']
@[simp] theorem syncStaging_flt_testUntil (s : State) : (s.syncStaging).flt.testUntil = s.flt.testUntil := by
  obtain ⟨⟨_, _, _, _, _, _, _, _, _, _, _, _, _, _, _, h'⟩, _⟩ := logged_syncStaging s; rw [h']
@[simp] theorem syncStaging_flt_ferry (s : State) : (s.syncStaging).flt.ferry = s.flt.ferry := by
  obtain ⟨⟨_, _, _, _, _, _, _, _, _, _, _, _, _, _, _, h'⟩, _⟩ := logged_syncStaging s; rw [h']

/-! ## closeBlock -/

@[simp] theorem closeBlock_pending (s : State) (st : Nat) (l : Bool) (h : st < 32) : (s.closeBlock st l).pending = s.pending := by
  obtain ⟨⟨_, _, _, _, _, _, _, _, _, _, _, _, _, _, _, h'⟩, _⟩ := logged_closeBlock s st l h; rw [h']
@[simp] theorem closeBlock_pins (s : State) (st : Nat) (l : Bool) (h : st < 32) : (s.closeBlock st l).pins = s.pins := by
  obtain ⟨⟨_, _, _, _, _, _, _, _, _, _, _, _, _, _, _, h'⟩, _⟩ := logged_closeBlock s st l h; rw [h']
@[simp] theorem closeBlock_unit (s : State) (st : Nat) (l : Bool) (h : st < 32) : (s.closeBlock st l).unit = s.unit := by
  obtain ⟨⟨_, _, _, _, _, _, _, _, _, _, _, _, _, _, _, h'⟩, _⟩ := logged_closeBlock s st l h; rw [h']
@[simp] theorem closeBlock_out (s : State) (st : Nat) (l : Bool) (h : st < 32) : (s.closeBlock st l).out = s.out := by
  obtain ⟨⟨_, _, _, _, _, _, _, _, _, _, _, _, _, _, _, h'⟩, _⟩ := logged_closeBlock s st l h; rw [h']
@[simp] theorem closeBlock_free (s : State) (st : Nat) (l : Bool) (h : st < 32) : (s.closeBlock st l).free = s.free := by
  obtain ⟨⟨_, _, _, _, _, _, _, _, _, _, _, _, _, _, _, h'⟩, _⟩ := logged_closeBlock s st l h; rw [h']
@[simp] theorem closeBlock_time (s : State) (st : Nat) (l : Bool) (h : st < 32) : (s.closeBlock st l).time = s.time := by
  obtain ⟨⟨_, _, _, _, _, _, _, _, _, _, _, _, _, _, _, h'⟩, _⟩ := logged_closeBlock s st l h; rw [h']
@[simp] theorem closeBlock_stg (s : State) (st : Nat) (l : Bool) (h : st < 32) : (s.closeBlock st l).stg = s.stg := by
  obtain ⟨⟨_, _, _, _, _, _, _, _, _, _, _, _, _, _, _, h'⟩, _⟩ := logged_closeBlock s st l h; rw [h']
@[simp] theorem closeBlock_tim (s : State) (st : Nat) (l : Bool) (h : st < 32) : (s.closeBlock st l).tim = s.tim := by
  obtain ⟨⟨_, _, _, _, _, _, _, _, _, _, _, _, _, _, _, h'⟩, _⟩ := logged_closeBlock s st l h; rw [h']
@[simp] theorem closeBlock_ports (s : State) (st : Nat) (l : Bool) (h : st < 32) : (s.closeBlock st l).ports = s.ports := by
  obtain ⟨⟨_, _, _, _, _, _, _, _, _, _, _, _, _, _, _, h'⟩, _⟩ := logged_closeBlock s st l h; rw [h']
@[simp] theorem closeBlock_nextPkt (s : State) (st : Nat) (l : Bool) (h : st < 32) : (s.closeBlock st l).nextPkt = s.nextPkt := by
  obtain ⟨⟨_, _, _, _, _, _, _, _, _, _, _, _, _, _, _, h'⟩, _⟩ := logged_closeBlock s st l h; rw [h']
@[simp] theorem closeBlock_nextRel (s : State) (st : Nat) (l : Bool) (h : st < 32) : (s.closeBlock st l).nextRel = s.nextRel := by
  obtain ⟨⟨_, _, _, _, _, _, _, _, _, _, _, _, _, _, _, h'⟩, _⟩ := logged_closeBlock s st l h; rw [h']
@[simp] theorem closeBlock_pkts (s : State) (st : Nat) (l : Bool) (h : st < 32) : (s.closeBlock st l).pkts = s.pkts := by
  obtain ⟨⟨_, _, _, _, _, _, _, _, _, _, _, _, _, _, _, h'⟩, _⟩ := logged_closeBlock s st l h; rw [h']
@[simp] theorem closeBlock_prs (s : State) (st : Nat) (l : Bool) (h : st < 32) : (s.closeBlock st l).prs = s.prs := by
  obtain ⟨⟨_, _, _, _, _, _, _, _, _, _, _, _, _, _, _, h'⟩, _⟩ := logged_closeBlock s st l h; rw [h']
@[simp] theorem closeBlock_tab (s : State) (st : Nat) (l : Bool) (h : st < 32) : (s.closeBlock st l).tab = s.tab := by
  obtain ⟨⟨_, _, _, _, _, _, _, _, _, _, _, _, _, _, _, h'⟩, _⟩ := logged_closeBlock s st l h; rw [h']
@[simp] theorem closeBlock_scp (s : State) (st : Nat) (l : Bool) (h : st < 32) : (s.closeBlock st l).scp = s.scp := by
  obtain ⟨⟨_, _, _, _, _, _, _, _, _, _, _, _, _, _, _, h'⟩, _⟩ := logged_closeBlock s st l h; rw [h']
@[simp] theorem closeBlock_que (s : State) (st : Nat) (l : Bool) (h : st < 32) : (s.closeBlock st l).que = s.que := by
  obtain ⟨⟨_, _, _, _, _, _, _, _, _, _, _, _, _, _, _, h'⟩, _⟩ := logged_closeBlock s st l h; rw [h']
@[simp] theorem closeBlock_mtr (s : State) (st : Nat) (l : Bool) (h : st < 32) : (s.closeBlock st l).mtr = s.mtr := by
  obtain ⟨⟨_, _, _, _, _, _, _, _, _, _, _, _, _, _, _, h'⟩, _⟩ := logged_closeBlock s st l h; rw [h']
@[simp] theorem closeBlock_egr (s : State) (st : Nat) (l : Bool) (h : st < 32) : (s.closeBlock st l).egr = s.egr := by
  obtain ⟨⟨_, _, _, _, _, _, _, _, _, _, _, _, _, _, _, h'⟩, _⟩ := logged_closeBlock s st l h; rw [h']
@[simp] theorem closeBlock_ver (s : State) (st : Nat) (l : Bool) (h : st < 32) : (s.closeBlock st l).ver = s.ver := by
  obtain ⟨⟨_, _, _, _, _, _, _, _, _, _, _, _, _, _, _, h'⟩, _⟩ := logged_closeBlock s st l h; rw [h']
@[simp] theorem closeBlock_tow (s : State) (st : Nat) (l : Bool) (h : st < 32) : (s.closeBlock st l).tow = s.tow := by
  obtain ⟨⟨_, _, _, _, _, _, _, _, _, _, _, _, _, _, _, h'⟩, _⟩ := logged_closeBlock s st l h; rw [h']
@[simp] theorem closeBlock_sec (s : State) (st : Nat) (l : Bool) (h : st < 32) : (s.closeBlock st l).sec = s.sec := by
  obtain ⟨⟨_, _, _, _, _, _, _, _, _, _, _, _, _, _, _, h'⟩, _⟩ := logged_closeBlock s st l h; rw [h']
@[simp] theorem closeBlock_boot (s : State) (st : Nat) (l : Bool) (h : st < 32) : (s.closeBlock st l).boot = s.boot := by
  obtain ⟨⟨_, _, _, _, _, _, _, _, _, _, _, _, _, _, _, h'⟩, _⟩ := logged_closeBlock s st l h; rw [h']
@[simp] theorem closeBlock_cnd (s : State) (st : Nat) (l : Bool) (h : st < 32) : (s.closeBlock st l).cnd = s.cnd := by
  obtain ⟨⟨_, _, _, _, _, _, _, _, _, _, _, _, _, _, _, h'⟩, _⟩ := logged_closeBlock s st l h; rw [h']
@[simp] theorem closeBlock_hbm (s : State) (st : Nat) (l : Bool) (h : st < 32) : (s.closeBlock st l).hbm = s.hbm := by
  obtain ⟨⟨_, _, _, _, _, _, _, _, _, _, _, _, _, _, _, h'⟩, _⟩ := logged_closeBlock s st l h; rw [h']
@[simp] theorem closeBlock_hif_fns (s : State) (st : Nat) (l : Bool) (h : st < 32) : (s.closeBlock st l).hif.fns = s.hif.fns := by
  obtain ⟨⟨_, _, _, _, _, _, _, _, _, _, _, _, _, _, _, h'⟩, _⟩ := logged_closeBlock s st l h; rw [h']
@[simp] theorem closeBlock_hif_chans (s : State) (st : Nat) (l : Bool) (h : st < 32) : (s.closeBlock st l).hif.chans = s.hif.chans := by
  obtain ⟨⟨_, _, _, _, _, _, _, _, _, _, _, _, _, _, _, h'⟩, _⟩ := logged_closeBlock s st l h; rw [h']
@[simp] theorem closeBlock_hif_keeperMem (s : State) (st : Nat) (l : Bool) (h : st < 32) : (s.closeBlock st l).hif.keeperMem = s.hif.keeperMem := by
  obtain ⟨⟨_, _, _, _, _, _, _, _, _, _, _, _, _, _, _, h'⟩, _⟩ := logged_closeBlock s st l h; rw [h']
@[simp] theorem closeBlock_hif_pushNext (s : State) (st : Nat) (l : Bool) (h : st < 32) : (s.closeBlock st l).hif.pushNext = s.hif.pushNext := by
  obtain ⟨⟨_, _, _, _, _, _, _, _, _, _, _, _, _, _, _, h'⟩, _⟩ := logged_closeBlock s st l h; rw [h']
@[simp] theorem closeBlock_hif_l12 (s : State) (st : Nat) (l : Bool) (h : st < 32) : (s.closeBlock st l).hif.l12 = s.hif.l12 := by
  obtain ⟨⟨_, _, _, _, _, _, _, _, _, _, _, _, _, _, _, h'⟩, _⟩ := logged_closeBlock s st l h; rw [h']
@[simp] theorem closeBlock_pmc_next (s : State) (st : Nat) (l : Bool) (h : st < 32) : (s.closeBlock st l).pmc.next = s.pmc.next := by
  obtain ⟨⟨_, _, _, _, _, _, _, _, _, _, _, _, _, _, _, h'⟩, _⟩ := logged_closeBlock s st l h; rw [h']
@[simp] theorem closeBlock_pmc_seq (s : State) (st : Nat) (l : Bool) (h : st < 32) : (s.closeBlock st l).pmc.seq = s.pmc.seq := by
  obtain ⟨⟨_, _, _, _, _, _, _, _, _, _, _, _, _, _, _, h'⟩, _⟩ := logged_closeBlock s st l h; rw [h']
@[simp] theorem closeBlock_pmc_skipped (s : State) (st : Nat) (l : Bool) (h : st < 32) : (s.closeBlock st l).pmc.skipped = s.pmc.skipped := by
  obtain ⟨⟨_, _, _, _, _, _, _, _, _, _, _, _, _, _, _, h'⟩, _⟩ := logged_closeBlock s st l h; rw [h']
@[simp] theorem closeBlock_pmc_posted (s : State) (st : Nat) (l : Bool) (h : st < 32) : (s.closeBlock st l).pmc.posted = s.pmc.posted := by
  obtain ⟨⟨_, _, _, _, _, _, _, _, _, _, _, _, _, _, _, h'⟩, _⟩ := logged_closeBlock s st l h; rw [h']
@[simp] theorem closeBlock_flt_testUntil (s : State) (st : Nat) (l : Bool) (h : st < 32) : (s.closeBlock st l).flt.testUntil = s.flt.testUntil := by
  obtain ⟨⟨_, _, _, _, _, _, _, _, _, _, _, _, _, _, _, h'⟩, _⟩ := logged_closeBlock s st l h; rw [h']
@[simp] theorem closeBlock_flt_ferry (s : State) (st : Nat) (l : Bool) (h : st < 32) : (s.closeBlock st l).flt.ferry = s.flt.ferry := by
  obtain ⟨⟨_, _, _, _, _, _, _, _, _, _, _, _, _, _, _, h'⟩, _⟩ := logged_closeBlock s st l h; rw [h']

/-! ## gapEvent -/

@[simp] theorem gapEvent_pending (s : State) (st k : Nat) (t : Stamp) (h : st < 32) : (s.gapEvent st k t).pending = s.pending := by
  obtain ⟨⟨_, _, _, _, _, _, _, _, _, _, _, _, _, _, _, h'⟩, _⟩ := logged_gapEvent s st k t h; rw [h']
@[simp] theorem gapEvent_pins (s : State) (st k : Nat) (t : Stamp) (h : st < 32) : (s.gapEvent st k t).pins = s.pins := by
  obtain ⟨⟨_, _, _, _, _, _, _, _, _, _, _, _, _, _, _, h'⟩, _⟩ := logged_gapEvent s st k t h; rw [h']
@[simp] theorem gapEvent_unit (s : State) (st k : Nat) (t : Stamp) (h : st < 32) : (s.gapEvent st k t).unit = s.unit := by
  obtain ⟨⟨_, _, _, _, _, _, _, _, _, _, _, _, _, _, _, h'⟩, _⟩ := logged_gapEvent s st k t h; rw [h']
@[simp] theorem gapEvent_out (s : State) (st k : Nat) (t : Stamp) (h : st < 32) : (s.gapEvent st k t).out = s.out := by
  obtain ⟨⟨_, _, _, _, _, _, _, _, _, _, _, _, _, _, _, h'⟩, _⟩ := logged_gapEvent s st k t h; rw [h']
@[simp] theorem gapEvent_free (s : State) (st k : Nat) (t : Stamp) (h : st < 32) : (s.gapEvent st k t).free = s.free := by
  obtain ⟨⟨_, _, _, _, _, _, _, _, _, _, _, _, _, _, _, h'⟩, _⟩ := logged_gapEvent s st k t h; rw [h']
@[simp] theorem gapEvent_time (s : State) (st k : Nat) (t : Stamp) (h : st < 32) : (s.gapEvent st k t).time = s.time := by
  obtain ⟨⟨_, _, _, _, _, _, _, _, _, _, _, _, _, _, _, h'⟩, _⟩ := logged_gapEvent s st k t h; rw [h']
@[simp] theorem gapEvent_stg (s : State) (st k : Nat) (t : Stamp) (h : st < 32) : (s.gapEvent st k t).stg = s.stg := by
  obtain ⟨⟨_, _, _, _, _, _, _, _, _, _, _, _, _, _, _, h'⟩, _⟩ := logged_gapEvent s st k t h; rw [h']
@[simp] theorem gapEvent_tim (s : State) (st k : Nat) (t : Stamp) (h : st < 32) : (s.gapEvent st k t).tim = s.tim := by
  obtain ⟨⟨_, _, _, _, _, _, _, _, _, _, _, _, _, _, _, h'⟩, _⟩ := logged_gapEvent s st k t h; rw [h']
@[simp] theorem gapEvent_ports (s : State) (st k : Nat) (t : Stamp) (h : st < 32) : (s.gapEvent st k t).ports = s.ports := by
  obtain ⟨⟨_, _, _, _, _, _, _, _, _, _, _, _, _, _, _, h'⟩, _⟩ := logged_gapEvent s st k t h; rw [h']
@[simp] theorem gapEvent_nextPkt (s : State) (st k : Nat) (t : Stamp) (h : st < 32) : (s.gapEvent st k t).nextPkt = s.nextPkt := by
  obtain ⟨⟨_, _, _, _, _, _, _, _, _, _, _, _, _, _, _, h'⟩, _⟩ := logged_gapEvent s st k t h; rw [h']
@[simp] theorem gapEvent_nextRel (s : State) (st k : Nat) (t : Stamp) (h : st < 32) : (s.gapEvent st k t).nextRel = s.nextRel := by
  obtain ⟨⟨_, _, _, _, _, _, _, _, _, _, _, _, _, _, _, h'⟩, _⟩ := logged_gapEvent s st k t h; rw [h']
@[simp] theorem gapEvent_pkts (s : State) (st k : Nat) (t : Stamp) (h : st < 32) : (s.gapEvent st k t).pkts = s.pkts := by
  obtain ⟨⟨_, _, _, _, _, _, _, _, _, _, _, _, _, _, _, h'⟩, _⟩ := logged_gapEvent s st k t h; rw [h']
@[simp] theorem gapEvent_prs (s : State) (st k : Nat) (t : Stamp) (h : st < 32) : (s.gapEvent st k t).prs = s.prs := by
  obtain ⟨⟨_, _, _, _, _, _, _, _, _, _, _, _, _, _, _, h'⟩, _⟩ := logged_gapEvent s st k t h; rw [h']
@[simp] theorem gapEvent_tab (s : State) (st k : Nat) (t : Stamp) (h : st < 32) : (s.gapEvent st k t).tab = s.tab := by
  obtain ⟨⟨_, _, _, _, _, _, _, _, _, _, _, _, _, _, _, h'⟩, _⟩ := logged_gapEvent s st k t h; rw [h']
@[simp] theorem gapEvent_scp (s : State) (st k : Nat) (t : Stamp) (h : st < 32) : (s.gapEvent st k t).scp = s.scp := by
  obtain ⟨⟨_, _, _, _, _, _, _, _, _, _, _, _, _, _, _, h'⟩, _⟩ := logged_gapEvent s st k t h; rw [h']
@[simp] theorem gapEvent_que (s : State) (st k : Nat) (t : Stamp) (h : st < 32) : (s.gapEvent st k t).que = s.que := by
  obtain ⟨⟨_, _, _, _, _, _, _, _, _, _, _, _, _, _, _, h'⟩, _⟩ := logged_gapEvent s st k t h; rw [h']
@[simp] theorem gapEvent_mtr (s : State) (st k : Nat) (t : Stamp) (h : st < 32) : (s.gapEvent st k t).mtr = s.mtr := by
  obtain ⟨⟨_, _, _, _, _, _, _, _, _, _, _, _, _, _, _, h'⟩, _⟩ := logged_gapEvent s st k t h; rw [h']
@[simp] theorem gapEvent_egr (s : State) (st k : Nat) (t : Stamp) (h : st < 32) : (s.gapEvent st k t).egr = s.egr := by
  obtain ⟨⟨_, _, _, _, _, _, _, _, _, _, _, _, _, _, _, h'⟩, _⟩ := logged_gapEvent s st k t h; rw [h']
@[simp] theorem gapEvent_ver (s : State) (st k : Nat) (t : Stamp) (h : st < 32) : (s.gapEvent st k t).ver = s.ver := by
  obtain ⟨⟨_, _, _, _, _, _, _, _, _, _, _, _, _, _, _, h'⟩, _⟩ := logged_gapEvent s st k t h; rw [h']
@[simp] theorem gapEvent_tow (s : State) (st k : Nat) (t : Stamp) (h : st < 32) : (s.gapEvent st k t).tow = s.tow := by
  obtain ⟨⟨_, _, _, _, _, _, _, _, _, _, _, _, _, _, _, h'⟩, _⟩ := logged_gapEvent s st k t h; rw [h']
@[simp] theorem gapEvent_sec (s : State) (st k : Nat) (t : Stamp) (h : st < 32) : (s.gapEvent st k t).sec = s.sec := by
  obtain ⟨⟨_, _, _, _, _, _, _, _, _, _, _, _, _, _, _, h'⟩, _⟩ := logged_gapEvent s st k t h; rw [h']
@[simp] theorem gapEvent_boot (s : State) (st k : Nat) (t : Stamp) (h : st < 32) : (s.gapEvent st k t).boot = s.boot := by
  obtain ⟨⟨_, _, _, _, _, _, _, _, _, _, _, _, _, _, _, h'⟩, _⟩ := logged_gapEvent s st k t h; rw [h']
@[simp] theorem gapEvent_cnd (s : State) (st k : Nat) (t : Stamp) (h : st < 32) : (s.gapEvent st k t).cnd = s.cnd := by
  obtain ⟨⟨_, _, _, _, _, _, _, _, _, _, _, _, _, _, _, h'⟩, _⟩ := logged_gapEvent s st k t h; rw [h']
@[simp] theorem gapEvent_hbm (s : State) (st k : Nat) (t : Stamp) (h : st < 32) : (s.gapEvent st k t).hbm = s.hbm := by
  obtain ⟨⟨_, _, _, _, _, _, _, _, _, _, _, _, _, _, _, h'⟩, _⟩ := logged_gapEvent s st k t h; rw [h']
@[simp] theorem gapEvent_hif_fns (s : State) (st k : Nat) (t : Stamp) (h : st < 32) : (s.gapEvent st k t).hif.fns = s.hif.fns := by
  obtain ⟨⟨_, _, _, _, _, _, _, _, _, _, _, _, _, _, _, h'⟩, _⟩ := logged_gapEvent s st k t h; rw [h']
@[simp] theorem gapEvent_hif_chans (s : State) (st k : Nat) (t : Stamp) (h : st < 32) : (s.gapEvent st k t).hif.chans = s.hif.chans := by
  obtain ⟨⟨_, _, _, _, _, _, _, _, _, _, _, _, _, _, _, h'⟩, _⟩ := logged_gapEvent s st k t h; rw [h']
@[simp] theorem gapEvent_hif_keeperMem (s : State) (st k : Nat) (t : Stamp) (h : st < 32) : (s.gapEvent st k t).hif.keeperMem = s.hif.keeperMem := by
  obtain ⟨⟨_, _, _, _, _, _, _, _, _, _, _, _, _, _, _, h'⟩, _⟩ := logged_gapEvent s st k t h; rw [h']
@[simp] theorem gapEvent_hif_pushNext (s : State) (st k : Nat) (t : Stamp) (h : st < 32) : (s.gapEvent st k t).hif.pushNext = s.hif.pushNext := by
  obtain ⟨⟨_, _, _, _, _, _, _, _, _, _, _, _, _, _, _, h'⟩, _⟩ := logged_gapEvent s st k t h; rw [h']
@[simp] theorem gapEvent_hif_l12 (s : State) (st k : Nat) (t : Stamp) (h : st < 32) : (s.gapEvent st k t).hif.l12 = s.hif.l12 := by
  obtain ⟨⟨_, _, _, _, _, _, _, _, _, _, _, _, _, _, _, h'⟩, _⟩ := logged_gapEvent s st k t h; rw [h']
@[simp] theorem gapEvent_pmc_next (s : State) (st k : Nat) (t : Stamp) (h : st < 32) : (s.gapEvent st k t).pmc.next = s.pmc.next := by
  obtain ⟨⟨_, _, _, _, _, _, _, _, _, _, _, _, _, _, _, h'⟩, _⟩ := logged_gapEvent s st k t h; rw [h']
@[simp] theorem gapEvent_pmc_seq (s : State) (st k : Nat) (t : Stamp) (h : st < 32) : (s.gapEvent st k t).pmc.seq = s.pmc.seq := by
  obtain ⟨⟨_, _, _, _, _, _, _, _, _, _, _, _, _, _, _, h'⟩, _⟩ := logged_gapEvent s st k t h; rw [h']
@[simp] theorem gapEvent_pmc_skipped (s : State) (st k : Nat) (t : Stamp) (h : st < 32) : (s.gapEvent st k t).pmc.skipped = s.pmc.skipped := by
  obtain ⟨⟨_, _, _, _, _, _, _, _, _, _, _, _, _, _, _, h'⟩, _⟩ := logged_gapEvent s st k t h; rw [h']
@[simp] theorem gapEvent_pmc_posted (s : State) (st k : Nat) (t : Stamp) (h : st < 32) : (s.gapEvent st k t).pmc.posted = s.pmc.posted := by
  obtain ⟨⟨_, _, _, _, _, _, _, _, _, _, _, _, _, _, _, h'⟩, _⟩ := logged_gapEvent s st k t h; rw [h']
@[simp] theorem gapEvent_flt_testUntil (s : State) (st k : Nat) (t : Stamp) (h : st < 32) : (s.gapEvent st k t).flt.testUntil = s.flt.testUntil := by
  obtain ⟨⟨_, _, _, _, _, _, _, _, _, _, _, _, _, _, _, h'⟩, _⟩ := logged_gapEvent s st k t h; rw [h']
@[simp] theorem gapEvent_flt_ferry (s : State) (st k : Nat) (t : Stamp) (h : st < 32) : (s.gapEvent st k t).flt.ferry = s.flt.ferry := by
  obtain ⟨⟨_, _, _, _, _, _, _, _, _, _, _, _, _, _, _, h'⟩, _⟩ := logged_gapEvent s st k t h; rw [h']

/-! ## putRecs -/

@[simp] theorem putRecs_pending (s : State) (st k : Nat) (t : Stamp) (rs : List WRec) (h : st < 32) : (s.putRecs st k t rs).pending = s.pending := by
  obtain ⟨⟨_, _, _, _, _, _, _, _, _, _, _, _, _, _, _, h'⟩, _⟩ := logged_putRecs s st k t rs h; rw [h']
@[simp] theorem putRecs_pins (s : State) (st k : Nat) (t : Stamp) (rs : List WRec) (h : st < 32) : (s.putRecs st k t rs).pins = s.pins := by
  obtain ⟨⟨_, _, _, _, _, _, _, _, _, _, _, _, _, _, _, h'⟩, _⟩ := logged_putRecs s st k t rs h; rw [h']
@[simp] theorem putRecs_unit (s : State) (st k : Nat) (t : Stamp) (rs : List WRec) (h : st < 32) : (s.putRecs st k t rs).unit = s.unit := by
  obtain ⟨⟨_, _, _, _, _, _, _, _, _, _, _, _, _, _, _, h'⟩, _⟩ := logged_putRecs s st k t rs h; rw [h']
@[simp] theorem putRecs_out (s : State) (st k : Nat) (t : Stamp) (rs : List WRec) (h : st < 32) : (s.putRecs st k t rs).out = s.out := by
  obtain ⟨⟨_, _, _, _, _, _, _, _, _, _, _, _, _, _, _, h'⟩, _⟩ := logged_putRecs s st k t rs h; rw [h']
@[simp] theorem putRecs_free (s : State) (st k : Nat) (t : Stamp) (rs : List WRec) (h : st < 32) : (s.putRecs st k t rs).free = s.free := by
  obtain ⟨⟨_, _, _, _, _, _, _, _, _, _, _, _, _, _, _, h'⟩, _⟩ := logged_putRecs s st k t rs h; rw [h']
@[simp] theorem putRecs_time (s : State) (st k : Nat) (t : Stamp) (rs : List WRec) (h : st < 32) : (s.putRecs st k t rs).time = s.time := by
  obtain ⟨⟨_, _, _, _, _, _, _, _, _, _, _, _, _, _, _, h'⟩, _⟩ := logged_putRecs s st k t rs h; rw [h']
@[simp] theorem putRecs_stg (s : State) (st k : Nat) (t : Stamp) (rs : List WRec) (h : st < 32) : (s.putRecs st k t rs).stg = s.stg := by
  obtain ⟨⟨_, _, _, _, _, _, _, _, _, _, _, _, _, _, _, h'⟩, _⟩ := logged_putRecs s st k t rs h; rw [h']
@[simp] theorem putRecs_tim (s : State) (st k : Nat) (t : Stamp) (rs : List WRec) (h : st < 32) : (s.putRecs st k t rs).tim = s.tim := by
  obtain ⟨⟨_, _, _, _, _, _, _, _, _, _, _, _, _, _, _, h'⟩, _⟩ := logged_putRecs s st k t rs h; rw [h']
@[simp] theorem putRecs_ports (s : State) (st k : Nat) (t : Stamp) (rs : List WRec) (h : st < 32) : (s.putRecs st k t rs).ports = s.ports := by
  obtain ⟨⟨_, _, _, _, _, _, _, _, _, _, _, _, _, _, _, h'⟩, _⟩ := logged_putRecs s st k t rs h; rw [h']
@[simp] theorem putRecs_nextPkt (s : State) (st k : Nat) (t : Stamp) (rs : List WRec) (h : st < 32) : (s.putRecs st k t rs).nextPkt = s.nextPkt := by
  obtain ⟨⟨_, _, _, _, _, _, _, _, _, _, _, _, _, _, _, h'⟩, _⟩ := logged_putRecs s st k t rs h; rw [h']
@[simp] theorem putRecs_nextRel (s : State) (st k : Nat) (t : Stamp) (rs : List WRec) (h : st < 32) : (s.putRecs st k t rs).nextRel = s.nextRel := by
  obtain ⟨⟨_, _, _, _, _, _, _, _, _, _, _, _, _, _, _, h'⟩, _⟩ := logged_putRecs s st k t rs h; rw [h']
@[simp] theorem putRecs_pkts (s : State) (st k : Nat) (t : Stamp) (rs : List WRec) (h : st < 32) : (s.putRecs st k t rs).pkts = s.pkts := by
  obtain ⟨⟨_, _, _, _, _, _, _, _, _, _, _, _, _, _, _, h'⟩, _⟩ := logged_putRecs s st k t rs h; rw [h']
@[simp] theorem putRecs_prs (s : State) (st k : Nat) (t : Stamp) (rs : List WRec) (h : st < 32) : (s.putRecs st k t rs).prs = s.prs := by
  obtain ⟨⟨_, _, _, _, _, _, _, _, _, _, _, _, _, _, _, h'⟩, _⟩ := logged_putRecs s st k t rs h; rw [h']
@[simp] theorem putRecs_tab (s : State) (st k : Nat) (t : Stamp) (rs : List WRec) (h : st < 32) : (s.putRecs st k t rs).tab = s.tab := by
  obtain ⟨⟨_, _, _, _, _, _, _, _, _, _, _, _, _, _, _, h'⟩, _⟩ := logged_putRecs s st k t rs h; rw [h']
@[simp] theorem putRecs_scp (s : State) (st k : Nat) (t : Stamp) (rs : List WRec) (h : st < 32) : (s.putRecs st k t rs).scp = s.scp := by
  obtain ⟨⟨_, _, _, _, _, _, _, _, _, _, _, _, _, _, _, h'⟩, _⟩ := logged_putRecs s st k t rs h; rw [h']
@[simp] theorem putRecs_que (s : State) (st k : Nat) (t : Stamp) (rs : List WRec) (h : st < 32) : (s.putRecs st k t rs).que = s.que := by
  obtain ⟨⟨_, _, _, _, _, _, _, _, _, _, _, _, _, _, _, h'⟩, _⟩ := logged_putRecs s st k t rs h; rw [h']
@[simp] theorem putRecs_mtr (s : State) (st k : Nat) (t : Stamp) (rs : List WRec) (h : st < 32) : (s.putRecs st k t rs).mtr = s.mtr := by
  obtain ⟨⟨_, _, _, _, _, _, _, _, _, _, _, _, _, _, _, h'⟩, _⟩ := logged_putRecs s st k t rs h; rw [h']
@[simp] theorem putRecs_egr (s : State) (st k : Nat) (t : Stamp) (rs : List WRec) (h : st < 32) : (s.putRecs st k t rs).egr = s.egr := by
  obtain ⟨⟨_, _, _, _, _, _, _, _, _, _, _, _, _, _, _, h'⟩, _⟩ := logged_putRecs s st k t rs h; rw [h']
@[simp] theorem putRecs_ver (s : State) (st k : Nat) (t : Stamp) (rs : List WRec) (h : st < 32) : (s.putRecs st k t rs).ver = s.ver := by
  obtain ⟨⟨_, _, _, _, _, _, _, _, _, _, _, _, _, _, _, h'⟩, _⟩ := logged_putRecs s st k t rs h; rw [h']
@[simp] theorem putRecs_tow (s : State) (st k : Nat) (t : Stamp) (rs : List WRec) (h : st < 32) : (s.putRecs st k t rs).tow = s.tow := by
  obtain ⟨⟨_, _, _, _, _, _, _, _, _, _, _, _, _, _, _, h'⟩, _⟩ := logged_putRecs s st k t rs h; rw [h']
@[simp] theorem putRecs_sec (s : State) (st k : Nat) (t : Stamp) (rs : List WRec) (h : st < 32) : (s.putRecs st k t rs).sec = s.sec := by
  obtain ⟨⟨_, _, _, _, _, _, _, _, _, _, _, _, _, _, _, h'⟩, _⟩ := logged_putRecs s st k t rs h; rw [h']
@[simp] theorem putRecs_boot (s : State) (st k : Nat) (t : Stamp) (rs : List WRec) (h : st < 32) : (s.putRecs st k t rs).boot = s.boot := by
  obtain ⟨⟨_, _, _, _, _, _, _, _, _, _, _, _, _, _, _, h'⟩, _⟩ := logged_putRecs s st k t rs h; rw [h']
@[simp] theorem putRecs_cnd (s : State) (st k : Nat) (t : Stamp) (rs : List WRec) (h : st < 32) : (s.putRecs st k t rs).cnd = s.cnd := by
  obtain ⟨⟨_, _, _, _, _, _, _, _, _, _, _, _, _, _, _, h'⟩, _⟩ := logged_putRecs s st k t rs h; rw [h']
@[simp] theorem putRecs_hbm (s : State) (st k : Nat) (t : Stamp) (rs : List WRec) (h : st < 32) : (s.putRecs st k t rs).hbm = s.hbm := by
  obtain ⟨⟨_, _, _, _, _, _, _, _, _, _, _, _, _, _, _, h'⟩, _⟩ := logged_putRecs s st k t rs h; rw [h']
@[simp] theorem putRecs_hif_fns (s : State) (st k : Nat) (t : Stamp) (rs : List WRec) (h : st < 32) : (s.putRecs st k t rs).hif.fns = s.hif.fns := by
  obtain ⟨⟨_, _, _, _, _, _, _, _, _, _, _, _, _, _, _, h'⟩, _⟩ := logged_putRecs s st k t rs h; rw [h']
@[simp] theorem putRecs_hif_chans (s : State) (st k : Nat) (t : Stamp) (rs : List WRec) (h : st < 32) : (s.putRecs st k t rs).hif.chans = s.hif.chans := by
  obtain ⟨⟨_, _, _, _, _, _, _, _, _, _, _, _, _, _, _, h'⟩, _⟩ := logged_putRecs s st k t rs h; rw [h']
@[simp] theorem putRecs_hif_keeperMem (s : State) (st k : Nat) (t : Stamp) (rs : List WRec) (h : st < 32) : (s.putRecs st k t rs).hif.keeperMem = s.hif.keeperMem := by
  obtain ⟨⟨_, _, _, _, _, _, _, _, _, _, _, _, _, _, _, h'⟩, _⟩ := logged_putRecs s st k t rs h; rw [h']
@[simp] theorem putRecs_hif_pushNext (s : State) (st k : Nat) (t : Stamp) (rs : List WRec) (h : st < 32) : (s.putRecs st k t rs).hif.pushNext = s.hif.pushNext := by
  obtain ⟨⟨_, _, _, _, _, _, _, _, _, _, _, _, _, _, _, h'⟩, _⟩ := logged_putRecs s st k t rs h; rw [h']
@[simp] theorem putRecs_hif_l12 (s : State) (st k : Nat) (t : Stamp) (rs : List WRec) (h : st < 32) : (s.putRecs st k t rs).hif.l12 = s.hif.l12 := by
  obtain ⟨⟨_, _, _, _, _, _, _, _, _, _, _, _, _, _, _, h'⟩, _⟩ := logged_putRecs s st k t rs h; rw [h']
@[simp] theorem putRecs_pmc_next (s : State) (st k : Nat) (t : Stamp) (rs : List WRec) (h : st < 32) : (s.putRecs st k t rs).pmc.next = s.pmc.next := by
  obtain ⟨⟨_, _, _, _, _, _, _, _, _, _, _, _, _, _, _, h'⟩, _⟩ := logged_putRecs s st k t rs h; rw [h']
@[simp] theorem putRecs_pmc_seq (s : State) (st k : Nat) (t : Stamp) (rs : List WRec) (h : st < 32) : (s.putRecs st k t rs).pmc.seq = s.pmc.seq := by
  obtain ⟨⟨_, _, _, _, _, _, _, _, _, _, _, _, _, _, _, h'⟩, _⟩ := logged_putRecs s st k t rs h; rw [h']
@[simp] theorem putRecs_pmc_skipped (s : State) (st k : Nat) (t : Stamp) (rs : List WRec) (h : st < 32) : (s.putRecs st k t rs).pmc.skipped = s.pmc.skipped := by
  obtain ⟨⟨_, _, _, _, _, _, _, _, _, _, _, _, _, _, _, h'⟩, _⟩ := logged_putRecs s st k t rs h; rw [h']
@[simp] theorem putRecs_pmc_posted (s : State) (st k : Nat) (t : Stamp) (rs : List WRec) (h : st < 32) : (s.putRecs st k t rs).pmc.posted = s.pmc.posted := by
  obtain ⟨⟨_, _, _, _, _, _, _, _, _, _, _, _, _, _, _, h'⟩, _⟩ := logged_putRecs s st k t rs h; rw [h']
@[simp] theorem putRecs_flt_testUntil (s : State) (st k : Nat) (t : Stamp) (rs : List WRec) (h : st < 32) : (s.putRecs st k t rs).flt.testUntil = s.flt.testUntil := by
  obtain ⟨⟨_, _, _, _, _, _, _, _, _, _, _, _, _, _, _, h'⟩, _⟩ := logged_putRecs s st k t rs h; rw [h']
@[simp] theorem putRecs_flt_ferry (s : State) (st k : Nat) (t : Stamp) (rs : List WRec) (h : st < 32) : (s.putRecs st k t rs).flt.ferry = s.flt.ferry := by
  obtain ⟨⟨_, _, _, _, _, _, _, _, _, _, _, _, _, _, _, h'⟩, _⟩ := logged_putRecs s st k t rs h; rw [h']

/-! ## control -/

@[simp] theorem control_pending (s : State) (st ty : Nat) (b : Bytes) (t : Stamp) (h : st < 32) : (s.control st ty b t).pending = s.pending := by
  obtain ⟨⟨_, _, _, _, _, _, _, _, _, _, _, _, _, _, _, h'⟩, _⟩ := logged_control s st ty b t h; rw [h']
@[simp] theorem control_pins (s : State) (st ty : Nat) (b : Bytes) (t : Stamp) (h : st < 32) : (s.control st ty b t).pins = s.pins := by
  obtain ⟨⟨_, _, _, _, _, _, _, _, _, _, _, _, _, _, _, h'⟩, _⟩ := logged_control s st ty b t h; rw [h']
@[simp] theorem control_unit (s : State) (st ty : Nat) (b : Bytes) (t : Stamp) (h : st < 32) : (s.control st ty b t).unit = s.unit := by
  obtain ⟨⟨_, _, _, _, _, _, _, _, _, _, _, _, _, _, _, h'⟩, _⟩ := logged_control s st ty b t h; rw [h']
@[simp] theorem control_out (s : State) (st ty : Nat) (b : Bytes) (t : Stamp) (h : st < 32) : (s.control st ty b t).out = s.out := by
  obtain ⟨⟨_, _, _, _, _, _, _, _, _, _, _, _, _, _, _, h'⟩, _⟩ := logged_control s st ty b t h; rw [h']
@[simp] theorem control_free (s : State) (st ty : Nat) (b : Bytes) (t : Stamp) (h : st < 32) : (s.control st ty b t).free = s.free := by
  obtain ⟨⟨_, _, _, _, _, _, _, _, _, _, _, _, _, _, _, h'⟩, _⟩ := logged_control s st ty b t h; rw [h']
@[simp] theorem control_time (s : State) (st ty : Nat) (b : Bytes) (t : Stamp) (h : st < 32) : (s.control st ty b t).time = s.time := by
  obtain ⟨⟨_, _, _, _, _, _, _, _, _, _, _, _, _, _, _, h'⟩, _⟩ := logged_control s st ty b t h; rw [h']
@[simp] theorem control_stg (s : State) (st ty : Nat) (b : Bytes) (t : Stamp) (h : st < 32) : (s.control st ty b t).stg = s.stg := by
  obtain ⟨⟨_, _, _, _, _, _, _, _, _, _, _, _, _, _, _, h'⟩, _⟩ := logged_control s st ty b t h; rw [h']
@[simp] theorem control_tim (s : State) (st ty : Nat) (b : Bytes) (t : Stamp) (h : st < 32) : (s.control st ty b t).tim = s.tim := by
  obtain ⟨⟨_, _, _, _, _, _, _, _, _, _, _, _, _, _, _, h'⟩, _⟩ := logged_control s st ty b t h; rw [h']
@[simp] theorem control_ports (s : State) (st ty : Nat) (b : Bytes) (t : Stamp) (h : st < 32) : (s.control st ty b t).ports = s.ports := by
  obtain ⟨⟨_, _, _, _, _, _, _, _, _, _, _, _, _, _, _, h'⟩, _⟩ := logged_control s st ty b t h; rw [h']
@[simp] theorem control_nextPkt (s : State) (st ty : Nat) (b : Bytes) (t : Stamp) (h : st < 32) : (s.control st ty b t).nextPkt = s.nextPkt := by
  obtain ⟨⟨_, _, _, _, _, _, _, _, _, _, _, _, _, _, _, h'⟩, _⟩ := logged_control s st ty b t h; rw [h']
@[simp] theorem control_nextRel (s : State) (st ty : Nat) (b : Bytes) (t : Stamp) (h : st < 32) : (s.control st ty b t).nextRel = s.nextRel := by
  obtain ⟨⟨_, _, _, _, _, _, _, _, _, _, _, _, _, _, _, h'⟩, _⟩ := logged_control s st ty b t h; rw [h']
@[simp] theorem control_pkts (s : State) (st ty : Nat) (b : Bytes) (t : Stamp) (h : st < 32) : (s.control st ty b t).pkts = s.pkts := by
  obtain ⟨⟨_, _, _, _, _, _, _, _, _, _, _, _, _, _, _, h'⟩, _⟩ := logged_control s st ty b t h; rw [h']
@[simp] theorem control_prs (s : State) (st ty : Nat) (b : Bytes) (t : Stamp) (h : st < 32) : (s.control st ty b t).prs = s.prs := by
  obtain ⟨⟨_, _, _, _, _, _, _, _, _, _, _, _, _, _, _, h'⟩, _⟩ := logged_control s st ty b t h; rw [h']
@[simp] theorem control_tab (s : State) (st ty : Nat) (b : Bytes) (t : Stamp) (h : st < 32) : (s.control st ty b t).tab = s.tab := by
  obtain ⟨⟨_, _, _, _, _, _, _, _, _, _, _, _, _, _, _, h'⟩, _⟩ := logged_control s st ty b t h; rw [h']
@[simp] theorem control_scp (s : State) (st ty : Nat) (b : Bytes) (t : Stamp) (h : st < 32) : (s.control st ty b t).scp = s.scp := by
  obtain ⟨⟨_, _, _, _, _, _, _, _, _, _, _, _, _, _, _, h'⟩, _⟩ := logged_control s st ty b t h; rw [h']
@[simp] theorem control_que (s : State) (st ty : Nat) (b : Bytes) (t : Stamp) (h : st < 32) : (s.control st ty b t).que = s.que := by
  obtain ⟨⟨_, _, _, _, _, _, _, _, _, _, _, _, _, _, _, h'⟩, _⟩ := logged_control s st ty b t h; rw [h']
@[simp] theorem control_mtr (s : State) (st ty : Nat) (b : Bytes) (t : Stamp) (h : st < 32) : (s.control st ty b t).mtr = s.mtr := by
  obtain ⟨⟨_, _, _, _, _, _, _, _, _, _, _, _, _, _, _, h'⟩, _⟩ := logged_control s st ty b t h; rw [h']
@[simp] theorem control_egr (s : State) (st ty : Nat) (b : Bytes) (t : Stamp) (h : st < 32) : (s.control st ty b t).egr = s.egr := by
  obtain ⟨⟨_, _, _, _, _, _, _, _, _, _, _, _, _, _, _, h'⟩, _⟩ := logged_control s st ty b t h; rw [h']
@[simp] theorem control_ver (s : State) (st ty : Nat) (b : Bytes) (t : Stamp) (h : st < 32) : (s.control st ty b t).ver = s.ver := by
  obtain ⟨⟨_, _, _, _, _, _, _, _, _, _, _, _, _, _, _, h'⟩, _⟩ := logged_control s st ty b t h; rw [h']
@[simp] theorem control_tow (s : State) (st ty : Nat) (b : Bytes) (t : Stamp) (h : st < 32) : (s.control st ty b t).tow = s.tow := by
  obtain ⟨⟨_, _, _, _, _, _, _, _, _, _, _, _, _, _, _, h'⟩, _⟩ := logged_control s st ty b t h; rw [h']
@[simp] theorem control_sec (s : State) (st ty : Nat) (b : Bytes) (t : Stamp) (h : st < 32) : (s.control st ty b t).sec = s.sec := by
  obtain ⟨⟨_, _, _, _, _, _, _, _, _, _, _, _, _, _, _, h'⟩, _⟩ := logged_control s st ty b t h; rw [h']
@[simp] theorem control_boot (s : State) (st ty : Nat) (b : Bytes) (t : Stamp) (h : st < 32) : (s.control st ty b t).boot = s.boot := by
  obtain ⟨⟨_, _, _, _, _, _, _, _, _, _, _, _, _, _, _, h'⟩, _⟩ := logged_control s st ty b t h; rw [h']
@[simp] theorem control_cnd (s : State) (st ty : Nat) (b : Bytes) (t : Stamp) (h : st < 32) : (s.control st ty b t).cnd = s.cnd := by
  obtain ⟨⟨_, _, _, _, _, _, _, _, _, _, _, _, _, _, _, h'⟩, _⟩ := logged_control s st ty b t h; rw [h']
@[simp] theorem control_hbm (s : State) (st ty : Nat) (b : Bytes) (t : Stamp) (h : st < 32) : (s.control st ty b t).hbm = s.hbm := by
  obtain ⟨⟨_, _, _, _, _, _, _, _, _, _, _, _, _, _, _, h'⟩, _⟩ := logged_control s st ty b t h; rw [h']
@[simp] theorem control_hif_fns (s : State) (st ty : Nat) (b : Bytes) (t : Stamp) (h : st < 32) : (s.control st ty b t).hif.fns = s.hif.fns := by
  obtain ⟨⟨_, _, _, _, _, _, _, _, _, _, _, _, _, _, _, h'⟩, _⟩ := logged_control s st ty b t h; rw [h']
@[simp] theorem control_hif_chans (s : State) (st ty : Nat) (b : Bytes) (t : Stamp) (h : st < 32) : (s.control st ty b t).hif.chans = s.hif.chans := by
  obtain ⟨⟨_, _, _, _, _, _, _, _, _, _, _, _, _, _, _, h'⟩, _⟩ := logged_control s st ty b t h; rw [h']
@[simp] theorem control_hif_keeperMem (s : State) (st ty : Nat) (b : Bytes) (t : Stamp) (h : st < 32) : (s.control st ty b t).hif.keeperMem = s.hif.keeperMem := by
  obtain ⟨⟨_, _, _, _, _, _, _, _, _, _, _, _, _, _, _, h'⟩, _⟩ := logged_control s st ty b t h; rw [h']
@[simp] theorem control_hif_pushNext (s : State) (st ty : Nat) (b : Bytes) (t : Stamp) (h : st < 32) : (s.control st ty b t).hif.pushNext = s.hif.pushNext := by
  obtain ⟨⟨_, _, _, _, _, _, _, _, _, _, _, _, _, _, _, h'⟩, _⟩ := logged_control s st ty b t h; rw [h']
@[simp] theorem control_hif_l12 (s : State) (st ty : Nat) (b : Bytes) (t : Stamp) (h : st < 32) : (s.control st ty b t).hif.l12 = s.hif.l12 := by
  obtain ⟨⟨_, _, _, _, _, _, _, _, _, _, _, _, _, _, _, h'⟩, _⟩ := logged_control s st ty b t h; rw [h']
@[simp] theorem control_pmc_next (s : State) (st ty : Nat) (b : Bytes) (t : Stamp) (h : st < 32) : (s.control st ty b t).pmc.next = s.pmc.next := by
  obtain ⟨⟨_, _, _, _, _, _, _, _, _, _, _, _, _, _, _, h'⟩, _⟩ := logged_control s st ty b t h; rw [h']
@[simp] theorem control_pmc_seq (s : State) (st ty : Nat) (b : Bytes) (t : Stamp) (h : st < 32) : (s.control st ty b t).pmc.seq = s.pmc.seq := by
  obtain ⟨⟨_, _, _, _, _, _, _, _, _, _, _, _, _, _, _, h'⟩, _⟩ := logged_control s st ty b t h; rw [h']
@[simp] theorem control_pmc_skipped (s : State) (st ty : Nat) (b : Bytes) (t : Stamp) (h : st < 32) : (s.control st ty b t).pmc.skipped = s.pmc.skipped := by
  obtain ⟨⟨_, _, _, _, _, _, _, _, _, _, _, _, _, _, _, h'⟩, _⟩ := logged_control s st ty b t h; rw [h']
@[simp] theorem control_pmc_posted (s : State) (st ty : Nat) (b : Bytes) (t : Stamp) (h : st < 32) : (s.control st ty b t).pmc.posted = s.pmc.posted := by
  obtain ⟨⟨_, _, _, _, _, _, _, _, _, _, _, _, _, _, _, h'⟩, _⟩ := logged_control s st ty b t h; rw [h']
@[simp] theorem control_flt_testUntil (s : State) (st ty : Nat) (b : Bytes) (t : Stamp) (h : st < 32) : (s.control st ty b t).flt.testUntil = s.flt.testUntil := by
  obtain ⟨⟨_, _, _, _, _, _, _, _, _, _, _, _, _, _, _, h'⟩, _⟩ := logged_control s st ty b t h; rw [h']
@[simp] theorem control_flt_ferry (s : State) (st ty : Nat) (b : Bytes) (t : Stamp) (h : st < 32) : (s.control st ty b t).flt.ferry = s.flt.ferry := by
  obtain ⟨⟨_, _, _, _, _, _, _, _, _, _, _, _, _, _, _, h'⟩, _⟩ := logged_control s st ty b t h; rw [h']

/-! ## controlNow -/

@[simp] theorem controlNow_pending (s : State) (ty : Nat) (b : Bytes) : (s.controlNow ty b).pending = s.pending := by
  obtain ⟨⟨_, _, _, _, _, _, _, _, _, _, _, _, _, _, _, h'⟩, _⟩ := logged_controlNow s ty b; rw [h']
@[simp] theorem controlNow_pins (s : State) (ty : Nat) (b : Bytes) : (s.controlNow ty b).pins = s.pins := by
  obtain ⟨⟨_, _, _, _, _, _, _, _, _, _, _, _, _, _, _, h'⟩, _⟩ := logged_controlNow s ty b; rw [h']
@[simp] theorem controlNow_unit (s : State) (ty : Nat) (b : Bytes) : (s.controlNow ty b).unit = s.unit := by
  obtain ⟨⟨_, _, _, _, _, _, _, _, _, _, _, _, _, _, _, h'⟩, _⟩ := logged_controlNow s ty b; rw [h']
@[simp] theorem controlNow_out (s : State) (ty : Nat) (b : Bytes) : (s.controlNow ty b).out = s.out := by
  obtain ⟨⟨_, _, _, _, _, _, _, _, _, _, _, _, _, _, _, h'⟩, _⟩ := logged_controlNow s ty b; rw [h']
@[simp] theorem controlNow_free (s : State) (ty : Nat) (b : Bytes) : (s.controlNow ty b).free = s.free := by
  obtain ⟨⟨_, _, _, _, _, _, _, _, _, _, _, _, _, _, _, h'⟩, _⟩ := logged_controlNow s ty b; rw [h']
@[simp] theorem controlNow_time (s : State) (ty : Nat) (b : Bytes) : (s.controlNow ty b).time = s.time := by
  obtain ⟨⟨_, _, _, _, _, _, _, _, _, _, _, _, _, _, _, h'⟩, _⟩ := logged_controlNow s ty b; rw [h']
@[simp] theorem controlNow_stg (s : State) (ty : Nat) (b : Bytes) : (s.controlNow ty b).stg = s.stg := by
  obtain ⟨⟨_, _, _, _, _, _, _, _, _, _, _, _, _, _, _, h'⟩, _⟩ := logged_controlNow s ty b; rw [h']
@[simp] theorem controlNow_tim (s : State) (ty : Nat) (b : Bytes) : (s.controlNow ty b).tim = s.tim := by
  obtain ⟨⟨_, _, _, _, _, _, _, _, _, _, _, _, _, _, _, h'⟩, _⟩ := logged_controlNow s ty b; rw [h']
@[simp] theorem controlNow_ports (s : State) (ty : Nat) (b : Bytes) : (s.controlNow ty b).ports = s.ports := by
  obtain ⟨⟨_, _, _, _, _, _, _, _, _, _, _, _, _, _, _, h'⟩, _⟩ := logged_controlNow s ty b; rw [h']
@[simp] theorem controlNow_nextPkt (s : State) (ty : Nat) (b : Bytes) : (s.controlNow ty b).nextPkt = s.nextPkt := by
  obtain ⟨⟨_, _, _, _, _, _, _, _, _, _, _, _, _, _, _, h'⟩, _⟩ := logged_controlNow s ty b; rw [h']
@[simp] theorem controlNow_nextRel (s : State) (ty : Nat) (b : Bytes) : (s.controlNow ty b).nextRel = s.nextRel := by
  obtain ⟨⟨_, _, _, _, _, _, _, _, _, _, _, _, _, _, _, h'⟩, _⟩ := logged_controlNow s ty b; rw [h']
@[simp] theorem controlNow_pkts (s : State) (ty : Nat) (b : Bytes) : (s.controlNow ty b).pkts = s.pkts := by
  obtain ⟨⟨_, _, _, _, _, _, _, _, _, _, _, _, _, _, _, h'⟩, _⟩ := logged_controlNow s ty b; rw [h']
@[simp] theorem controlNow_prs (s : State) (ty : Nat) (b : Bytes) : (s.controlNow ty b).prs = s.prs := by
  obtain ⟨⟨_, _, _, _, _, _, _, _, _, _, _, _, _, _, _, h'⟩, _⟩ := logged_controlNow s ty b; rw [h']
@[simp] theorem controlNow_tab (s : State) (ty : Nat) (b : Bytes) : (s.controlNow ty b).tab = s.tab := by
  obtain ⟨⟨_, _, _, _, _, _, _, _, _, _, _, _, _, _, _, h'⟩, _⟩ := logged_controlNow s ty b; rw [h']
@[simp] theorem controlNow_scp (s : State) (ty : Nat) (b : Bytes) : (s.controlNow ty b).scp = s.scp := by
  obtain ⟨⟨_, _, _, _, _, _, _, _, _, _, _, _, _, _, _, h'⟩, _⟩ := logged_controlNow s ty b; rw [h']
@[simp] theorem controlNow_que (s : State) (ty : Nat) (b : Bytes) : (s.controlNow ty b).que = s.que := by
  obtain ⟨⟨_, _, _, _, _, _, _, _, _, _, _, _, _, _, _, h'⟩, _⟩ := logged_controlNow s ty b; rw [h']
@[simp] theorem controlNow_mtr (s : State) (ty : Nat) (b : Bytes) : (s.controlNow ty b).mtr = s.mtr := by
  obtain ⟨⟨_, _, _, _, _, _, _, _, _, _, _, _, _, _, _, h'⟩, _⟩ := logged_controlNow s ty b; rw [h']
@[simp] theorem controlNow_egr (s : State) (ty : Nat) (b : Bytes) : (s.controlNow ty b).egr = s.egr := by
  obtain ⟨⟨_, _, _, _, _, _, _, _, _, _, _, _, _, _, _, h'⟩, _⟩ := logged_controlNow s ty b; rw [h']
@[simp] theorem controlNow_ver (s : State) (ty : Nat) (b : Bytes) : (s.controlNow ty b).ver = s.ver := by
  obtain ⟨⟨_, _, _, _, _, _, _, _, _, _, _, _, _, _, _, h'⟩, _⟩ := logged_controlNow s ty b; rw [h']
@[simp] theorem controlNow_tow (s : State) (ty : Nat) (b : Bytes) : (s.controlNow ty b).tow = s.tow := by
  obtain ⟨⟨_, _, _, _, _, _, _, _, _, _, _, _, _, _, _, h'⟩, _⟩ := logged_controlNow s ty b; rw [h']
@[simp] theorem controlNow_sec (s : State) (ty : Nat) (b : Bytes) : (s.controlNow ty b).sec = s.sec := by
  obtain ⟨⟨_, _, _, _, _, _, _, _, _, _, _, _, _, _, _, h'⟩, _⟩ := logged_controlNow s ty b; rw [h']
@[simp] theorem controlNow_boot (s : State) (ty : Nat) (b : Bytes) : (s.controlNow ty b).boot = s.boot := by
  obtain ⟨⟨_, _, _, _, _, _, _, _, _, _, _, _, _, _, _, h'⟩, _⟩ := logged_controlNow s ty b; rw [h']
@[simp] theorem controlNow_cnd (s : State) (ty : Nat) (b : Bytes) : (s.controlNow ty b).cnd = s.cnd := by
  obtain ⟨⟨_, _, _, _, _, _, _, _, _, _, _, _, _, _, _, h'⟩, _⟩ := logged_controlNow s ty b; rw [h']
@[simp] theorem controlNow_hbm (s : State) (ty : Nat) (b : Bytes) : (s.controlNow ty b).hbm = s.hbm := by
  obtain ⟨⟨_, _, _, _, _, _, _, _, _, _, _, _, _, _, _, h'⟩, _⟩ := logged_controlNow s ty b; rw [h']
@[simp] theorem controlNow_hif_fns (s : State) (ty : Nat) (b : Bytes) : (s.controlNow ty b).hif.fns = s.hif.fns := by
  obtain ⟨⟨_, _, _, _, _, _, _, _, _, _, _, _, _, _, _, h'⟩, _⟩ := logged_controlNow s ty b; rw [h']
@[simp] theorem controlNow_hif_chans (s : State) (ty : Nat) (b : Bytes) : (s.controlNow ty b).hif.chans = s.hif.chans := by
  obtain ⟨⟨_, _, _, _, _, _, _, _, _, _, _, _, _, _, _, h'⟩, _⟩ := logged_controlNow s ty b; rw [h']
@[simp] theorem controlNow_hif_keeperMem (s : State) (ty : Nat) (b : Bytes) : (s.controlNow ty b).hif.keeperMem = s.hif.keeperMem := by
  obtain ⟨⟨_, _, _, _, _, _, _, _, _, _, _, _, _, _, _, h'⟩, _⟩ := logged_controlNow s ty b; rw [h']
@[simp] theorem controlNow_hif_pushNext (s : State) (ty : Nat) (b : Bytes) : (s.controlNow ty b).hif.pushNext = s.hif.pushNext := by
  obtain ⟨⟨_, _, _, _, _, _, _, _, _, _, _, _, _, _, _, h'⟩, _⟩ := logged_controlNow s ty b; rw [h']
@[simp] theorem controlNow_hif_l12 (s : State) (ty : Nat) (b : Bytes) : (s.controlNow ty b).hif.l12 = s.hif.l12 := by
  obtain ⟨⟨_, _, _, _, _, _, _, _, _, _, _, _, _, _, _, h'⟩, _⟩ := logged_controlNow s ty b; rw [h']
@[simp] theorem controlNow_pmc_next (s : State) (ty : Nat) (b : Bytes) : (s.controlNow ty b).pmc.next = s.pmc.next := by
  obtain ⟨⟨_, _, _, _, _, _, _, _, _, _, _, _, _, _, _, h'⟩, _⟩ := logged_controlNow s ty b; rw [h']
@[simp] theorem controlNow_pmc_seq (s : State) (ty : Nat) (b : Bytes) : (s.controlNow ty b).pmc.seq = s.pmc.seq := by
  obtain ⟨⟨_, _, _, _, _, _, _, _, _, _, _, _, _, _, _, h'⟩, _⟩ := logged_controlNow s ty b; rw [h']
@[simp] theorem controlNow_pmc_skipped (s : State) (ty : Nat) (b : Bytes) : (s.controlNow ty b).pmc.skipped = s.pmc.skipped := by
  obtain ⟨⟨_, _, _, _, _, _, _, _, _, _, _, _, _, _, _, h'⟩, _⟩ := logged_controlNow s ty b; rw [h']
@[simp] theorem controlNow_pmc_posted (s : State) (ty : Nat) (b : Bytes) : (s.controlNow ty b).pmc.posted = s.pmc.posted := by
  obtain ⟨⟨_, _, _, _, _, _, _, _, _, _, _, _, _, _, _, h'⟩, _⟩ := logged_controlNow s ty b; rw [h']
@[simp] theorem controlNow_flt_testUntil (s : State) (ty : Nat) (b : Bytes) : (s.controlNow ty b).flt.testUntil = s.flt.testUntil := by
  obtain ⟨⟨_, _, _, _, _, _, _, _, _, _, _, _, _, _, _, h'⟩, _⟩ := logged_controlNow s ty b; rw [h']
@[simp] theorem controlNow_flt_ferry (s : State) (ty : Nat) (b : Bytes) : (s.controlNow ty b).flt.ferry = s.flt.ferry := by
  obtain ⟨⟨_, _, _, _, _, _, _, _, _, _, _, _, _, _, _, h'⟩, _⟩ := logged_controlNow s ty b; rw [h']

/-! ## setReady -/

@[simp] theorem setReady_pending (s : State) (i : Nat) (b : Bool) : (s.setReady i b).pending = s.pending := by
  unfold setReady; split
  · rfl
  · dsimp only; split <;> simp
@[simp] theorem setReady_pins (s : State) (i : Nat) (b : Bool) : (s.setReady i b).pins = s.pins := by
  unfold setReady; split
  · rfl
  · dsimp only; split <;> simp
@[simp] theorem setReady_unit (s : State) (i : Nat) (b : Bool) : (s.setReady i b).unit = s.unit := by
  unfold setReady; split
  · rfl
  · dsimp only; split <;> simp
@[simp] theorem setReady_out (s : State) (i : Nat) (b : Bool) : (s.setReady i b).out = s.out := by
  unfold setReady; split
  · rfl
  · dsimp only; split <;> simp
@[simp] theorem setReady_free (s : State) (i : Nat) (b : Bool) : (s.setReady i b).free = s.free := by
  unfold setReady; split
  · rfl
  · dsimp only; split <;> simp
@[simp] theorem setReady_time (s : State) (i : Nat) (b : Bool) : (s.setReady i b).time = s.time := by
  unfold setReady; split
  · rfl
  · dsimp only; split <;> simp
@[simp] theorem setReady_stg (s : State) (i : Nat) (b : Bool) : (s.setReady i b).stg = s.stg := by
  unfold setReady; split
  · rfl
  · dsimp only; split <;> simp
@[simp] theorem setReady_tim (s : State) (i : Nat) (b : Bool) : (s.setReady i b).tim = s.tim := by
  unfold setReady; split
  · rfl
  · dsimp only; split <;> simp
@[simp] theorem setReady_ports (s : State) (i : Nat) (b : Bool) : (s.setReady i b).ports = s.ports := by
  unfold setReady; split
  · rfl
  · dsimp only; split <;> simp
@[simp] theorem setReady_nextPkt (s : State) (i : Nat) (b : Bool) : (s.setReady i b).nextPkt = s.nextPkt := by
  unfold setReady; split
  · rfl
  · dsimp only; split <;> simp
@[simp] theorem setReady_nextRel (s : State) (i : Nat) (b : Bool) : (s.setReady i b).nextRel = s.nextRel := by
  unfold setReady; split
  · rfl
  · dsimp only; split <;> simp
@[simp] theorem setReady_pkts (s : State) (i : Nat) (b : Bool) : (s.setReady i b).pkts = s.pkts := by
  unfold setReady; split
  · rfl
  · dsimp only; split <;> simp
@[simp] theorem setReady_prs (s : State) (i : Nat) (b : Bool) : (s.setReady i b).prs = s.prs := by
  unfold setReady; split
  · rfl
  · dsimp only; split <;> simp
@[simp] theorem setReady_tab (s : State) (i : Nat) (b : Bool) : (s.setReady i b).tab = s.tab := by
  unfold setReady; split
  · rfl
  · dsimp only; split <;> simp
@[simp] theorem setReady_scp (s : State) (i : Nat) (b : Bool) : (s.setReady i b).scp = s.scp := by
  unfold setReady; split
  · rfl
  · dsimp only; split <;> simp
@[simp] theorem setReady_que (s : State) (i : Nat) (b : Bool) : (s.setReady i b).que = s.que := by
  unfold setReady; split
  · rfl
  · dsimp only; split <;> simp
@[simp] theorem setReady_mtr (s : State) (i : Nat) (b : Bool) : (s.setReady i b).mtr = s.mtr := by
  unfold setReady; split
  · rfl
  · dsimp only; split <;> simp
@[simp] theorem setReady_egr (s : State) (i : Nat) (b : Bool) : (s.setReady i b).egr = s.egr := by
  unfold setReady; split
  · rfl
  · dsimp only; split <;> simp
@[simp] theorem setReady_ver (s : State) (i : Nat) (b : Bool) : (s.setReady i b).ver = s.ver := by
  unfold setReady; split
  · rfl
  · dsimp only; split <;> simp
@[simp] theorem setReady_tow (s : State) (i : Nat) (b : Bool) : (s.setReady i b).tow = s.tow := by
  unfold setReady; split
  · rfl
  · dsimp only; split <;> simp
@[simp] theorem setReady_wit (s : State) (i : Nat) (b : Bool) : (s.setReady i b).wit = s.wit := by
  unfold setReady; split
  · rfl
  · dsimp only; split <;> simp
@[simp] theorem setReady_sec (s : State) (i : Nat) (b : Bool) : (s.setReady i b).sec = s.sec := by
  unfold setReady; split
  · rfl
  · dsimp only; split <;> simp
@[simp] theorem setReady_boot (s : State) (i : Nat) (b : Bool) : (s.setReady i b).boot = s.boot := by
  unfold setReady; split
  · rfl
  · dsimp only; split <;> simp
@[simp] theorem setReady_hbm (s : State) (i : Nat) (b : Bool) : (s.setReady i b).hbm = s.hbm := by
  unfold setReady; split
  · rfl
  · dsimp only; split <;> simp

@[simp] theorem setReady_hif_fns (s : State) (i : Nat) (b : Bool) : (s.setReady i b).hif.fns = s.hif.fns := by
  unfold setReady; split
  · rfl
  · dsimp only; split <;> simp
@[simp] theorem setReady_hif_chans (s : State) (i : Nat) (b : Bool) : (s.setReady i b).hif.chans = s.hif.chans := by
  unfold setReady; split
  · rfl
  · dsimp only; split <;> simp
@[simp] theorem setReady_hif_keeperMem (s : State) (i : Nat) (b : Bool) : (s.setReady i b).hif.keeperMem = s.hif.keeperMem := by
  unfold setReady; split
  · rfl
  · dsimp only; split <;> simp
@[simp] theorem setReady_hif_pushNext (s : State) (i : Nat) (b : Bool) : (s.setReady i b).hif.pushNext = s.hif.pushNext := by
  unfold setReady; split
  · rfl
  · dsimp only; split <;> simp
@[simp] theorem setReady_hif_l12 (s : State) (i : Nat) (b : Bool) : (s.setReady i b).hif.l12 = s.hif.l12 := by
  unfold setReady; split
  · rfl
  · dsimp only; split <;> simp
@[simp] theorem setReady_pmc_next (s : State) (i : Nat) (b : Bool) : (s.setReady i b).pmc.next = s.pmc.next := by
  unfold setReady; split
  · rfl
  · dsimp only; split <;> simp
@[simp] theorem setReady_pmc_seq (s : State) (i : Nat) (b : Bool) : (s.setReady i b).pmc.seq = s.pmc.seq := by
  unfold setReady; split
  · rfl
  · dsimp only; split <;> simp
@[simp] theorem setReady_pmc_skipped (s : State) (i : Nat) (b : Bool) : (s.setReady i b).pmc.skipped = s.pmc.skipped := by
  unfold setReady; split
  · rfl
  · dsimp only; split <;> simp
@[simp] theorem setReady_pmc_posted (s : State) (i : Nat) (b : Bool) : (s.setReady i b).pmc.posted = s.pmc.posted := by
  unfold setReady; split
  · rfl
  · dsimp only; split <;> simp
@[simp] theorem setReady_pmc_running (s : State) (i : Nat) (b : Bool) : (s.setReady i b).pmc.running = s.pmc.running := by
  unfold setReady; split
  · rfl
  · dsimp only; split <;> simp
@[simp] theorem setReady_pmc_spans (s : State) (i : Nat) (b : Bool) : (s.setReady i b).pmc.spans = s.pmc.spans := by
  unfold setReady; split
  · rfl
  · dsimp only; split <;> simp
@[simp] theorem setReady_flt_testUntil (s : State) (i : Nat) (b : Bool) : (s.setReady i b).flt.testUntil = s.flt.testUntil := by
  unfold setReady; split
  · rfl
  · dsimp only; split <;> simp
@[simp] theorem setReady_flt_ferry (s : State) (i : Nat) (b : Bool) : (s.setReady i b).flt.ferry = s.flt.ferry := by
  unfold setReady; split
  · rfl
  · dsimp only; split <;> simp
/-! ## touch -/

@[simp] theorem touch_pending (s : State) (by_ : Agent) : (s.touch by_).pending = s.pending := by
  unfold touch; split <;> rfl
@[simp] theorem touch_pins (s : State) (by_ : Agent) : (s.touch by_).pins = s.pins := by
  unfold touch; split <;> rfl
@[simp] theorem touch_unit (s : State) (by_ : Agent) : (s.touch by_).unit = s.unit := by
  unfold touch; split <;> rfl
@[simp] theorem touch_out (s : State) (by_ : Agent) : (s.touch by_).out = s.out := by
  unfold touch; split <;> rfl
@[simp] theorem touch_free (s : State) (by_ : Agent) : (s.touch by_).free = s.free := by
  unfold touch; split <;> rfl
@[simp] theorem touch_time (s : State) (by_ : Agent) : (s.touch by_).time = s.time := by
  unfold touch; split <;> rfl
@[simp] theorem touch_regs1 (s : State) (by_ : Agent) : (s.touch by_).regs = s.regs := by
  unfold touch; split <;> rfl
@[simp] theorem touch_stg (s : State) (by_ : Agent) : (s.touch by_).stg = s.stg := by
  unfold touch; split <;> rfl
@[simp] theorem touch_tim (s : State) (by_ : Agent) : (s.touch by_).tim = s.tim := by
  unfold touch; split <;> rfl
@[simp] theorem touch_ports (s : State) (by_ : Agent) : (s.touch by_).ports = s.ports := by
  unfold touch; split <;> rfl
@[simp] theorem touch_nextPkt (s : State) (by_ : Agent) : (s.touch by_).nextPkt = s.nextPkt := by
  unfold touch; split <;> rfl
@[simp] theorem touch_nextRel (s : State) (by_ : Agent) : (s.touch by_).nextRel = s.nextRel := by
  unfold touch; split <;> rfl
@[simp] theorem touch_pkts (s : State) (by_ : Agent) : (s.touch by_).pkts = s.pkts := by
  unfold touch; split <;> rfl
@[simp] theorem touch_prs (s : State) (by_ : Agent) : (s.touch by_).prs = s.prs := by
  unfold touch; split <;> rfl
@[simp] theorem touch_tab (s : State) (by_ : Agent) : (s.touch by_).tab = s.tab := by
  unfold touch; split <;> rfl
@[simp] theorem touch_scp (s : State) (by_ : Agent) : (s.touch by_).scp = s.scp := by
  unfold touch; split <;> rfl
@[simp] theorem touch_que (s : State) (by_ : Agent) : (s.touch by_).que = s.que := by
  unfold touch; split <;> rfl
@[simp] theorem touch_mtr (s : State) (by_ : Agent) : (s.touch by_).mtr = s.mtr := by
  unfold touch; split <;> rfl
@[simp] theorem touch_egr (s : State) (by_ : Agent) : (s.touch by_).egr = s.egr := by
  unfold touch; split <;> rfl
@[simp] theorem touch_ver (s : State) (by_ : Agent) : (s.touch by_).ver = s.ver := by
  unfold touch; split <;> rfl
@[simp] theorem touch_tow (s : State) (by_ : Agent) : (s.touch by_).tow = s.tow := by
  unfold touch; split <;> rfl
@[simp] theorem touch_wit (s : State) (by_ : Agent) : (s.touch by_).wit = s.wit := by
  unfold touch; split <;> rfl
@[simp] theorem touch_boot (s : State) (by_ : Agent) : (s.touch by_).boot = s.boot := by
  unfold touch; split <;> rfl
@[simp] theorem touch_hif (s : State) (by_ : Agent) : (s.touch by_).hif = s.hif := by
  unfold touch; split <;> rfl
@[simp] theorem touch_flt (s : State) (by_ : Agent) : (s.touch by_).flt = s.flt := by
  unfold touch; split <;> rfl
@[simp] theorem touch_cnd (s : State) (by_ : Agent) : (s.touch by_).cnd = s.cnd := by
  unfold touch; split <;> rfl
@[simp] theorem touch_kpr (s : State) (by_ : Agent) : (s.touch by_).kpr = s.kpr := by
  unfold touch; split <;> rfl
@[simp] theorem touch_pmc (s : State) (by_ : Agent) : (s.touch by_).pmc = s.pmc := by
  unfold touch; split <;> rfl
@[simp] theorem touch_hbm (s : State) (by_ : Agent) : (s.touch by_).hbm = s.hbm := by
  unfold touch; split <;> rfl

theorem deny_fields (s : State) (r k a : Nat) : s.raisedFields (s.deny r k a) := by
  have h := raisedFields_trans (raisedFields_trans (raisedFields_trans (count_fields s (Ctr.SEC_DENIED_CNT (7 * r + (k - 1))) 1)
    (setFld_fields _ Reg.SEC_DENY F.SEC_DENY.ROLE r)) (setFld_fields _ Reg.SEC_DENY F.SEC_DENY.KIND k))
    (setFld_fields _ Reg.SEC_DENY F.SEC_DENY.ADDR a)
  unfold deny
  dsimp only
  split
  · exact h
  · exact raisedFields_trans (raisedFields_trans h (setFld_fields _ _ _ _)) (raise_fields _ _ _)

/-! ## deny -/

@[simp] theorem deny_pending (s : State) (r k a : Nat) : (s.deny r k a).pending = s.pending := by
  obtain ⟨_, _, _, _, _, _, _, _, _, _, _, _, h⟩ := deny_fields s r k a; rw [h]
@[simp] theorem deny_pins (s : State) (r k a : Nat) : (s.deny r k a).pins = s.pins := by
  obtain ⟨_, _, _, _, _, _, _, _, _, _, _, _, h⟩ := deny_fields s r k a; rw [h]
@[simp] theorem deny_unit (s : State) (r k a : Nat) : (s.deny r k a).unit = s.unit := by
  obtain ⟨_, _, _, _, _, _, _, _, _, _, _, _, h⟩ := deny_fields s r k a; rw [h]
@[simp] theorem deny_out (s : State) (r k a : Nat) : (s.deny r k a).out = s.out := by
  obtain ⟨_, _, _, _, _, _, _, _, _, _, _, _, h⟩ := deny_fields s r k a; rw [h]
@[simp] theorem deny_free (s : State) (r k a : Nat) : (s.deny r k a).free = s.free := by
  obtain ⟨_, _, _, _, _, _, _, _, _, _, _, _, h⟩ := deny_fields s r k a; rw [h]
@[simp] theorem deny_time (s : State) (r k a : Nat) : (s.deny r k a).time = s.time := by
  obtain ⟨_, _, _, _, _, _, _, _, _, _, _, _, h⟩ := deny_fields s r k a; rw [h]
@[simp] theorem deny_stg (s : State) (r k a : Nat) : (s.deny r k a).stg = s.stg := by
  obtain ⟨_, _, _, _, _, _, _, _, _, _, _, _, h⟩ := deny_fields s r k a; rw [h]
@[simp] theorem deny_tim (s : State) (r k a : Nat) : (s.deny r k a).tim = s.tim := by
  obtain ⟨_, _, _, _, _, _, _, _, _, _, _, _, h⟩ := deny_fields s r k a; rw [h]
@[simp] theorem deny_ports (s : State) (r k a : Nat) : (s.deny r k a).ports = s.ports := by
  obtain ⟨_, _, _, _, _, _, _, _, _, _, _, _, h⟩ := deny_fields s r k a; rw [h]
@[simp] theorem deny_nextPkt (s : State) (r k a : Nat) : (s.deny r k a).nextPkt = s.nextPkt := by
  obtain ⟨_, _, _, _, _, _, _, _, _, _, _, _, h⟩ := deny_fields s r k a; rw [h]
@[simp] theorem deny_nextRel (s : State) (r k a : Nat) : (s.deny r k a).nextRel = s.nextRel := by
  obtain ⟨_, _, _, _, _, _, _, _, _, _, _, _, h⟩ := deny_fields s r k a; rw [h]
@[simp] theorem deny_pkts (s : State) (r k a : Nat) : (s.deny r k a).pkts = s.pkts := by
  obtain ⟨_, _, _, _, _, _, _, _, _, _, _, _, h⟩ := deny_fields s r k a; rw [h]
@[simp] theorem deny_prs (s : State) (r k a : Nat) : (s.deny r k a).prs = s.prs := by
  obtain ⟨_, _, _, _, _, _, _, _, _, _, _, _, h⟩ := deny_fields s r k a; rw [h]
@[simp] theorem deny_tab (s : State) (r k a : Nat) : (s.deny r k a).tab = s.tab := by
  obtain ⟨_, _, _, _, _, _, _, _, _, _, _, _, h⟩ := deny_fields s r k a; rw [h]
@[simp] theorem deny_scp (s : State) (r k a : Nat) : (s.deny r k a).scp = s.scp := by
  obtain ⟨_, _, _, _, _, _, _, _, _, _, _, _, h⟩ := deny_fields s r k a; rw [h]
@[simp] theorem deny_que (s : State) (r k a : Nat) : (s.deny r k a).que = s.que := by
  obtain ⟨_, _, _, _, _, _, _, _, _, _, _, _, h⟩ := deny_fields s r k a; rw [h]
@[simp] theorem deny_mtr (s : State) (r k a : Nat) : (s.deny r k a).mtr = s.mtr := by
  obtain ⟨_, _, _, _, _, _, _, _, _, _, _, _, h⟩ := deny_fields s r k a; rw [h]
@[simp] theorem deny_egr (s : State) (r k a : Nat) : (s.deny r k a).egr = s.egr := by
  obtain ⟨_, _, _, _, _, _, _, _, _, _, _, _, h⟩ := deny_fields s r k a; rw [h]
@[simp] theorem deny_ver (s : State) (r k a : Nat) : (s.deny r k a).ver = s.ver := by
  obtain ⟨_, _, _, _, _, _, _, _, _, _, _, _, h⟩ := deny_fields s r k a; rw [h]
@[simp] theorem deny_tow (s : State) (r k a : Nat) : (s.deny r k a).tow = s.tow := by
  obtain ⟨_, _, _, _, _, _, _, _, _, _, _, _, h⟩ := deny_fields s r k a; rw [h]
@[simp] theorem deny_wit (s : State) (r k a : Nat) : (s.deny r k a).wit = s.wit := by
  obtain ⟨_, _, _, _, _, _, _, _, _, _, _, _, h⟩ := deny_fields s r k a; rw [h]
@[simp] theorem deny_sec (s : State) (r k a : Nat) : (s.deny r k a).sec = s.sec := by
  obtain ⟨_, _, _, _, _, _, _, _, _, _, _, _, h⟩ := deny_fields s r k a; rw [h]
@[simp] theorem deny_boot (s : State) (r k a : Nat) : (s.deny r k a).boot = s.boot := by
  obtain ⟨_, _, _, _, _, _, _, _, _, _, _, _, h⟩ := deny_fields s r k a; rw [h]
@[simp] theorem deny_cnd (s : State) (r k a : Nat) : (s.deny r k a).cnd = s.cnd := by
  obtain ⟨_, _, _, _, _, _, _, _, _, _, _, _, h⟩ := deny_fields s r k a; rw [h]
@[simp] theorem deny_hbm (s : State) (r k a : Nat) : (s.deny r k a).hbm = s.hbm := by
  obtain ⟨_, _, _, _, _, _, _, _, _, _, _, _, h⟩ := deny_fields s r k a; rw [h]
@[simp] theorem deny_hif_fns (s : State) (r k a : Nat) : (s.deny r k a).hif.fns = s.hif.fns := by
  obtain ⟨_, _, _, _, _, _, _, _, _, _, _, _, h'⟩ := deny_fields s r k a; rw [h']
@[simp] theorem deny_hif_chans (s : State) (r k a : Nat) : (s.deny r k a).hif.chans = s.hif.chans := by
  obtain ⟨_, _, _, _, _, _, _, _, _, _, _, _, h'⟩ := deny_fields s r k a; rw [h']
@[simp] theorem deny_hif_keeperMem (s : State) (r k a : Nat) : (s.deny r k a).hif.keeperMem = s.hif.keeperMem := by
  obtain ⟨_, _, _, _, _, _, _, _, _, _, _, _, h'⟩ := deny_fields s r k a; rw [h']
@[simp] theorem deny_hif_pushNext (s : State) (r k a : Nat) : (s.deny r k a).hif.pushNext = s.hif.pushNext := by
  obtain ⟨_, _, _, _, _, _, _, _, _, _, _, _, h'⟩ := deny_fields s r k a; rw [h']
@[simp] theorem deny_hif_l12 (s : State) (r k a : Nat) : (s.deny r k a).hif.l12 = s.hif.l12 := by
  obtain ⟨_, _, _, _, _, _, _, _, _, _, _, _, h'⟩ := deny_fields s r k a; rw [h']
@[simp] theorem deny_pmc_next (s : State) (r k a : Nat) : (s.deny r k a).pmc.next = s.pmc.next := by
  obtain ⟨_, _, _, _, _, _, _, _, _, _, _, _, h'⟩ := deny_fields s r k a; rw [h']
@[simp] theorem deny_pmc_seq (s : State) (r k a : Nat) : (s.deny r k a).pmc.seq = s.pmc.seq := by
  obtain ⟨_, _, _, _, _, _, _, _, _, _, _, _, h'⟩ := deny_fields s r k a; rw [h']
@[simp] theorem deny_pmc_skipped (s : State) (r k a : Nat) : (s.deny r k a).pmc.skipped = s.pmc.skipped := by
  obtain ⟨_, _, _, _, _, _, _, _, _, _, _, _, h'⟩ := deny_fields s r k a; rw [h']
@[simp] theorem deny_pmc_posted (s : State) (r k a : Nat) : (s.deny r k a).pmc.posted = s.pmc.posted := by
  obtain ⟨_, _, _, _, _, _, _, _, _, _, _, _, h'⟩ := deny_fields s r k a; rw [h']
@[simp] theorem deny_pmc_running (s : State) (r k a : Nat) : (s.deny r k a).pmc.running = s.pmc.running := by
  obtain ⟨_, _, _, _, _, _, _, _, _, _, _, _, h'⟩ := deny_fields s r k a; rw [h']
@[simp] theorem deny_pmc_spans (s : State) (r k a : Nat) : (s.deny r k a).pmc.spans = s.pmc.spans := by
  obtain ⟨_, _, _, _, _, _, _, _, _, _, _, _, h'⟩ := deny_fields s r k a; rw [h']
@[simp] theorem deny_flt_testUntil (s : State) (r k a : Nat) : (s.deny r k a).flt.testUntil = s.flt.testUntil := by
  obtain ⟨_, _, _, _, _, _, _, _, _, _, _, _, h'⟩ := deny_fields s r k a; rw [h']
@[simp] theorem deny_flt_ferry (s : State) (r k a : Nat) : (s.deny r k a).flt.ferry = s.flt.ferry := by
  obtain ⟨_, _, _, _, _, _, _, _, _, _, _, _, h'⟩ := deny_fields s r k a; rw [h']

/-! ## Registers -/

theorem raise_fld (s : State) (n p off : Nat) (f : Fld) (h : n < 1536) (ho : ¬ raiseRegion off) :
    (s.raise n p).fld off f = s.fld off f := by unfold fld; rw [raise_rd s n p off h ho]

theorem raise_tq (s : State) (n p : Nat) (h : n < 1536) : (s.raise n p).tq = s.tq := raise_fld s n p _ _ h (by decide)

theorem control_rd (s : State) (st ty : Nat) (b : Bytes) (t : Stamp) (off : Nat) (h : st < 32) (ho : ¬ logRegion off) :
    (s.control st ty b t).rd off = s.rd off := (logged_control s st ty b t h).2 off ho

theorem control_fld (s : State) (st ty : Nat) (b : Bytes) (t : Stamp) (off : Nat) (f : Fld) (h : st < 32) (ho : ¬ logRegion off) :
    (s.control st ty b t).fld off f = s.fld off f := by unfold fld; rw [control_rd s st ty b t off h ho]

theorem controlNow_rd (s : State) (ty : Nat) (b : Bytes) (off : Nat) (ho : ¬ logRegion off) :
    (s.controlNow ty b).rd off = s.rd off := (logged_controlNow s ty b).2 off ho

theorem controlNow_fld (s : State) (ty : Nat) (b : Bytes) (off : Nat) (f : Fld) (ho : ¬ logRegion off) :
    (s.controlNow ty b).fld off f = s.fld off f := by unfold fld; rw [controlNow_rd s ty b off ho]

@[simp] theorem touch_rd (s : State) (by_ : Agent) (off : Nat) : (s.touch by_).rd off = s.rd off := by
  unfold rd; rw [touch_regs]

@[simp] theorem touch_fld (s : State) (by_ : Agent) (off : Nat) (f : Fld) : (s.touch by_).fld off f = s.fld off f := by
  unfold fld; rw [touch_rd]

@[simp] theorem touch_flag (s : State) (by_ : Agent) (off : Nat) (f : Fld) : (s.touch by_).flag off f = s.flag off f := by
  unfold flag; rw [touch_fld]

@[simp] theorem touch_tq (s : State) (by_ : Agent) : (s.touch by_).tq = s.tq := touch_fld s by_ _ _
@[simp] theorem touch_now (s : State) (by_ : Agent) : (s.touch by_).now = s.now := by unfold now; rw [touch_time]
@[simp] theorem touch_cfg (s : State) (by_ : Agent) (off : Nat) : (s.touch by_).cfg off = s.cfg off := by
  unfold cfg withStg; rw [touch_rd, touch_stg]
@[simp] theorem touch_cfgFld (s : State) (by_ : Agent) (off : Nat) (f : Fld) : (s.touch by_).cfgFld off f = s.cfgFld off f := by
  unfold cfgFld; rw [touch_cfg]
@[simp] theorem touch_cfgFlag (s : State) (by_ : Agent) (off : Nat) (f : Fld) : (s.touch by_).cfgFlag off f = s.cfgFlag off f := by
  unfold cfgFlag; rw [touch_cfgFld]
@[simp] theorem touch_isWarden (s : State) (a b : Agent) : (s.touch a).isWarden b = s.isWarden b := by
  unfold isWarden roleOf; cases b <;> simp

end Sys2Proof.Machine.State
end

