-- ==== Sys2Proof/Laws/Time.lean ====
section
/-! SUPPORT. What a change of the time state can change. -/
namespace Sys2Proof.Machine.State

/-- The offsets that a change of the time state may write: CFG_READY, TIM_STATE, block PRT, and what the witness writes. -/
abbrev timeRegion (off : Nat) : Prop :=
  off = Reg.CFG_READY ∨ off = Reg.TIM_STATE ∨ (0x400000 ≤ off ∧ off < 0x600000) ∨ logRegion off

/-- `t` differs from `s` in nothing but what a change of the time state changes; the TIM state's record of the last update, the
references, the inputs and outputs, the slew, the lamps and the calibration are not among it. -/
def timed (s t : State) : Prop :=
  (∃ regs ctr samplers spans running snap msgs conds queues kpr faults due chipDue lastAt wit egr cnd inTrack overThresh holdEntry holdWts,
      t = { s with
        kpr := kpr, wit := wit, egr := egr, regs := regs, cnd := cnd,
        pmc := { s.pmc with ctr := ctr, samplers := samplers, spans := spans, running := running, snap := snap },
        hif := { s.hif with msgs := msgs, conds := conds, queues := queues },
        flt := { s.flt with faults := faults, due := due, chipDue := chipDue, lastAt := lastAt },
        tim := { s.tim with inTrack := inTrack, overThresh := overThresh, holdEntry := holdEntry, holdWts := holdWts } })
    ∧ ∀ off, ¬ timeRegion off → t.rd off = s.rd off

theorem timed_refl (s : State) : s.timed s := ⟨⟨_, _, _, _, _, _, _, _, _, _, _, _, _, _, _, _, _, _, _, _, _, rfl⟩, fun _ _ => rfl⟩

theorem timed_trans {s t u : State} (h1 : s.timed t) (h2 : t.timed u) : s.timed u := by
  obtain ⟨⟨_, _, _, _, _, _, _, _, _, _, _, _, _, _, _, _, _, _, _, _, _, rfl⟩, h1⟩ := h1
  obtain ⟨⟨_, _, _, _, _, _, _, _, _, _, _, _, _, _, _, _, _, _, _, _, _, rfl⟩, h2⟩ := h2
  exact ⟨⟨_, _, _, _, _, _, _, _, _, _, _, _, _, _, _, _, _, _, _, _, _, rfl⟩, fun off ho => (h2 off ho).trans (h1 off ho)⟩

theorem timed_of_logged {s t : State} (h : s.logged t) : s.timed t := by
  obtain ⟨⟨_, _, _, _, _, _, _, _, _, _, _, _, _, _, _, rfl⟩, h⟩ := h
  exact ⟨⟨_, _, _, _, _, _, _, _, _, _, _, _, _, _, _, _, _, _, _, _, _, rfl⟩, fun off ho => h off (fun hr => ho (Or.inr (Or.inr (Or.inr hr))))⟩

theorem timed_ite (c : Prop) [Decidable c] {s a b : State} (ha : s.timed a) (hb : s.timed b) : s.timed (if c then a else b) := by
  split
  · exact ha
  · exact hb

theorem timed_raise (s : State) (n p : Nat) (h : n < 1536) : s.timed (s.raise n p) := timed_of_logged (logged_raise s n p h)

theorem timed_setFld (s : State) (off : Nat) (f : Fld) (v : Nat) (h : timeRegion off) : s.timed (s.setFld off f v) :=
  ⟨⟨_, _, _, _, _, _, _, _, _, _, _, _, _, _, _, _, _, _, _, _, _, rfl⟩, fun o ho => rd_setFld_other s off o f v (fun e => ho (e ▸ h))⟩

theorem timed_putBit (s : State) (off i : Nat) (b : Bool) (h : timeRegion off) : s.timed (s.putBit off i b) :=
  ⟨⟨_, _, _, _, _, _, _, _, _, _, _, _, _, _, _, _, _, _, _, _, _, rfl⟩, fun o ho => rd_wr_other s off o _ (fun e => ho (e ▸ h))⟩

theorem timed_foldl {α : Type} (f : State → α → State) (l : List α) (s : State) (h : ∀ a ∈ l, ∀ t : State, t.timed (f t a)) :
    s.timed (l.foldl f s) := by
  induction l generalizing s with
  | nil => exact timed_refl s
  | cons a l ih => exact timed_trans (h a List.mem_cons_self s) (ih (f s a) (fun b hb => h b (List.mem_cons_of_mem _ hb)))

theorem timed_cnd (s : State) (x : CndState) : s.timed { s with cnd := x } :=
  ⟨⟨_, _, _, _, _, _, _, _, _, _, _, _, _, _, _, _, _, _, _, _, _, rfl⟩, fun _ _ => rfl⟩

theorem timed_setReady (s : State) (i : Nat) (b : Bool) (h : i < 64) : s.timed (s.setReady i b) := by
  unfold setReady
  split
  · exact timed_refl s
  · dsimp only
    have h0 : s.timed (if (i == 5 && b) = true then { s with cnd := { s.cnd with asked := true } } else s) :=
      timed_ite _ (timed_cnd s _) (timed_refl s)
    generalize (if (i == 5 && b) = true then { s with cnd := { s.cnd with asked := true } } else s) = t at h0 ⊢
    exact timed_trans h0 (timed_trans (timed_putBit t _ _ _ (Or.inl rfl)) (timed_raise _ _ _ (by unfold Src.CFG_READY_BIT; omega)))

theorem prtStatus_region (p : Nat) (h : p < 514) : timeRegion (Reg.PRT_STATUS p) := by
  refine Or.inr (Or.inr (Or.inl ?_))
  unfold Reg.PRT_STATUS page
  split <;> omega

theorem timed_loseAlignment (s : State) : s.timed s.loseAlignment :=
  timed_foldl _ _ _ (fun p hp t => timed_ite _
    (timed_trans (timed_setFld t _ _ _ (prtStatus_region p (List.mem_range.mp hp))) (timed_raise _ _ _ (by decide)))
    (timed_refl t))

theorem timed_anchorAll (s : State) : s.timed s.anchorAll :=
  timed_foldl _ _ _ (fun p hp t => timed_ite _ (timed_setFld t _ _ _ (prtStatus_region p (List.mem_range.mp hp))) (timed_refl t))

theorem logged_noteTime (s : State) (o : Nat) (b : Stamp) (ns : Nat) (x : Bool) : s.logged (s.noteTime o b ns x) := by
  unfold noteTime
  exact logged_trans (logged_controlNow _ _ _) (logged_raise _ _ _ (by decide))

theorem timed_noteTime (s : State) (o : Nat) (b : Stamp) (ns : Nat) (x : Bool) : s.timed (s.noteTime o b ns x) :=
  timed_of_logged (logged_noteTime s o b ns x)

theorem timed_egr (s : State) (e : EgrState) : s.timed { s with egr := e } :=
  ⟨⟨_, _, _, _, _, _, _, _, _, _, _, _, _, _, _, _, _, _, _, _, _, rfl⟩, fun _ _ => rfl⟩

/-! ## What the time state reads -/

/-- A property that each step of a fold keeps holds after it. -/
theorem foldl_keeps {α : Type} (P : State → Prop) (f : State → α → State) (l : List α) (s : State) (hs : P s)
    (h : ∀ a ∈ l, ∀ t : State, P t → P (f t a)) : P (l.foldl f s) := by
  induction l generalizing s with
  | nil => exact hs
  | cons a l ih => exact ih (f s a) (h a List.mem_cons_self s hs) (fun b hb => h b (List.mem_cons_of_mem _ hb))

theorem prtStatus_ge (p : Nat) : 0x400000 ≤ Reg.PRT_STATUS p := by unfold Reg.PRT_STATUS; omega

theorem loseAlignment_timState (s : State) : s.loseAlignment.rd Reg.TIM_STATE = s.rd Reg.TIM_STATE := by
  unfold loseAlignment
  refine foldl_keeps (fun t => t.rd Reg.TIM_STATE = s.rd Reg.TIM_STATE) _ _ s rfl (fun p _ t ht => ?_)
  have hp := prtStatus_ge p
  split
  · rw [raise_rd _ _ _ _ (by decide) (by decide), rd_setFld_other _ _ _ _ _ (by unfold Reg.TIM_STATE; omega), ht]
  · exact ht

theorem anchorAll_timState (s : State) : s.anchorAll.rd Reg.TIM_STATE = s.rd Reg.TIM_STATE := by
  unfold anchorAll
  refine foldl_keeps (fun t => t.rd Reg.TIM_STATE = s.rd Reg.TIM_STATE) _ _ s rfl (fun p _ t ht => ?_)
  have hp := prtStatus_ge p
  split
  · rw [rd_setFld_other _ _ _ _ _ (by unfold Reg.TIM_STATE; omega), ht]
  · exact ht

theorem setReady_rd (s : State) (i : Nat) (b : Bool) (off : Nat) (h : i < 64) (h1 : off ≠ Reg.CFG_READY) (h2 : ¬ raiseRegion off) :
    (s.setReady i b).rd off = s.rd off := by
  unfold setReady
  split
  · rfl
  · dsimp only
    rw [raise_rd _ _ _ _ (by unfold Src.CFG_READY_BIT; omega) h2]
    refine (rd_wr_other _ _ _ _ h1).trans ?_
    split
    · rfl
    · rfl

theorem noteTime_rd (s : State) (o : Nat) (b : Stamp) (ns : Nat) (x : Bool) (off : Nat) (h : ¬ logRegion off) :
    (s.noteTime o b ns x).rd off = s.rd off := (logged_noteTime s o b ns x).2 off h

/-- What entering a time state leaves TIM_STATE: TQ and LOCK_ACTIVE written, nothing else. -/
theorem enterTq_timState (s : State) (q : Nat) :
    ∃ v, (s.enterTq q).rd Reg.TIM_STATE = ((s.setFld Reg.TIM_STATE F.TIM_STATE.TQ q).setFld Reg.TIM_STATE F.TIM_STATE.LOCK_ACTIVE v).rd Reg.TIM_STATE
      ∨ (s.enterTq q).rd Reg.TIM_STATE = (s.setFld Reg.TIM_STATE F.TIM_STATE.TQ q).rd Reg.TIM_STATE := by
  unfold enterTq
  dsimp only
  have x1 : ∀ t : State, (t.setReady 6 (decide (2 ≤ q))).rd Reg.TIM_STATE = t.rd Reg.TIM_STATE :=
    fun t => setReady_rd _ _ _ _ (by decide) (by decide) (by decide)
  have x2 : ∀ (t : State) (c d : Prop) [Decidable c] [Decidable d],
      (if c then t.loseAlignment else if d then t.anchorAll else t).rd Reg.TIM_STATE = t.rd Reg.TIM_STATE := by
    intro t c d _ _
    split
    · exact loseAlignment_timState t
    · split
      · exact anchorAll_timState t
      · rfl
  have x3 : ∀ (t : State) (c d : Bool),
      (if c = true then { t with egr := { t.egr with lockSince := t.now } } else if d = true then t.releaseLocks else t).rd Reg.TIM_STATE
        = t.rd Reg.TIM_STATE := by
    intro t c d
    split
    · rfl
    · split
      · rfl
      · rfl
  rw [x2, x1]
  refine (?_ : ∃ v, _ ∨ _)
  by_cases h1 : q = 2 ∨ q = 3
  · exact ⟨1, Or.inl ((x3 _ _ _).trans (by rw [if_pos h1]))⟩
  · by_cases h2 : q ≤ 1
    · exact ⟨0, Or.inl ((x3 _ _ _).trans (by rw [if_neg h1, if_pos h2]))⟩
    · exact ⟨0, Or.inr ((x3 _ _ _).trans (by rw [if_neg h1, if_neg h2]))⟩

theorem enterTq_refInUse (s : State) (q : Nat) : (s.enterTq q).refInUse = s.refInUse := by
  have e : ∀ a b : State, a.rd Reg.TIM_STATE = b.rd Reg.TIM_STATE → a.refInUse = b.refInUse := fun a b h => by
    unfold refInUse fld; rw [h]
  have w : ∀ (t : State) v, (t.setFld Reg.TIM_STATE F.TIM_STATE.TQ v).refInUse = t.refInUse := fun t v =>
    fld_setFld_other _ _ _ _ _ _ (by decide) (by decide) (by decide) (Or.inr (by decide))
  have l : ∀ (t : State) v, (t.setFld Reg.TIM_STATE F.TIM_STATE.LOCK_ACTIVE v).refInUse = t.refInUse := fun t v =>
    fld_setFld_other _ _ _ _ _ _ (by decide) (by decide) (by decide) (Or.inr (by decide))
  obtain ⟨v, h | h⟩ := enterTq_timState s q
  · rw [e _ _ h, l, w]
  · rw [e _ _ h, w]

theorem enterTq_tq (s : State) (q : Nat) (hq : q < 8) : (s.enterTq q).tq = q := by
  have e : ∀ a b : State, a.rd Reg.TIM_STATE = b.rd Reg.TIM_STATE → a.tq = b.tq := fun a b h => by unfold tq fld; rw [h]
  have w : ∀ t : State, (t.setFld Reg.TIM_STATE F.TIM_STATE.TQ q).tq = q := fun t => by
    unfold tq
    rw [fld_setFld_same _ _ _ _ (by decide) (by decide)]
    exact Nat.mod_eq_of_lt (Nat.lt_of_lt_of_le hq (by decide))
  have l : ∀ (t : State) v, (t.setFld Reg.TIM_STATE F.TIM_STATE.LOCK_ACTIVE v).tq = t.tq := fun t v =>
    fld_setFld_other _ _ _ _ _ _ (by decide) (by decide) (by decide) (Or.inr (by decide))
  obtain ⟨v, h | h⟩ := enterTq_timState s q
  · rw [e _ _ h, l, w]
  · rw [e _ _ h, w]

theorem refInUse_kept (s : State) (q : Nat) : s.refInUse = (if q = s.tq then s else s.enterTq q).refInUse := by
  split
  · rfl
  · exact (enterTq_refInUse s q).symm

/-- What entering a time state does beside being noted changes only what `timed` names. -/
theorem timed_enterTq (s : State) (q : Nat) : s.timed (s.enterTq q) := by
  unfold enterTq
  have hT : timeRegion Reg.TIM_STATE := Or.inr (Or.inl rfl)
  have a1 := timed_setFld s Reg.TIM_STATE F.TIM_STATE.TQ q hT
  have a2 : s.timed (if q = 2 ∨ q = 3 then (s.setFld Reg.TIM_STATE F.TIM_STATE.TQ q).setFld Reg.TIM_STATE F.TIM_STATE.LOCK_ACTIVE 1
      else if q ≤ 1 then (s.setFld Reg.TIM_STATE F.TIM_STATE.TQ q).setFld Reg.TIM_STATE F.TIM_STATE.LOCK_ACTIVE 0
      else s.setFld Reg.TIM_STATE F.TIM_STATE.TQ q) :=
    timed_ite _ (timed_trans a1 (timed_setFld _ _ _ _ hT)) (timed_ite _ (timed_trans a1 (timed_setFld _ _ _ _ hT)) a1)
  dsimp only
  generalize (if q = 2 ∨ q = 3 then (s.setFld Reg.TIM_STATE F.TIM_STATE.TQ q).setFld Reg.TIM_STATE F.TIM_STATE.LOCK_ACTIVE 1
      else if q ≤ 1 then (s.setFld Reg.TIM_STATE F.TIM_STATE.TQ q).setFld Reg.TIM_STATE F.TIM_STATE.LOCK_ACTIVE 0
      else s.setFld Reg.TIM_STATE F.TIM_STATE.TQ q) = b at a2 ⊢
  have a3 : s.timed (if (b.lockActive && !(s.setFld Reg.TIM_STATE F.TIM_STATE.TQ q).lockActive) = true then
        { b with egr := { b.egr with lockSince := b.now } }
      else if ((s.setFld Reg.TIM_STATE F.TIM_STATE.TQ q).lockActive && !b.lockActive) = true then b.releaseLocks else b) :=
    timed_ite _ (timed_trans a2 (timed_egr b _)) (timed_ite _ (timed_trans a2 (timed_egr b _)) a2)
  generalize (if (b.lockActive && !(s.setFld Reg.TIM_STATE F.TIM_STATE.TQ q).lockActive) = true then
        { b with egr := { b.egr with lockSince := b.now } }
      else if ((s.setFld Reg.TIM_STATE F.TIM_STATE.TQ q).lockActive && !b.lockActive) = true then b.releaseLocks else b) = c at a3 ⊢
  have a4 : ∀ x y z w, s.timed ({ c with tim := { c.tim with inTrack := x, overThresh := y, holdEntry := z, holdWts := w } } : State) :=
    fun x y z w => timed_trans a3 ⟨⟨_, _, _, _, _, _, _, _, _, _, _, _, _, _, _, _, _, _, _, _, _, rfl⟩, fun _ _ => rfl⟩
  have a5 := fun x y z w => timed_trans (a4 x y z w) (timed_setReady _ 6 (decide (2 ≤ q)) (by decide))
  exact timed_ite _ (timed_trans (a5 _ _ _ _) (timed_loseAlignment _))
    (timed_ite _ (timed_trans (a5 _ _ _ _) (timed_anchorAll _)) (a5 _ _ _ _))

/-- A change of the time state changes only what `timed` names. -/
theorem timed_setTq (s : State) (q : Nat) : s.timed (s.setTq q) := by
  unfold setTq changeTime
  refine timed_ite _ (timed_refl s) ?_
  have h0 : s.timed (if q = s.tq then s else s.enterTq q) := timed_ite _ (timed_refl s) (timed_enterTq s q)
  have h1 : ∀ u : State, s.refInUse = u.refInUse → (if s.refInUse = u.refInUse then u else u.bindRef s.refInUse) = u :=
    fun u hu => if_pos hu
  dsimp only
  rw [h1 _ (refInUse_kept s q)]
  exact timed_trans h0 (timed_noteTime _ _ _ _ _)

/-- A change of the time state to `q` leaves TQ reading `q`. -/
theorem setTq_tq (s : State) (q : Nat) (hq : q < 8) : (s.setTq q).tq = q := by
  have e : ∀ a b : State, a.rd Reg.TIM_STATE = b.rd Reg.TIM_STATE → a.tq = b.tq := fun a b h => by unfold tq fld; rw [h]
  unfold setTq changeTime
  by_cases h : q = s.tq
  · rw [if_pos ⟨h, rfl⟩]; exact h.symm
  · rw [if_neg (fun c => h c.1)]
    have h1 : ∀ u : State, s.refInUse = u.refInUse → (if s.refInUse = u.refInUse then u else u.bindRef s.refInUse) = u :=
      fun u hu => if_pos hu
    dsimp only
    rw [h1 _ (refInUse_kept s q), e _ _ (noteTime_rd _ _ _ _ _ _ (by decide)), if_neg h]
    exact enterTq_tq s q hq

/-! ## References and servo updates -/

/-- `t` differs from `s` in nothing but what a change of reference or a servo update changes: what `timed` names, the instant of the
last update, and the references that are valid. -/
def reffed (s t : State) : Prop :=
  (∃ regs ctr samplers spans running snap msgs conds queues kpr faults due chipDue lastAt wit egr cnd inTrack overThresh holdEntry holdWts lastUpdate refSince,
      t = { s with
        kpr := kpr, wit := wit, egr := egr, regs := regs, cnd := cnd,
        pmc := { s.pmc with ctr := ctr, samplers := samplers, spans := spans, running := running, snap := snap },
        hif := { s.hif with msgs := msgs, conds := conds, queues := queues },
        flt := { s.flt with faults := faults, due := due, chipDue := chipDue, lastAt := lastAt },
        tim := { s.tim with
          inTrack := inTrack, overThresh := overThresh, holdEntry := holdEntry, holdWts := holdWts,
          lastUpdate := lastUpdate, refSince := refSince } })
    ∧ ∀ off, ¬ timeRegion off → t.rd off = s.rd off

theorem reffed_refl (s : State) : s.reffed s := ⟨⟨_, _, _, _, _, _, _, _, _, _, _, _, _, _, _, _, _, _, _, _, _, _, _, rfl⟩, fun _ _ => rfl⟩

theorem reffed_trans {s t u : State} (h1 : s.reffed t) (h2 : t.reffed u) : s.reffed u := by
  obtain ⟨⟨_, _, _, _, _, _, _, _, _, _, _, _, _, _, _, _, _, _, _, _, _, _, _, rfl⟩, h1⟩ := h1
  obtain ⟨⟨_, _, _, _, _, _, _, _, _, _, _, _, _, _, _, _, _, _, _, _, _, _, _, rfl⟩, h2⟩ := h2
  exact ⟨⟨_, _, _, _, _, _, _, _, _, _, _, _, _, _, _, _, _, _, _, _, _, _, _, rfl⟩, fun off ho => (h2 off ho).trans (h1 off ho)⟩

theorem reffed_of_timed {s t : State} (h : s.timed t) : s.reffed t := by
  obtain ⟨⟨_, _, _, _, _, _, _, _, _, _, _, _, _, _, _, _, _, _, _, _, _, rfl⟩, h⟩ := h
  exact ⟨⟨_, _, _, _, _, _, _, _, _, _, _, _, _, _, _, _, _, _, _, _, _, _, _, rfl⟩, h⟩

theorem reffed_ite (c : Prop) [Decidable c] {s a b : State} (ha : s.reffed a) (hb : s.reffed b) : s.reffed (if c then a else b) := by
  split
  · exact ha
  · exact hb

theorem reffed_tim (s : State) (a b c d : Nat) (l : Stamp) (r : SMap Stamp) :
    s.reffed { s with tim := { s.tim with inTrack := a, overThresh := b, holdEntry := c, holdWts := d, lastUpdate := l, refSince := r } } :=
  ⟨⟨_, _, _, _, _, _, _, _, _, _, _, _, _, _, _, _, _, _, _, _, _, _, _, rfl⟩, fun _ _ => rfl⟩

theorem reffed_bindRef (s : State) (c : Nat) : s.reffed (s.bindRef c) := by
  unfold bindRef
  exact reffed_trans (reffed_of_timed (timed_setFld s Reg.TIM_STATE F.TIM_STATE.REF_IN_USE c (Or.inr (Or.inl rfl)))) (reffed_tim _ _ _ _ _ _ _)

/-- A change of the time state and of the reference in use changes only what `reffed` names. -/
theorem reffed_changeTime (s : State) (q c : Nat) : s.reffed (s.changeTime q c) := by
  unfold changeTime
  refine reffed_ite _ (reffed_refl s) ?_
  have h0 : s.reffed (if q = s.tq then s else s.enterTq q) := reffed_ite _ (reffed_refl s) (reffed_of_timed (timed_enterTq s q))
  dsimp only
  generalize (if q = s.tq then s else s.enterTq q) = a at h0 ⊢
  have h1 : s.reffed (if c = a.refInUse then a else a.bindRef c) := reffed_ite _ h0 (reffed_trans h0 (reffed_bindRef a c))
  exact reffed_trans h1 (reffed_of_timed (timed_noteTime _ _ _ _ _))

theorem reffed_setTq (s : State) (q : Nat) : s.reffed (s.setTq q) := reffed_changeTime s q _
theorem reffed_setRef (s : State) (c : Nat) : s.reffed (s.setRef c) := reffed_changeTime s _ c

theorem reffed_refSince (s : State) (r : SMap Stamp) : s.reffed { s with tim := { s.tim with refSince := r } } :=
  reffed_tim s s.tim.inTrack s.tim.overThresh s.tim.holdEntry s.tim.holdWts s.tim.lastUpdate r

theorem reffed_validate (s : State) (c : Nat) : s.reffed (s.validate c) := by
  unfold validate
  exact reffed_ite _ (reffed_refl s) (reffed_refSince s _)

theorem reffed_declareLost (s : State) : s.reffed s.declareLost := by
  unfold declareLost
  dsimp only
  exact reffed_trans (reffed_trans (reffed_of_timed (timed_raise s Src.TIM_REF_LOST _ (by decide))) (reffed_refSince _ _))
    (reffed_changeTime _ _ _)

theorem reffed_refCheck (s : State) : s.reffed s.refCheck := by
  unfold refCheck
  exact reffed_ite _ (reffed_declareLost s) (reffed_ite _ (reffed_setTq _ _) (reffed_refl s))

theorem reffed_invalidate (s : State) (c : Nat) : s.reffed (s.invalidate c) := by
  unfold invalidate
  exact reffed_ite _ (reffed_declareLost s) (reffed_trans (reffed_refSince s _) (reffed_refCheck _))

theorem timed_updateTq (s : State) (c : Nat) : s.timed (s.updateTq c) := by
  unfold updateTq
  dsimp only
  exact timed_ite _ (timed_setTq _ _) (timed_ite _ (timed_setTq _ _) (timed_ite _ (timed_setTq _ _)
    (timed_ite _ (timed_setTq _ _) (timed_refl _))))

theorem reffed_servoUpdate (s : State) (c : Nat) (o : Int) : s.reffed (s.servoUpdate c o) := by
  unfold servoUpdate
  refine reffed_ite _ (reffed_refl s) ?_
  have h1 := reffed_validate s c
  dsimp only
  generalize s.validate c = a at h1 ⊢
  have h2 : s.reffed (if a.refInUse = 0 ∧ a.tq ≠ 6 then a.setRef a.bestRef else a) :=
    reffed_ite _ (reffed_trans h1 (reffed_setRef _ _)) h1
  generalize (if a.refInUse = 0 ∧ a.tq ≠ 6 then a.setRef a.bestRef else a) = b at h2 ⊢
  refine reffed_ite _ h2 ?_
  have h3 : s.reffed (if b.tq = 0 then b.setTq 1 else b) := reffed_ite _ (reffed_trans h2 (reffed_setTq _ _)) h2
  generalize (if b.tq = 0 then b.setTq 1 else b) = d at h3 ⊢
  exact reffed_trans h3 (reffed_trans (reffed_tim d _ _ _ _ _ _) (reffed_of_timed (timed_updateTq _ _)))

end Sys2Proof.Machine.State
end

