-- ==== Sys2Proof/Machine/Balls.lean ====
section
/-! DEFINITION. What the device drives at its balls, read from the state (R47, R449, R484 to R487, R492, R493). -/
namespace Sys2Proof.Machine

/-- An output ball or pair of Table ELEC-5: `lineTx l` the transmit pair of lane `l` (512 and 513 the management lanes). -/
inductive Ball where
  | faultP | faultN | smbAlertN | xspiRstN | clk10mOut
  | ppsOut (i : Nat)
  | rclk (i : Nat)
  | gpio (i : Nat)
  | lineTx (l : Nat)
  deriving DecidableEq, Repr

/-- What a ball carries: a static level; nothing (high-impedance, or a transmitter off); a SerDes transmitter's electrical
idle; or the signal of the function that drives it. -/
inductive Level where
  | low | high | off | idle | signal
  deriving DecidableEq, Repr

namespace State

/-- A level from a truth value. -/
def driven (b : Bool) : Level := if b then .high else .low

/-- A ball while PWR_OK is high and the device is in reset (R487). -/
def heldBall : Ball → Level
  | .faultP => .high
  | .faultN => .low
  | .smbAlertN => .low
  | .xspiRstN => .low
  | .clk10mOut => .low
  | .ppsOut _ => .low
  | .rclk _ => .off
  | .gpio _ => .off
  | .lineTx _ => .idle

/-- A ball once the device has left reset: the lantern by Table FLT-3, SMB_ALERT_N with it (R493), XSPI_RST_N 10 µs after reset
(R487), a GPIO as keeper firmware assigns it (R492). -/
def runningBall (s : State) : Ball → Level
  | .faultP => driven s.lanternFault
  | .faultN => driven (!s.lanternFault)
  | .smbAlertN => if s.lanternFault then .low else .off
  | .xspiRstN => driven (decide (s.boot.leftAt + 10 * microsecond ≤ s.now))
  | .clk10mOut => if s.cfgFlag Reg.TIM_CTRL F.TIM_CTRL.OUT10M_EN then .signal else .low
  | .ppsOut i => driven (mfind s.tim.ppsOutHigh i).isSome
  | .rclk i => if s.cfgFlag Reg.TIM_CTRL (if i = 0 then F.TIM_CTRL.RCLK0_EN else F.TIM_CTRL.RCLK1_EN) then .signal else .off
  | .gpio _ => if s.ready 5 then .signal else .off
  | .lineTx _ => .signal

/-- What the device drives at a ball (R487): nothing while PWR_OK is low. -/
def ball (s : State) (b : Ball) : Level :=
  if !s.pins.pwrOk then .off
  else if !s.pins.resetN || !s.boot.running then heldBall b
  else s.runningBall b

/-- The 7-bit address at which the SMBus target answers (R492). -/
def smbusAddress (s : State) : Nat := 0x4C + s.boot.gpio

end State
end Sys2Proof.Machine
end

