-- ==== Sys2Proof/Certificates/Slice0/Obligations.lean ====
section
/-! DEFINITION. The statements for the provers: for every family of commands what each does, and what the whole device keeps.
`completes i s P` says that command `i` answers a next state and what it did. -/

open Sys2Proof Sys2Proof.Machine Sys2Proof.Machine.State


/-! ## The host link -/

/-- What host reads return (R10, R161, R359, R388, R392, R493, R500): a completion with data or with zeros where a byte may
not be read, Unsupported Request beyond a BAR; the instant of a read is later than that of the read before (R32); TIM_NOW_LO latches the high part; FWD_CLAIM_TRY takes a free region. Where the
rules leave a choice it is the model's own (log entries 11 and 33).
It states that HOST_READ, TIM_NOW_LO_READ, CLAIM_TRY_READ, ATOMICOP_UNSUPPORTED and SMBUS_READ complete, that is that `exec`
answers the next state described, under conditions on the state and the operands alone. -/
def Obligations.HostReads : Prop :=
  (∀ (s : State) (fn bar off len : Nat) (ecc : List Nat), s.inReset = false → fn < 64 → s.fnOn fn = true →
    completes (.hostRead fn bar off len ecc) s (fun u =>
      let r := (s.touch (.host fn)).readInstant fn
      let n := (off + len + 7) / 8 - off / 8
      (barSize fn bar < off + len ∨ len = 0 → u.out = s.out ++ [.unsupported fn] ∧ u.regs = s.regs)
      ∧ (off + len ≤ barSize fn bar → len ≠ 0 →
          (∃ i, i < n ∧ r.permits (r.roleOf (.host fn)) (barKind bar) (off / 8 + i) 0 = false) →
          u.out = r.out ++ [.readCpl fn (zeros len) false])
      ∧ (off + len ≤ barSize fn bar → len ≠ 0 →
          (∀ i, i < n → r.permits (r.roleOf (.host fn)) (barKind bar) (off / 8 + i) 0 = true) →
          ∃ data poisoned, data.length = len ∧ u.out = r.out ++ [.readCpl fn data poisoned])))
  ∧ (∀ (s : State) (fn : Nat), s.inReset = false → fn < 64 → s.fnOn fn = true →
    let r := (s.touch (.host fn)).readInstant fn
    r.permits (r.roleOf (.host fn)) 1 (Reg.TIM_NOW_LO / 8) 0 = true →
    completes (.timNowLoRead fn) s (fun u => u.regs = r.regs
      ∧ u.out = r.out ++ [.readCpl fn (le 8 (d96 r.now % 2 ^ 64)) false]
      ∧ (u.fnSt fn).secHi = d96 r.now / 2 ^ 64 ∧ (u.fnSt fn).readTime = r.now))
  ∧ (∀ (s : State) (fn x : Nat), s.inReset = false → fn < 64 → s.fnOn fn = true → x < 36 →
    let r := (s.touch (.host fn)).readInstant fn
    r.permits (r.roleOf (.host fn)) 1 (Reg.FWD_CLAIM_TRY x / 8) 0 = true →
    completes (.claimTryRead fn x) s (fun u =>
      if r.holder x = 0 then u.holder x = 1 ∧ u.out = r.out ++ [.readCpl fn (le 8 (2 ^ 63 + 1)) false]
      else u.regs = r.regs ∧ u.out = r.out ++ [.readCpl fn (le 8 (r.holder x)) false]))
  ∧ (∀ (s : State) (fn : Nat), s.inReset = false → fn < 64 → s.fnOn fn = true →
    completes (.atomicopUnsupported fn) s (fun u => u.regs = s.regs ∧ u.out = s.out ++ [.unsupported fn]))
  ∧ (∀ (s : State) (code v : Nat), s.inReset = false → s.boot.running = true → s.boot.leftAt + 50 * millisecond ≤ s.now →
    s.smbusValue code = some v →
    completes (.smbusRead code) s (fun u => u = s.emit (.smbus (le 8 v))))

/-- What the link and the functions' power states do (Table HOST-2, R390, R393, R394, R488). Where the rules leave a choice
it is the model's own (log entries 32 and 33).
It states that PCIE_LINK_CHANGE, PERST_N_ASSERT, FUNCTION_LEVEL_RESET, D3HOT_ENTRY, D0_RETURN, PCIE_CONFIG_WRITE and
L1_2_ENTRY complete, that is that `exec` answers the next state described, under conditions on the state and the operands
alone. -/
def Obligations.HostLink : Prop :=
  (∀ (s : State) (up hotReset : Bool) (speed width : Nat) (flit : Bool), s.inReset = false →
    completes (.pcieLinkChange up hotReset speed width flit) s (fun u =>
      u.flag Reg.HIF_LINK_STAT F.HIF_LINK_STAT.UP = up
      ∧ u.fld Reg.HIF_LINK_STAT F.HIF_LINK_STAT.SPEED = (if up then speed % 16 else 0)
      ∧ u.fld Reg.HIF_LINK_STAT F.HIF_LINK_STAT.WIDTH = (if up then width % 32 else 0)
      ∧ (hotReset = true ∨ (s.flag Reg.HIF_LINK_STAT F.HIF_LINK_STAT.UP = true ∧ up = false) →
          u.fld Reg.HIF_LINK_STAT F.HIF_LINK_STAT.VFS = 0
          ∧ ∀ c, c < 16 → u.flag (Reg.HIF_DMA_CFG c) F.HIF_DMA_CFG.EN = false)))
  ∧ (∀ (s : State), s.inReset = false →
    completes .perstNAssert s (fun u => u.boot.perstN = false
      ∧ u.flag Reg.HIF_LINK_STAT F.HIF_LINK_STAT.UP = false ∧ u.fld Reg.HIF_LINK_STAT F.HIF_LINK_STAT.VFS = 0
      ∧ ∀ c, c < 16 → u.flag (Reg.HIF_DMA_CFG c) F.HIF_DMA_CFG.EN = false))
  ∧ (∀ (s : State) (fn : Nat), s.inReset = false → fn < 64 → s.fnOn fn = true →
    completes (.functionLevelReset fn) s (fun u => u.sticky Src.HIF_FLR = true
      ∧ ∀ c, c < 16 → s.chanFn c = fn → u.flag (Reg.HIF_DMA_CFG c) F.HIF_DMA_CFG.EN = false))
  ∧ (∀ (s : State) (fn : Nat), s.inReset = false → fn < 64 → s.fnOn fn = true → (s.fnSt fn).d3hot = false →
    completes (.d3hotEntry fn) s (fun u => (u.fnSt fn).d3hot = true ∧ u.sticky Src.HIF_PM_CHANGE = true
      ∧ ∀ c, c < 16 → s.chanFn c = fn → u.flag (Reg.HIF_DMA_STAT c) F.HIF_DMA_STAT.PAUSED = true))
  ∧ (∀ (s : State) (fn : Nat), s.inReset = false → fn < 64 → (s.fnSt fn).d3hot = true →
    completes (.d0Return fn) s (fun u => (u.fnSt fn).d3hot = false ∧ u.sticky Src.HIF_PM_CHANGE = true
      ∧ ∀ c, c < 16 → s.chanFn c = fn → u.flag (Reg.HIF_DMA_STAT c) F.HIF_DMA_STAT.PAUSED = !(s.fnSt fn).busMaster))
  ∧ (∀ (s : State) (fn : Nat) (vfs : Option Nat) (busMaster pmeEn : Bool), s.inReset = false → fn < 64 → s.fnOn fn = true →
    completes (.pcieConfigWrite fn vfs busMaster pmeEn) s (fun u =>
      (u.fnSt fn).busMaster = busMaster ∧ (u.fnSt fn).pmeEn = pmeEn
      ∧ ∀ n, vfs = some n → u.fld Reg.HIF_LINK_STAT F.HIF_LINK_STAT.VFS
          = (if fn = 1 ∧ n ≤ 62 then n else s.fld Reg.HIF_LINK_STAT F.HIF_LINK_STAT.VFS)))
  ∧ (∀ (s : State), s.inReset = false → s.hif.l12 = false → s.flag Reg.HIF_LINK_STAT F.HIF_LINK_STAT.UP = true →
    s.hif.queues = [] → s.hif.chans = [] →
    completes .l12Entry s (fun u => u.hif.l12 = true ∧ u.regs = s.regs ∧ u.out = s.out ++ [.l12]))

/-- What the DMA channels do (R395 to R399, Tables HOST-4 to HOST-6). Where the rules leave a choice it is the model's own
(log entries 4 and 32).
It states that DMA_ENABLE, DMA_DESC_TAIL_WRITE, DMA_COMPLETION, DMA_ERROR, PROC_COPY_DMA and FRAME_INJECT complete, that is
that `exec` answers the next state described, under conditions on the state and the operands alone. -/
def Obligations.DmaChannels : Prop :=
  (∀ (s : State) (by_ : Agent) (c : Nat) (v : Word64), c < 16 → s.reaches by_ (Reg.HIF_DMA_CFG c) = true →
    s.flag (Reg.HIF_DMA_STAT c) F.HIF_DMA_STAT.HALTED = true →
    completes (.dmaEnable by_ c v) s (fun u =>
      let use := bits v.toNat F.HIF_DMA_CFG.USE.hi F.HIF_DMA_CFG.USE.lo
      let fn := bits v.toNat F.HIF_DMA_CFG.FUNC.hi F.HIF_DMA_CFG.FUNC.lo
      if (use = 2 ∧ fn ≠ 0) ∨ (use = 3 ∧ fn ≠ 1) then
        u.rd (Reg.HIF_DMA_CFG c) = s.rd (Reg.HIF_DMA_CFG c) ∧ u.sticky Src.HIF_DMA_ERR = true
      else
        u.flag (Reg.HIF_DMA_CFG c) F.HIF_DMA_CFG.EN = true ∧ u.fld (Reg.HIF_DMA_CFG c) F.HIF_DMA_CFG.USE = use
          ∧ u.fld (Reg.HIF_DMA_CFG c) F.HIF_DMA_CFG.FUNC = fn ∧ u.flag (Reg.HIF_DMA_STAT c) F.HIF_DMA_STAT.HALTED = false))
  ∧ (∀ (s : State) (by_ : Agent) (c : Nat) (v : Word64), c < 16 → s.reaches by_ (Reg.HIF_DMA_TAIL c) = true →
    completes (.dmaDescTailWrite by_ c v) s (fun u =>
      let d := (v.toNat % 65536 + 65536 - s.fld (Reg.HIF_DMA_IDX c) F.HIF_DMA_IDX.DESC_HEAD) % 65536
      if s.descsPosted c ≤ d ∧ d ≤ 2 ^ s.fld (Reg.HIF_DMA_DESC_BASE c) F.HIF_DMA_DESC_BASE.SIZE_LOG2 then
        onlyRegs (s.touch by_) u (· = Reg.HIF_DMA_TAIL c) ∧ u.fld (Reg.HIF_DMA_TAIL c) F.HIF_DMA_TAIL.DESC_TAIL = v.toNat % 65536
      else u = s.touch by_))
  ∧ (∀ (s : State) (c : Nat) (x : Bytes) (rest : List Bytes), s.inReset = false → c < 16 →
    (mget {} s.hif.chans c).waiting = x :: rest → s.cplRoom c = true →
    s.flag (Reg.HIF_DMA_STAT c) F.HIF_DMA_STAT.PAUSED = false →
    completes (.dmaCompletion c) s (fun u =>
      let tail := s.fld (Reg.HIF_DMA_IDX c) F.HIF_DMA_IDX.CPL_TAIL
      let base := Reg.HIF_DMA_CPL_BASE c
      u.out = s.out ++ [.hostWrite (s.chanFn c) (s.fld base F.HIF_DMA_CPL_BASE.ADDR * 4096
          + 32 * (tail % 2 ^ s.fld base F.HIF_DMA_CPL_BASE.SIZE_LOG2)) x]
        ∧ u.fld (Reg.HIF_DMA_IDX c) F.HIF_DMA_IDX.CPL_TAIL = (tail + 1) % 65536
        ∧ (mget {} u.hif.chans c).waiting = rest))
  ∧ (∀ (s : State) (c code : Nat), s.inReset = false → c < 16 → s.flag (Reg.HIF_DMA_CFG c) F.HIF_DMA_CFG.EN = true →
    (code = 3 ∨ code = 4 ∨ code = 5) → s.descsPosted c ≠ 0 →
    completes (.dmaError c code) s (fun u => u.flag (Reg.HIF_DMA_CFG c) F.HIF_DMA_CFG.EN = false
      ∧ u.fld (Reg.HIF_DMA_STAT c) F.HIF_DMA_STAT.ERR_CODE = code ∧ u.sticky Src.HIF_DMA_ERR = true
      ∧ (mget {} u.hif.chans c).waiting.length = (mget {} s.hif.chans c).waiting.length + 1))
  ∧ (∀ (s : State) (id reason : Nat) (desc : Bytes) (p : Packet), s.inReset = false → mfind s.pkts id = some p →
    p.cpu.any (fun x => x.reason == reason && !x.keeper) = true → p.ended = true → p.stage = .stored →
    s.flag (Reg.FWD_REASON reason) F.FWD_REASON.DEST = true →
    s.chanOn (s.fld (Reg.FWD_REASON reason) F.FWD_REASON.HOST_CHANNEL) 1 = true →
    s.descsPosted (s.fld (Reg.FWD_REASON reason) F.FWD_REASON.HOST_CHANNEL) ≠ 0 →
    s.dmaMay (s.fld (Reg.FWD_REASON reason) F.FWD_REASON.HOST_CHANNEL) 1 = true → descOk 1 desc = true →
    completes (.procCopyDma id reason desc) s (fun u =>
      let c := s.fld (Reg.FWD_REASON reason) F.FWD_REASON.HOST_CHANNEL
      u.out = s.out ++ [.hostWrite (s.chanFn c) (leAt desc 0 8) ((sub p.manifest 0 64 ++ p.bytes).take (leAt desc 8 4))]
        ∧ u.fld (Reg.HIF_DMA_IDX c) F.HIF_DMA_IDX.DESC_HEAD = (s.fld (Reg.HIF_DMA_IDX c) F.HIF_DMA_IDX.DESC_HEAD + 1) % 65536))
  ∧ (∀ (s : State) (c : Nat) (desc frame : Bytes), s.inReset = false → c < 16 → s.chanOn c 2 = true → s.descsPosted c ≠ 0 →
    s.dmaMay c 0 = true → descOk 2 desc = true → s.inFerry = false → s.towPort (leAt desc 12 2) = false →
    s.portExists (leAt desc 12 2) = true →
    completes (.frameInject c desc frame) s (fun u => u.nextPkt = s.nextPkt + 1
      ∧ u.fld (Reg.HIF_DMA_IDX c) F.HIF_DMA_IDX.DESC_HEAD = (s.fld (Reg.HIF_DMA_IDX c) F.HIF_DMA_IDX.DESC_HEAD + 1) % 65536
      ∧ ∃ p, mfind u.pkts s.nextPkt = some p ∧ p.stage = .accept ∧ p.outPort = leAt desc 12 2 ∧ p.cls = byteAt desc 14
          ∧ p.bytes = withFcs (sub frame 0 (leAt desc 8 4)) false ∧ p.stamp = s.now))

/-- What the event queues, their interrupts and the keeper's do (R401 to R410, R444). Where the rules leave a choice it is
the model's own (log entry 32).
It states that EVQ_CLAIM, EVQ_RECORD_WRITE, EVQ_ARM, EVQ_ENABLE, MSIX_SEND and KEEPER_INTERRUPT complete, that is that `exec`
answers the next state described, under conditions on the state and the operands alone. -/
def Obligations.EventQueues : Prop :=
  (∀ (s : State) (q : Nat) (a b : EvReq), s.inReset = false → q < 128 → s.hif.msgs = [a, b] → s.hif.conds = [] → a ≠ b →
    s.route a.src a.payload = some q → s.route b.src b.payload = some q → b.time < a.time → (s.evq q).staging.length < 64 →
    completes (.evqClaim q false) s (fun u => u.regs = s.regs ∧ u.hif.msgs = [a]
      ∧ (u.evq q).staging = (s.evq q).staging ++ [⟨b.src, b.payload, b.time⟩])
    ∧ completes (.evqClaim q true) s (fun u => u.hif.msgs = [a] ∧ (u.evq q).staging = (s.evq q).staging
      ∧ u.sticky Src.SCP_FIFO_PAR = true ∧ u.flag (Reg.EVQ_STAT q) F.EVQ_STAT.OVERRUN = true))
  ∧ (∀ (s : State) (q n payload : Nat) (t : Stamp), s.inReset = false → q < 128 → s.hif.msgs = [] →
    s.hif.conds = [(n, ⟨.pending, payload, t, false⟩)] → s.route n payload = some q → (s.evq q).staging.length < 64 →
    completes (.evqClaim q false) s (fun u => u.regs = s.regs ∧ u.hif.conds = [(n, ⟨.active, payload, t, false⟩)]
      ∧ (u.evq q).staging = (s.evq q).staging ++ [⟨n, payload, t⟩]))
  ∧ (∀ (s : State) (q : Nat) (r : EvRec) (rest : List EvRec), s.inReset = false → 4 ≤ q → q < 128 → s.queueOn q = true →
    s.queueAsleep q = false → s.fld (Reg.EVQ_STAT q) F.EVQ_STAT.LOST = 0 → (s.evq q).staging = r :: rest → s.evqRoom q = true →
    mfind s.hif.conds r.src = none →
    completes (.evqRecordWrite q) s (fun u =>
      u.out = s.out ++ [.eventRecord q (s.evqTail q % s.evqSize q)
          (BitVec.ofNat 64 (r.src % 2 ^ 12 + s.evqTail q * 2 ^ 12 + r.payload % 2 ^ 32 * 2 ^ 32))
          (BitVec.ofNat 64 (d64 (eventBase r.time) r.time))]
        ∧ u.evqTail q = (s.evqTail q + 1) % 2 ^ 20 ∧ (u.evq q).staging = rest))
  ∧ (∀ (s : State) (by_ : Agent) (q : Nat) (v : Word64), q < 128 →
    (match by_ with | .keeper k => q = k | _ => 4 ≤ q) → s.reaches by_ (Reg.EVQ_IDX q) = true →
    completes (.evqArm by_ q v) s (fun u =>
      (u.evqHead q = if (v.toNat % 2 ^ 20 + 2 ^ 20 - s.evqHead q) % 2 ^ 20 ≤ s.evqLevel q then v.toNat % 2 ^ 20 else s.evqHead q)
        ∧ (bits v.toNat F.EVQ_IDX.ARM.hi F.EVQ_IDX.ARM.lo = 1 → u.flag (Reg.EVQ_STAT q) F.EVQ_STAT.ARMED = true)
        ∧ onlyRegs (s.touch by_) u (fun o => o = Reg.EVQ_IDX q ∨ o = Reg.EVQ_STAT q)))
  ∧ (∀ (s : State) (by_ : Agent) (q : Nat) (v : Word64), 4 ≤ q → q < 128 → s.reaches by_ (Reg.EVQ_CFG q) = true →
    s.queueOn q = false →
    completes (.evqEnable by_ q v) s (fun u =>
      let fn := bits v.toNat F.EVQ_CFG.FUNC.hi F.EVQ_CFG.FUNC.lo
      let vec := bits v.toNat F.EVQ_CFG.VECTOR.hi F.EVQ_CFG.VECTOR.lo
      let n := s.fld (Reg.EVQ_BASE q) F.EVQ_BASE.SIZE_LOG2
      if (if fn < 2 then vec < 128 else vec < 4) ∧ 6 ≤ n ∧ n ≤ 16 ∧ s.fnOn fn = true then
        u.queueOn q = true ∧ u.fld (Reg.EVQ_CFG q) F.EVQ_CFG.FUNC = fn ∧ u.fld (Reg.EVQ_CFG q) F.EVQ_CFG.VECTOR = vec
      else u.rd (Reg.EVQ_CFG q) = s.rd (Reg.EVQ_CFG q) ∧ u.sticky Src.EVQ_CFG_REJECT = true))
  ∧ (∀ (s : State) (q : Nat), s.inReset = false → 4 ≤ q → q < 128 → s.queueOn q = true → s.evqOwed q = true →
    (∀ t, (s.evq q).lastMsix = some t → t + s.fld (Reg.EVQ_CFG q) F.EVQ_CFG.MOD_US * microsecond ≤ s.now) →
    completes (.msixSend q) s (fun u =>
      let fn := s.fld (Reg.EVQ_CFG q) F.EVQ_CFG.FUNC
      ((s.fnSt fn).d3hot = false → u.out = s.out ++ [.msix fn (s.fld (Reg.EVQ_CFG q) F.EVQ_CFG.VECTOR)]
          ∧ u.flag (Reg.EVQ_STAT q) F.EVQ_STAT.ARMED = false)
      ∧ ((s.fnSt fn).d3hot = true → (s.fnSt fn).pmeEn = true → (s.evq q).pmeSent = false →
          u.out = s.out ++ [.pme fn] ∧ (u.evq q).pmeSent = true)))
  ∧ (∀ (s : State) (k p : Nat), s.inReset = false → k < 4 → (mget {} s.kpr k).pending = [p] → p ≠ 0 → p ≠ 2 →
    completes (.keeperInterrupt k true) s (fun u => u.regs = s.regs
      ∧ (mget {} u.kpr k).pending = [] ∧ (mget {} u.kpr k).serving = some p))

/-- What an assertion does (R444, R445): the sticky bit and the fault state are set, and outside the collector, the event requests, the
keeper interrupts and the counters nothing changes; over a broken pair no NMI, BLK, CHIP or DEG follows (R448).
It states that SOURCE_ASSERT completes, that is that `exec` answers the next state described, under conditions on the state
and the operands alone. -/
def Obligations.SourceAsserts : Prop :=
  (∀ (s : State) (n payload : Nat), s.inReset = false → n < 1536 →
    completes (.sourceAssert n payload) s (fun u => u.sticky n = true ∧ u.inFault n = true
      ∧ (∀ m, m < 1536 → s.sticky m = true → u.sticky m = true)
      ∧ u.out = s.out ∧ u.time = s.time ∧ u.pkts = s.pkts ∧ u.tab = s.tab ∧ u.scp = s.scp ∧ u.wit = s.wit ∧ u.sec = s.sec
      ∧ ∀ off, blockOf off ≠ 18 → blockOf off ≠ 20 → u.rd off = s.rd off))
  ∧ (∀ (s : State) (n payload : Nat), s.inReset = false → n < 1536 → (mget {} s.flt.faults n).broken = true → s.route n payload = none →
    completes (.sourceAssert n payload) s (fun u => u.flt.due = s.flt.due ∧ u.flt.chipDue = s.flt.chipDue ∧ u.kpr = s.kpr))

/-! ## Resets, start-up and the NVM -/

/-- What each reset leaves (R382, R383, R486, Table BOOT-7). Where the rules leave a choice it is the model's own (log
entries 7 and 35).
It states that CHIP_RESET, BLOCK_RESET, BLOCK_RESET_DONE, POWER_ON_RESET, PIN_RESET and LEAVE_RESET complete, that is that
`exec` answers the next state described, under conditions on the state and the operands alone. -/
def Obligations.Resets : Prop :=
  (∀ (s : State) (pwrOk resetN : Bool) (gpio : Nat),
    ∃ u, exec (.powerOnReset pwrOk resetN gpio) s = .next u ∧ u.cleared ∧ u.pins = ⟨pwrOk, resetN⟩ ∧ u.pending = s.pending
      ∧ u.rd Reg.CFG_RESET_CAUSE = resetOf Reg.CFG_RESET_CAUSE ∧ u.rd Reg.FLT_LAST_CHIP = resetOf Reg.FLT_LAST_CHIP
      ∧ u.rd Reg.CFG_NVM_CTL = s.rd Reg.CFG_NVM_CTL &&& 6 ∧ u.sec.owner = s.sec.owner ∧ u.sec.ldev = s.sec.ldev
      ∧ (pwrOk = true → u.boot.gpio = gpio % 4))
  ∧ (∀ (s : State), s.inReset = false →
    ∃ u, exec .pinReset s = .next u ∧ u.cleared ∧ u.pins = ⟨true, false⟩ ∧ u.pending = s.pending
      ∧ u.flag Reg.CFG_RESET_CAUSE F.CFG_RESET_CAUSE.PIN = true ∧ u.rd Reg.FLT_LAST_CHIP = s.rd Reg.FLT_LAST_CHIP
      ∧ u.rd Reg.CFG_NVM_CTL = s.rd Reg.CFG_NVM_CTL &&& 6 ∧ u.sec.owner = s.sec.owner)
  ∧ (∀ (s : State) (vFuse : Nat) (factory : List Nat), s.pins.pwrOk = true → s.boot.running = false →
    ∃ u, exec (.leaveReset vFuse factory) s = .next { finish s u with pins := ⟨true, true⟩ }
      ∧ u.boot.running = true ∧ u.boot.loading = true ∧ u.boot.slot = s.firstSlot ∧ u.boot.leftAt = s.now
      ∧ u.flag Reg.CFG_NVM_CTL F.CFG_NVM_CTL.TRY_OTHER = false ∧ ∀ r, r < 64 → u.holder r = 3)
  ∧ (∀ (s : State) (by_ : Agent) (v : Word64), s.reaches by_ Reg.CFG_RESET = true →
    s.acts by_ Reg.CFG_RESET F.CFG_RESET.CHIP v.toNat = true →
    completes (.chipReset by_ v) s (fun u => u.time = 0 ∧ u.pkts = [] ∧ u.tab = {} ∧ u.que = {} ∧ u.mtr = {} ∧ u.scp = {}
      ∧ u.wit = {} ∧ u.prs = {} ∧ u.tim = {} ∧ u.boot.running = true ∧ u.boot.loading = true
      ∧ u.flag Reg.CFG_RESET_CAUSE F.CFG_RESET_CAUSE.SOFT = true ∧ u.sec.owner = s.sec.owner
      ∧ (∀ r, r < 64 → u.holder r = 3)
      ∧ ∀ off, 2 ≤ blockOf off → blockOf off ≠ 8 → blockOf off ≠ 20 → blockOf off ≠ 21 → u.rd off = resetOf off))
  ∧ (∀ (s : State) (by_ : Agent) (v : Word64), s.reaches by_ Reg.CFG_RESET = true →
    s.acts by_ Reg.CFG_RESET F.CFG_RESET.BLK v.toNat = true →
    completes (.blockReset by_ v) s (fun u =>
      let b := bits v.toNat F.CFG_RESET.BLOCK.hi F.CFG_RESET.BLOCK.lo
      (b = 6 ∨ b = 9 ∨ b = 13 ∨ b = 17 ∨ b = 18 ∨ b = 19 →
        (∀ off, blockOf off = b → u.rd off = resetOf off) ∧ (∀ i ∈ blockBits b, u.ready i = false)
          ∧ (mfind u.boot.resetting b).isSome = true)
      ∧ (b = 9 → u.ver = {}) ∧ (b = 17 → u.scp = {})
      ∧ (b = 18 → u.hif.msgs = [] ∧ u.hif.conds = [] ∧ u.hif.queues = [])))
  ∧ (∀ (s : State) (b : Nat) (bs : List Nat), s.inReset = false → mfind s.boot.resetting b = some bs → s.boot.done = [] →
    s.inFerry = false → b = 13 →
    completes (.blockResetDone b) s (fun u => mfind u.boot.resetting b = none
      ∧ ∀ x ∈ bs, x < 32 → x ≠ 0 → x ≠ 7 → x ≠ 11 → u.ready x = true))

/-- The parts of start-up that read, verify and put into service (R369 to R378, Tables BOOT-4 and BOOT-5). Where the rules
leave a choice it is the model's own (log entry 29).
It states that IMAGE_HEADER_READ, IMAGE_VERIFIED, VENDOR_SECTION_DECRYPT, REGS_SECTION_LOAD, HBM_TRAINING_DONE, KEEPER_START,
KEEPER_START_TIMEOUT, SEC_READY_TIMEOUT and CMDS_SECTIONS_DONE complete, that is that `exec` answers the next state
described, under conditions on the state and the operands alone. -/
def Obligations.StartUp : Prop :=
  (∀ (s : State) (ok : Bool) (bytes : Bytes), s.inReset = false → s.boot.running = true → s.boot.loading = true →
    s.boot.header = [] →
    completes (.imageHeaderRead ok bytes) s (fun u =>
      let h := sub bytes 0 (64 + 64 * min (leAt bytes 12 2) 64 + 96)
      if ok = false then u = s.attemptFail 2 0xFF 0
      else if headerOk h then u.boot = { s.boot with header := h } ∧ u.sec = { s.sec with serving := u.sec.serving }
        ∧ onlyRegs { s with boot := u.boot, sec := u.sec } u (· = Reg.CFG_LOAD_STAT)
      else ∃ w, u = State.attemptFail w 3 0xFF 0 ∧ w.boot = { s.boot with header := h }))
  ∧ (∀ (s : State) (ok : Bool), s.inReset = false → s.boot.loading = true → s.boot.header ≠ [] → s.stepDone 3 = false →
    s.secServing = some 3 →
    completes (.imageVerified ok) s (fun u =>
      let h := s.boot.header
      let owned := !s.sec.ownerId.isEmpty
      let id := if owned then s.sec.ownerId else certIdOf (Config.certDer 3)
      let key := if owned then s.sec.ownerKey else Config.certDer 3
      let digest := sha384 (sub h 0 (64 + 64 * s.imageN))
      let w := s.secVerify ok key digest (sub h (64 + 64 * s.imageN) 96)
      if bitOf (leAt h 6 2) 1 = owned ∧ sub h 32 16 = id ∧ ok = true then
        ∃ x, u = ((State.setBits x [1]).markStep 3).advanceLoad
          ∧ x.flag Reg.SEC_STATUS F.SEC_STATUS.APPROVED = bitOf (leAt h 6 2) 0
          ∧ x.fld Reg.CFG_BOOT_STAT F.CFG_BOOT_STAT.IMAGE_VER = leAt h 8 4
          ∧ x.rd (Reg.CFG_IMAGE_DIGEST 0) = leAt digest 0 8
      else u = w.attemptFail 4 0xFF 0))
  ∧ (∀ (s : State) (i : Nat) (bytes : Bytes) (sigOk : Bool) (plain exports), s.inReset = false → i < s.imageN →
    s.boot.header ≠ [] → s.boot.done.contains i = false → s.secType i = 0x01 → s.secReady = true → s.stepOpen 8 = true →
    completes (.vendorSectionDecrypt i bytes sigOk plain exports) s (fun u =>
      let w := s.secVerify sigOk (Config.certDer 3) (sha384 (sub bytes 0 96)) (sub bytes 96 96)
      if s.digestOk i bytes = false then u = s.attemptFail 5 i 0
      else if (sub bytes 0 4 = ascii "DLVS" ∧ leAt bytes 4 4 = 1 ∧ allZero (sub bytes 88 8) = true) ∧ sigOk = true
          ∧ ∃ x, plain = some x ∧ sha384 x = sub bytes 40 48 then
        u = State.sectionDone { w with boot := { w.boot with keeperVer := leAt bytes 8 4 } } i bytes
      else u = w.attemptFail 6 i 0))
  ∧ (∀ (s : State) (i : Nat) (bytes : Bytes) (sigOk : Bool), s.inReset = false → i < s.imageN → s.boot.header ≠ [] →
    s.boot.done.contains i = false → (s.secType i = 0x10 ∨ s.secType i = 0x12 ∨ s.secType i = 0x13) →
    s.stepOpen (stepOf (s.secType i) (s.secBlock i)) = true →
    completes (.regsSectionLoad i bytes sigOk) s (fun u =>
      if s.digestOk i bytes = false then u = s.attemptFail 5 i 0
      else if s.secType i = 0x12 then
        (if ferryOk bytes then u = (s.loadFerry bytes).sectionDone i bytes else u = s.attemptFail 3 i 0)
      else if s.secType i = 0x13 then u = s.sectionDone i bytes
      else match s.loadRegs (s.secBlock i) bytes with
        | (w, none) => u = w.sectionDone i bytes
        | (w, some (code, detail)) => u = w.attemptFail code i detail))
  ∧ (∀ (s : State) (ok : Bool), s.inReset = false → s.boot.running = true → s.ready 4 = false →
    s.flag Reg.CFG_BOOT_STAT F.CFG_BOOT_STAT.NO_IMAGE = true → s.boot.loading = false → s.inFerry = false →
    completes (.hbmTrainingDone ok) s (fun u =>
      if ok then u.ready 4 = true ∧ u.flag (Reg.HBM_STAT 0) F.HBM_STAT.TRAINED = true
        ∧ u.flag (Reg.HBM_STAT 1) F.HBM_STAT.TRAINED = true
      else u = s))
  ∧ (∀ (s : State) (t : Stamp), s.inReset = false → s.boot.keeperAt = some t → s.stepDone 8 = false →
    completes .keeperStart s (fun u => ∃ w, u = (State.markStep w 8).advanceLoad
      ∧ ∀ k, k < 4 → w.flag (Reg.KPR_STATUS k) F.KPR_STATUS.RUNNING = true
        ∧ w.fld (Reg.KPR_STATUS k) F.KPR_STATUS.FW_VER = s.boot.keeperVer % 2 ^ 32 ∧ (mget {} w.kpr k).lastAlive = s.now))
  ∧ (∀ (s : State) (t : Stamp), s.inReset = false → s.boot.keeperAt = some t → s.stepDone 8 = false →
    t + 100 * millisecond ≤ s.now →
    completes .keeperStartTimeout s (fun u =>
      (u.boot.loading = true ∧ u.boot.triedOther = true ∧ u.boot.header = [])
      ∨ (u.boot.loading = false ∧ u.flag Reg.CFG_BOOT_STAT F.CFG_BOOT_STAT.NO_IMAGE = true)))
  ∧ (∀ (s : State), s.inReset = false → s.boot.running = true → s.boot.loading = true → s.secReady = false →
    s.stepDone 3 = false → s.boot.leftAt + second ≤ s.now →
    completes .secReadyTimeout s (fun u => u.boot.loading = false ∧ u.boot.steps = []
      ∧ u.flag Reg.CFG_BOOT_STAT F.CFG_BOOT_STAT.NO_IMAGE = true ∧ u.fld Reg.CFG_LOAD_STAT F.CFG_LOAD_STAT.CODE = 13
      ∧ u.fld Reg.CFG_LOAD_STAT F.CFG_LOAD_STAT.PHASE = 9 ∧ ∀ r, r < 64 → u.holder r = 0))
  ∧ (∀ (s : State), s.inReset = false → s.stepOpen 13 = true → s.boot.cmdFail = none → s.tab.move = none →
    s.boot.cmds.length = (s.cmdSections.map (·.2)).sum → s.cmdsOk s.cmdSections s.boot.cmds = none →
    completes .cmdsSectionsDone s (fun u => u.ready 15 = true ∧ u.boot.loading = false ∧ u.boot.cmds = []
      ∧ u.fld Reg.CFG_LOAD_STAT F.CFG_LOAD_STAT.CODE = 1 ∧ ∀ r, r < 64 → u.holder r = 0))

/-- What the NVM interface does (R369, R384, Tables BOOT-14 and BOOT-15). Where the rules leave a choice it is the model's
own (log entry 40).
It states that NVM_CMD_INVALID, NVM_OP_DONE, BOOT_SELECTOR_WRITE, NVM_READ, NVM_ERASE and NVM_PROGRAM complete, that is that
`exec` answers the next state described, under conditions on the state and the operands alone. -/
def Obligations.NvmInterface : Prop :=
  (∀ (s : State) (by_ : Agent) (v : Word64) (op : Nat) (i : Instr), s.reaches by_ Reg.CFG_NVM_CMD = true →
    (i = .nvmRead by_ v ∧ op = 1 ∨ i = .nvmErase by_ v ∧ op = 2 ∨ i = .nvmProgram by_ v ∧ op = 3) →
    completes i s (fun u =>
      let a := s.fld Reg.CFG_NVM_ADDR F.CFG_NVM_ADDR.ADDR
      let n := bits v.toNat F.CFG_NVM_CMD.LENGTH.hi F.CFG_NVM_CMD.LENGTH.lo
      (s.flag Reg.CFG_NVM_CTL F.CFG_NVM_CTL.BUSY = true → u = s.touch by_)
      ∧ (s.flag Reg.CFG_NVM_CTL F.CFG_NVM_CTL.BUSY = false → s.isWarden by_ = true → s.nvmRefusal op a n = 0 →
          u.boot.nvmOp = some (op, a, s.fld Reg.CFG_NVM_HOST F.CFG_NVM_HOST.ADDR, n)
            ∧ u.flag Reg.CFG_NVM_CTL F.CFG_NVM_CTL.BUSY = true ∧ u.fld Reg.CFG_NVM_CTL F.CFG_NVM_CTL.STATUS = 0)
      ∧ (s.flag Reg.CFG_NVM_CTL F.CFG_NVM_CTL.BUSY = false → s.isWarden by_ = true → s.nvmRefusal op a n ≠ 0 →
          u.boot.nvmOp = none ∧ u.fld Reg.CFG_NVM_CTL F.CFG_NVM_CTL.STATUS = s.nvmRefusal op a n
            ∧ u.sticky Src.CFG_NVM_DONE = true)))
  ∧ (∀ (s : State) (by_ : Agent) (v : Word64), s.reaches by_ Reg.CFG_NVM_CMD = true → v.toNat % 8 = 0 ∨ 3 < v.toNat % 8 →
    s.flag Reg.CFG_NVM_CTL F.CFG_NVM_CTL.BUSY = false → s.isWarden by_ = true →
    completes (.nvmCmdInvalid by_ v) s (fun u => u.fld Reg.CFG_NVM_CTL F.CFG_NVM_CTL.STATUS = 3
      ∧ u.sticky Src.CFG_NVM_DONE = true))
  ∧ (∀ (s : State) (status op a host n : Nat) (data : Bytes), s.inReset = false → s.boot.nvmOp = some (op, a, host, n) →
    (status = 1 ∨ status = 4 ∨ status = 5) →
    completes (.nvmOpDone status data) s (fun u => u.boot.nvmOp = none
      ∧ u.flag Reg.CFG_NVM_CTL F.CFG_NVM_CTL.BUSY = false ∧ u.fld Reg.CFG_NVM_CTL F.CFG_NVM_CTL.STATUS = status
      ∧ u.sticky Src.CFG_NVM_DONE = true
      ∧ u.out = s.out ++ (if status ≠ 1 then [] else if op = 1 then [.hostWrite 0 host (sub data 0 n)]
          else if op = 2 then [.nvm 2 a (le 4 n)] else [.nvm 3 a (sub data 0 n)])))
  ∧ (∀ (s : State) (by_ : Agent) (v : Word64), s.reaches by_ Reg.CFG_NVM_CTL = true → s.isWarden by_ = true →
    completes (.bootSelectorWrite by_ v) s (fun u =>
      u.fld Reg.CFG_NVM_CTL F.CFG_NVM_CTL.PREF = bits v.toNat F.CFG_NVM_CTL.PREF.hi F.CFG_NVM_CTL.PREF.lo
        ∧ u.fld Reg.CFG_NVM_CTL F.CFG_NVM_CTL.TRY_OTHER = bits v.toNat F.CFG_NVM_CTL.TRY_OTHER.hi F.CFG_NVM_CTL.TRY_OTHER.lo
        ∧ u.out = s.out ++ [.nvm 4 0 [BitVec.ofNat 8 (u.rd Reg.CFG_NVM_CTL % 8)]]))

/-! ## Device time -/

/-- What the writes to the registers of the servo owner do (R43, R44, R45, Table TIME-8, Table TIME-33): a step, a slew, a
change of the increment, one PTP update, a forced free run, and the taking into force of TIM's shadows. Where the rules leave
a choice it is the model's own (log entry 13).
It states that TIM_STEP, TIM_SLEW, TIM_INCR, PTP_SERVO_UPDATE and FREE_RUN complete, that is that `exec` answers the next
state described, under conditions on the state and the operands alone. -/
def Obligations.TimeServoWrites : Prop :=
  (∀ (s : State) (by_ : Agent) (v : Word64), s.reaches by_ Reg.TIM_STEP = true →
    completes (.timStep by_ v) s (fun u =>
      (s.servoOwner by_ = true → s.tq ≤ 1 → u.time = ((s.time : Int) + asInt 64 v.toNat * (2 ^ 48 : Nat)).toNat
        ∧ u.rd Reg.TIM_STEP = v.toNat)
      ∧ (s.servoOwner by_ = true → 2 ≤ s.tq → u.time = s.time ∧ u.sticky Src.TIM_STEP_REFUSED = true)
      ∧ (s.servoOwner by_ = false → u = s.touch by_)))
  ∧ (∀ (s : State) (by_ : Agent) (v : Word64), s.reaches by_ Reg.TIM_SLEW = true →
    completes (.timSlew by_ v) s (fun u =>
      if s.servoOwner by_ then
        u.tim = { s.tim with slew := s.tim.slew + asInt 48 (bits v.toNat 47 0) * (2 ^ 32 : Nat) }
          ∧ u.fld Reg.TIM_SLEW F.TIM_SLEW.RATE = bits v.toNat 63 48 ∧ ∀ off, off ≠ Reg.TIM_SLEW → u.rd off = s.rd off
      else u = s.touch by_))
  ∧ (∀ (s : State) (by_ : Agent) (v : Word64), s.reaches by_ Reg.TIM_INCR = true →
    completes (.timIncr by_ v) s (fun u =>
      if s.servoOwner by_ then
        (if ((v.toNat : Int) - 0x0001400000000000).natAbs * 2000 ≤ 0x0001400000000000 then
          onlyRegs (s.touch by_) u (· = Reg.TIM_INCR) ∧ u.rd Reg.TIM_INCR = v.toNat
        else u.rd Reg.TIM_INCR = s.rd Reg.TIM_INCR ∧ u.sticky Src.TIM_SERVO_LIMIT = true)
      else u = s.touch by_))
  ∧ (∀ (s : State) (by_ : Agent) (v : Word64), s.reaches by_ Reg.TIM_PTP_OFS = true →
    completes (.ptpServoUpdate by_ v) s (fun u =>
      (s.servoOwner by_ = true → u.fld Reg.TIM_PTP_OFS F.TIM_PTP_OFS.OFFSET = v.toNat % 2 ^ 48
        ∧ (s.refInUse = 3 → s.refNamed 3 = true → s.refValid 3 = true → u.tim.lastUpdate = s.now))
      ∧ (s.servoOwner by_ = false → u = s.touch by_)))
  ∧ (∀ (s : State) (by_ : Agent) (v : Word64), s.reaches by_ Reg.TIM_CTRL = true →
    s.acts by_ Reg.TIM_CTRL F.TIM_CTRL.FREE_RUN v.toNat = true →
    completes (.freeRun by_ v) s (fun u => u.tq = 0))

/-- What the references and the PPS pins do (R46 to R49, Table TIME-8, Table TIME-22): an edge is stamped to 2^-6 ns and is
valid when it comes one second after the last to within 100 µs; a missing edge, a lost reference and a second of holdover
change the state; a revertive servo changes its reference; an output drives its edge, once in each second. Where the rules
leave a choice it is the model's own (log entries 13 and 14).
It states that PPS_EDGE, PPS_MISSING, FREQ_COMPARE, SERVO_UPDATE_TIMEOUT, HOLDOVER_SECOND, REF_REVERT and PPS_OUT_EDGE
complete, that is that `exec` answers the next state described, under conditions on the state and the operands alone. -/
def Obligations.TimeReferences : Prop :=
  (∀ (s : State) (i d : Nat), s.inReset = false → i < 2 →
    completes (.ppsEdge i d) s (fun u =>
      let t := roundStamp (s.quadCopy 128 + (inCycle d : Nat) - mget 0 s.unit.pps i)
      u.rd (if i = 0 then Reg.TIM_PPS_IN0 else Reg.TIM_PPS_IN1) = d96 t % 2 ^ 64
        ∧ (mget {} u.tim.pps i).last = some t
        ∧ ((mget {} u.tim.pps i).valid = true ↔ ∃ l, (mget {} s.tim.pps i).last = some l
            ∧ ((t : Int) - (l : Int) - (second : Int)).natAbs ≤ 100 * microsecond)
        ∧ (s.flag Reg.TIM_TOD_NEXT F.TIM_TOD_NEXT.VALID = true → s.tim.todWritten < t → u.refInUse = i + 1 →
            u.flag Reg.TIM_TOD_NEXT F.TIM_TOD_NEXT.VALID = false
              ∧ (mget {} u.tim.pps i).tod = some (s.fld Reg.TIM_TOD_NEXT F.TIM_TOD_NEXT.SEC, t))))
  ∧ (∀ (s : State) (i : Nat), s.inReset = false → i < 2 → s.refPrios.contains (i + 1) = true →
    (mget {} s.tim.pps i).since + 11 * second / 10 ≤ s.now → (mget {} s.tim.pps i).missing = false →
    completes (.ppsMissing i) s (fun u =>
      (mget {} u.tim.pps i).valid = false ∧ u.refValid (i + 1) = false ∧ u.sticky Src.TIM_PPS_MISSING = true))
  ∧ (∀ (s : State) (ok : Bool) (phase : Int), s.inReset = false → s.tim.freqAt ≠ some (s.now / (100 * millisecond)) →
    completes (.freqCompare ok phase) s (fun u => onlyRegs { s with tim := u.tim } u (· = Reg.TIM_STATE) ∧ u.tq = s.tq
      ∧ u.tim = { s.tim with freqAt := some (s.now / (100 * millisecond)), freqPhase := phase }
      ∧ (u.flag Reg.TIM_STATE F.TIM_STATE.FREQ_REF_OK = true ↔
          ok = true ∧ (s.cfgFld Reg.TIM_CTRL F.TIM_CTRL.FREQ_SRC = 1 ∨ s.cfgFld Reg.TIM_CTRL F.TIM_CTRL.FREQ_SRC = 2))))
  ∧ (∀ (s : State), s.inReset = false → s.refInUse ≠ 0 → (s.tq = 1 ∨ s.tq = 2 ∨ s.tq = 3) →
    s.tim.lastUpdate + s.cfgFld Reg.TIM_TRACK_CFG F.TIM_TRACK_CFG.LOSS_COUNT
      * s.updateInterval s.refInUse ≤ s.now →
    completes .servoUpdateTimeout s (fun u =>
      u.tq = (if s.tq = 1 then 0 else 4) ∧ u.refValid s.refInUse = false ∧ u.sticky Src.TIM_REF_LOST = true))
  ∧ (∀ (s : State), s.inReset = false → s.tq = 4 → s.tim.holdEntry + second ≤ s.now →
    completes .holdoverSecond s (fun u => u.tq = 5))
  ∧ (∀ (s : State) (first rest : List Nat) (c : Nat) (t : Stamp), s.inReset = false →
    s.cfgFlag Reg.TIM_REF_CFG F.TIM_REF_CFG.REVERTIVE = true → s.refInUse ≠ 0 → s.refNamed s.refInUse = true →
    s.refPrios = first ++ c :: rest → c ≠ 0 → c ≠ s.refInUse → s.refInUse ∉ first →
    mfind s.tim.refSince c = some t → t + 10 * second ≤ s.now →
    (∀ r ∈ first, r = 0 ∨ ∀ x, mfind s.tim.refSince r = some x → s.now < x + 10 * second) →
    completes .refRevert s (fun u => u.refInUse = c ∧ u.tq = s.tq))
  ∧ (∀ (s : State) (i : Nat), s.inReset = false → i < 2 → bitOf (s.rd (ppsOutReg i)) 0 = true →
    let ofs : Int := asInt 32 (bits (s.rd (ppsOutReg i)) 39 8) * 65536
    let k := (((s.now : Int) - ofs) / (second : Int)).toNat
    (∀ w, mfind s.tim.ppsOutOn i = some w → w / second + 1 ≤ k) → mfind s.tim.ppsOutLast i ≠ some k →
    completes (.ppsOutEdge i true) s (fun u => u.regs = s.regs ∧ mfind u.tim.ppsOutLast i = some k
      ∧ u.out = s.out ++ [.ppsOut i (roundStamp (((k * second : Nat) : Int) + ofs)) true]))
  ∧ (∀ (s : State) (i : Nat) (t : Stamp), s.inReset = false → i < 2 → mfind s.tim.ppsOutHigh i = some t → t ≤ s.now →
    completes (.ppsOutEdge i false) s (fun u => u.regs = s.regs ∧ u.out = s.out ++ [.ppsOut i t false]
      ∧ mfind u.tim.ppsOutHigh i = none))

/-- What the lamplighter and the calibration do (R50 to R54, R59, R67 to R70). Where the rules leave a choice it is the
model's own (log entry 14).
It states that WICK_PULSE_LAUNCH, WICK_PULSE_ARRIVAL, WICK_ECHO, CAL_REMEASURE, CAL_SLEW_STEP and CAL_AGE_STALE complete,
that is that `exec` answers the next state described, under conditions on the state and the operands alone. -/
def Obligations.TimeLampsAndCalibration : Prop :=
  (∀ (s : State), s.inReset = false → s.tim.lampNext ≤ s.tim.cycles →
    completes .wickPulseLaunch s (fun u => u.regs = s.regs ∧ u.tim.lampLaunch = s.tim.lampLaunch + 1
      ∧ u.tim.lampNext = s.tim.lampNext + (if s.tim.lampLaunch % 5 = 4 then 820 else 819)
      ∧ u.tim.lampV = s.ahead (u.tim.lampNext - s.tim.cycles)
      ∧ ∀ q, q < 129 → (mget ({} : LampQuad) u.tim.lamps q).v = some s.tim.lampV))
  ∧ (∀ (s : State) (q d v : Nat) (phase : List Nat), s.inReset = false → q < 129 →
    (mget ({} : LampQuad) s.tim.lamps q).v = some v →
    completes (.wickPulseArrival q d phase) s (fun u =>
      let lq := mget ({} : LampQuad) s.tim.lamps q
      let e : Int := (v : Int) + asInt 32 (s.fld (Reg.TIM_LAMP_DLY q) F.TIM_LAMP_DLY.DELAY) - (s.quadCopy q + (inCycle d : Nat))
      (mget {} u.tim.lamps q).residuals = (e.natAbs :: lq.residuals).take 16
        ∧ u.quadCopy q = s.quadCopy q + (if lq.reload then e else 0)
        ∧ (lq.reload = true → (mget {} u.tim.lamps q).reload = false ∧ (mget {} u.tim.lamps q).spread = 0
            ∧ u.flag (Reg.TIM_LAMP_RES q) F.TIM_LAMP_RES.RELOADED = true)
        ∧ (lq.reload = false → (mget {} u.tim.lamps q).spread = e
            ∧ (mget {} u.tim.lamps q).reload = decide (65536 < e.natAbs)
            ∧ u.fld (Reg.TIM_LAMP_RES q) F.TIM_LAMP_RES.RESIDUAL = ofIntW 16 (satInt 16 e)
            ∧ (16384 < e.natAbs → u.sticky Src.TIM_COPY_ERR = true))))
  ∧ (∀ (s : State) (q : Nat) (roundTrip : Int), s.inReset = false → q < 129 →
    completes (.wickEcho q roundTrip) s (fun u =>
      let f := mget ({} : QuadRec) s.unit.quads q
      let x : Int := (roundTrip - f.turnaround) / 2 + f.asymmetry
      let samples := (x :: (mget ({} : LampQuad) s.tim.lamps q).samples).take 16
      if 32768 < (x - f.delay).natAbs then
        u.rd (Reg.TIM_LAMP_DLY q) = s.rd (Reg.TIM_LAMP_DLY q) ∧ u.sticky Src.TIM_WICK_RANGE = true
      else
        (mget {} u.tim.lamps q).samples = samples
          ∧ u.fld (Reg.TIM_LAMP_DLY q) F.TIM_LAMP_DLY.DELAY
            = ofIntW 32 (roundDivInt (samples.foldl (· + ·) 0) samples.length)
          ∧ ∀ off, off ≠ Reg.TIM_LAMP_DLY q → u.rd off = s.rd off))
  ∧ (∀ (s : State) (l : Nat) (temp : Int) (rxSet txSet : Nat), s.inReset = false → l < 514 →
    isDue ((mget ({} : LaneCal) s.tim.cals l).measured) (s.cfgFld Reg.TIM_CAL_CFG F.TIM_CAL_CFG.PERIOD_S * second) s.now = true →
    completes (.calRemeasure l temp rxSet txSet) s (fun u =>
      let o := if l < 512 then l / 8 else 0
      let f := mget ({} : LaneRec) s.unit.lanes l
      let target (p : PathRec) (setting : Nat) (r : Int) : Int := p.const + p.temp * (temp - f.point) + mget 0 p.eq setting + r
      let r := roundDivInt (f.scale * (asInt 32 (s.fld (Reg.CND_REPLICA o) F.CND_REPLICA.DELAY)
        - asInt 32 (s.fld (Reg.CND_REPLICA o) F.CND_REPLICA.FACTORY))) 65536
      u.fld (Reg.TIM_CAL_RX l) F.TIM_CAL_RX.TARGET = ofIntW 32 (target f.rx rxSet r)
        ∧ u.fld (Reg.TIM_CAL_TX l) F.TIM_CAL_TX.TARGET = ofIntW 32 (target f.tx txSet r)
        ∧ u.fld (Reg.TIM_CAL_RX l) F.TIM_CAL_RX.IN_FORCE = s.fld (Reg.TIM_CAL_RX l) F.TIM_CAL_RX.IN_FORCE
        ∧ (mget {} u.tim.cals l).measured = some s.now))
  ∧ (∀ (s : State), s.inReset = false → s.tim.slewedAt ≠ some (s.now / (second / 64)) →
    completes .calSlewStep s (fun u => u.tim.slewedAt = some (s.now / (second / 64)) ∧ ∀ l, l < 514 →
      let target := asInt 32 (s.fld (Reg.TIM_CAL_RX l) F.TIM_CAL_RX.TARGET)
      let cur := asInt 32 (s.fld (Reg.TIM_CAL_RX l) F.TIM_CAL_RX.IN_FORCE)
      u.fld (Reg.TIM_CAL_RX l) F.TIM_CAL_RX.TARGET = s.fld (Reg.TIM_CAL_RX l) F.TIM_CAL_RX.TARGET
        ∧ u.fld (Reg.TIM_CAL_RX l) F.TIM_CAL_RX.IN_FORCE
          = (if target = cur then s.fld (Reg.TIM_CAL_RX l) F.TIM_CAL_RX.IN_FORCE
              else ofIntW 32 (if cur < target then cur + 1 else cur - 1))))
  ∧ (∀ (s : State) (l : Nat), s.inReset = false → l < 514 →
    completes (.calAgeStale l) s (fun u => (mget ({} : LaneCal) u.tim.cals l).stale = s.calWorn l
      ∧ (s.calWorn l = true → (mget ({} : LaneCal) s.tim.cals l).stale = false → u.sticky Src.TIM_CAL_STALE = true)))


/-! ## Ports, lanes and received frames -/

/-- What the writes to the ports' registers do (R78, R92): a PHY type or a FEC setting that the lane quads or the octet mode
do not permit is rejected, as is an octet mode that does not permit a port's PHY type; an octet mode is changed with every
port of the octet halted; a disabled port is halted when nothing of it is in flight. Where the rules leave a choice it is the
model's own (log entry 15).
It states that PRT_CFG_WRITE, PRT_OCTET_WRITE, PORT_DISABLE and PORT_HALTED complete, that is that `exec` answers the next
state described, under conditions on the state and the operands alone. -/
def Obligations.PortWrites : Prop :=
  (∀ (s : State) (by_ : Agent) (p : Nat) (v : Word64), p < 514 → s.portExists p = true → s.reaches by_ (Reg.PRT_CFG p) = true →
    completes (.prtCfgWrite by_ p v) s (fun u =>
      let r := Reg.PRT_CFG p
      let phy := bits v.toNat F.PRT_CFG.PHY.hi F.PRT_CFG.PHY.lo
      let fec := bits v.toNat F.PRT_CFG.FEC.hi F.PRT_CFG.FEC.lo
      if p < 512 ∧ s.portHalted p = true ∧ (phy ≠ s.phyOf p ∨ fec ≠ s.fecOf p) ∧ (s.wr r v.toNat).phyOk p = false then
        u.rd r = s.rd r ∧ u.sticky Src.PRT_MODE_REJECT = true
      else
        u.flag r F.PRT_CFG.EN = decide (v.toNat % 2 = 1)
          ∧ u.fld r F.PRT_CFG.PHY = (if p < 512 ∧ s.portHalted p = true then phy else s.phyOf p)
          ∧ (v.toNat % 2 = 1 → u.portHalted p = false)))
  ∧ (∀ (s : State) (by_ : Agent) (o : Nat) (v : Word64), o < 64 → s.reaches by_ (Reg.PRT_OCTET o) = true →
    completes (.prtOctetWrite by_ o v) s (fun u =>
      let r := Reg.PRT_OCTET o
      let mode := v.toNat % 4
      if mode ≠ s.fld r F.PRT_OCTET.MODE ∧ (s.octetPorts o).all s.portHalted = false then
        u.rd r = s.rd r ∧ u.sticky Src.CFG_LIVE_WRITE = true
      else if mode ≠ s.fld r F.PRT_OCTET.MODE ∧ (s.octetPorts o).any (fun p => !(phyInMode mode (s.phyOf p))) = true then
        u.rd r = s.rd r ∧ u.sticky Src.PRT_MODE_REJECT = true
      else onlyRegs (s.touch by_) u (· = r) ∧ u.fld r F.PRT_OCTET.MODE = mode))
  ∧ (∀ (s : State) (by_ : Agent) (p : Nat), p < 514 → s.portExists p = true → s.reaches by_ (Reg.PRT_CFG p) = true →
    completes (.portDisable by_ p) s (fun u =>
      u.flag (Reg.PRT_CFG p) F.PRT_CFG.EN = false
        ∧ (s.flag (Reg.PRT_CFG p) F.PRT_CFG.EN = true → (s.portSt p).inFlight = 0 → u.portHalted p = true)
        ∧ (s.flag (Reg.PRT_CFG p) F.PRT_CFG.EN = true → (s.portSt p).inFlight ≠ 0 →
            u.portHalted p = s.portHalted p ∧ (u.portSt p).stopping = true)
        ∧ ((s.egress p).due = [] → (s.egress p).staging = [] → ∀ off, off ≠ Reg.PRT_CFG p → off ≠ Reg.PRT_STATUS p →
            off ≠ Reg.QUE_CTL → off ≠ Reg.LCK_PORT_STAT p → u.rd off = s.rd off)))
  ∧ (∀ (s : State) (p : Nat), s.inReset = false → p < 514 → s.portExists p = true →
    completes (.portHalted p) s (fun u =>
      if s.flag (Reg.PRT_CFG p) F.PRT_CFG.EN = false ∧ (s.portSt p).inFlight = 0 ∧ s.portHalted p = false then
        u.portHalted p = true ∧ (u.egress p).due = [] ∧ (u.egress p).staging = []
          ∧ ((s.egress p).due = [] → (s.egress p).staging = [] → ∀ off, off ≠ Reg.PRT_STATUS p → off ≠ Reg.QUE_CTL →
              off ≠ Reg.LCK_PORT_STAT p → u.rd off = s.rd off)
      else u = s))

/-- What changes a link (R80, R89, R93, R95): each attempt is counted; a link that comes up or goes down says so in
PRT_STATUS and raises PRT_LINK_CHANGE; going down drops what waits at the port's egress; a lost clock or anchor clears its
bit, and in TQ 3 an anchor whose trim suffices is taken again. Where the rules leave a choice it is the model's own (log entry 15).
It states that AN_ATTEMPT, LINK_UP, LINK_DOWN, CDR_LOSS and ALIGN_LOST complete, that is that `exec` answers the next state
described, under conditions on the state and the operands alone. -/
def Obligations.LinkChanges : Prop :=
  (∀ (s : State) (p : Nat) (resolved trained : Bool), s.inReset = false → p < 514 → s.portExists p = true →
    s.flag (Reg.PRT_CFG p) F.PRT_CFG.EN = true → s.flag (Reg.PRT_CFG p) F.PRT_CFG.AN_EN = true → s.linkUp p = false →
    completes (.anAttempt p resolved trained) s (fun u => onlyRegs s u (· = Reg.PRT_STATUS p)
      ∧ u.flag (Reg.PRT_STATUS p) F.PRT_STATUS.AN_DONE = resolved
      ∧ u.flag (Reg.PRT_STATUS p) F.PRT_STATUS.TRAIN_DONE = (resolved && trained)
      ∧ u.fld (Reg.PRT_STATUS p) F.PRT_STATUS.LINK_CHANGES = (s.fld (Reg.PRT_STATUS p) F.PRT_STATUS.LINK_CHANGES + 1) % 65536))
  ∧ (∀ (s : State) (p : Nat) (skews : List Nat) (far : Option Nat), s.inReset = false → p < 514 → s.portExists p = true →
    s.flag (Reg.PRT_CFG p) F.PRT_CFG.EN = true → s.phyOf p ≠ 0 → s.linkUp p = false →
    (s.flag (Reg.PRT_CFG p) F.PRT_CFG.AN_EN = true → s.flag (Reg.PRT_STATUS p) F.PRT_STATUS.AN_DONE = true
      ∧ s.flag (Reg.PRT_STATUS p) F.PRT_STATUS.TRAIN_DONE = true) →
    completes (.linkUp p skews far) s (fun u => u.linkUp p = true ∧ u.sticky Src.PRT_LINK_CHANGE = true
      ∧ u.flag (Reg.PRT_STATUS p) F.PRT_STATUS.BLOCK_SYNC = true
      ∧ u.flag (Reg.PRT_STATUS p) F.PRT_STATUS.ALIGNED = decide (s.tq = 3)
      ∧ (s.fecOf p ≠ 0 → u.flag (Reg.PRT_STATUS p) F.PRT_STATUS.AM_ALIGN = true)
      ∧ u.fld (Reg.PRT_STATUS p) F.PRT_STATUS.LINK_CHANGES = (s.fld (Reg.PRT_STATUS p) F.PRT_STATUS.LINK_CHANGES + 1) % 65536))
  ∧ (∀ (s : State) (p : Nat), s.inReset = false → p < 514 → s.portExists p = true → s.linkUp p = true →
    completes (.linkDown p) s (fun u => u.linkUp p = false ∧ u.sticky Src.PRT_LINK_CHANGE = true
      ∧ u.flag (Reg.PRT_STATUS p) F.PRT_STATUS.BLOCK_SYNC = false ∧ u.flag (Reg.PRT_STATUS p) F.PRT_STATUS.ALIGNED = false
      ∧ (u.egress p).due = [] ∧ (u.egress p).staging = []))
  ∧ (∀ (s : State) (l : Nat) (signal : Bool), s.inReset = false → l < 514 →
    completes (.cdrLoss l signal) s (fun u =>
      if s.flag (Reg.PRT_CFG (s.portOfLane l)) F.PRT_CFG.EN = true ∧ s.flag (Reg.SER_STATUS l) F.SER_STATUS.CDR_TRACK = true then
        u.flag (Reg.SER_STATUS l) F.SER_STATUS.CDR_TRACK = false
          ∧ u.flag (Reg.SER_STATUS l) F.SER_STATUS.SIGNAL = signal ∧ u.sticky Src.SER_CDR_LOSS = true
      else u = s))
  ∧ (∀ (s : State) (p trim : Nat), s.inReset = false → p < 514 → s.portExists p = true →
    completes (.alignLost p trim) s (fun u =>
      if trim ≤ 1024 then
        (if s.tq = 3 ∧ s.linkUp p = true then onlyRegs s u (· = Reg.PRT_STATUS p) ∧ u.flag (Reg.PRT_STATUS p) F.PRT_STATUS.ALIGNED = true
          else u = s)
      else if s.flag (Reg.PRT_STATUS p) F.PRT_STATUS.ALIGNED then
        u.flag (Reg.PRT_STATUS p) F.PRT_STATUS.ALIGNED = false ∧ u.sticky Src.PRT_ALIGN_LOST = true
      else u = s))

/-- The life of a received frame up to its decision (R56, R82, R86, R97, R100, R115, R138, R185, R379, R508): it is stamped
and given its rule version; its end says whether it is bad; it enters its slice's dispatch queue and a barge, and its
manifest is released in the port's order. Where the rules leave a choice it is the model's own (log entries 9 and 11).
It states that FRAME_RECEIVE, RX_FRAME_END, FRAME_READY, BARGE_DISPATCH, MANIFEST_RELEASE and PACKET_LOOKUP complete, that is
that `exec` answers the next state described, under conditions on the state and the operands alone. -/
def Obligations.ReceivedFrames : Prop :=
  (∀ (s : State) (port lane d : Nat) (phi : Int) (n d0 : Nat), s.inReset = false → port < 514 → lane < 514 →
    let w := s.commitDue (s.rxStamp port lane d phi n)
    w.portExists port = true → w.portOfLane lane = port → w.linkUp port = true → w.portHalted port = false →
    (w.portSt port).stopping = false → w.deaf port = false → w.inFerry = false → w.receivingOf port = none →
    completes (.frameReceive port lane d phi n d0) s (fun u =>
      if w.exportPort port = true ∨ w.towPort port = true then u = w.count (Ctr.PRT_RX_DISCARD port)
      else
        let t := ballStamp (w.phyOf port) (w.quadCopy (quadOf lane) + (inCycle d : Nat)) phi n
          (-(asInt 32 (bits (w.rd (Reg.TIM_CAL_RX lane)) 31 0)))
        let ver := if w.ready (16 + parseSlice port) = false ∨ w.ready 13 = false then 0 else w.versionAt t
        u.nextPkt = w.nextPkt + 1 ∧ u.regs = w.regs ∧ ∃ p, mfind u.pkts w.nextPkt = some p ∧ p.port = port ∧ p.stamp = t
          ∧ p.ver = ver ∧ p.ended = false ∧ p.tq = w.stampTq lane ∧ p.ub = w.stampUb lane
          ∧ (ver = 0 → p.dropped = true ∧ p.stage = .stored) ∧ (ver ≠ 0 → p.dropped = false ∧ p.stage = .receiving)))
  ∧ (∀ (s : State) (port : Nat) (bytes : Bytes) (err : Bool) (id : Nat) (p : Packet), s.inReset = false → port < 514 →
    s.receivingOf port = some (id, p) → s.loopback port = false →
    completes (.rxFrameEnd port bytes err) s (fun u =>
      let l := bytes.length
      let fcsBad := err || bytes.drop (l - 4) != fcs (bytes.take (l - 4))
      let bad := decide (l < 64) || decide (s.cfgAtFld (Reg.PRT_CFG port) F.PRT_CFG.MTU p.ver p.stamp < l) || fcsBad
      ((p.stage ≠ .receiving ∨ bad = false) → p.stage ≠ .stored →
          mfind u.pkts id = some { p with ended := true, bytes := bytes, bad := bad, rxErr := p.rxErr || fcsBad } ∧ u.regs = s.regs)
      ∧ (p.stage = .receiving → bad = true → p.refs = 0 → p.cpu = [] → mfind u.pkts id = none)))
  ∧ (∀ (s : State) (port : Nat) (head : Bytes) (id : Nat) (p : Packet), s.inReset = false → port < 514 →
    (s.portFrames port).find? (fun e => e.2.stage == .receiving) = some (id, p) → s.loopback port = false →
    (p.ended = true ∨ p.depth ≤ head.length) →
    completes (.frameReady port head) s (fun u =>
      if (s.dispatchQ (parseSlice port)).length < 64 then
        mfind u.pkts id = some { p with bytes := if p.ended then p.bytes else head, readyAt := s.now, stage := .dispatch }
          ∧ id ∈ u.dispatchQ (parseSlice port) ∧ (u.dispatchQ (parseSlice port)).length = (s.dispatchQ (parseSlice port)).length + 1
      else u.prs = s.prs ∧ u.sticky Src.PRS_DISPATCH_OVF = true))
  ∧ (∀ (s : State) (sl id : Nat) (rest : List Nat) (p : Packet), s.inReset = false → sl < 16 → s.dispatchQ sl = id :: rest →
    mfind s.pkts id = some p → (∃ i, i < 96 ∧ s.bargeFree (96 * sl + i) = true) →
    completes (.bargeDispatch sl) s (fun u => u.dispatchQ sl = rest ∧ u.regs = s.regs
      ∧ ∃ i, i < 96 ∧ s.bargeFree (96 * sl + i) = true ∧ mget 95 u.prs.lastBarge sl = i
        ∧ (∃ p', mfind u.pkts id = some p' ∧ p'.stage = .barge (96 * sl + i))
        ∧ ∃ b, mfind u.prs.barges (96 * sl + i) = some b ∧ b.pkt = id ∧ b.cursor = 0 ∧ b.stack = [] ∧ b.cycles = 0
          ∧ b.pc = bits (s.cfgAt (Reg.PRS_PROFILE sl p.profile) p.ver p.stamp) F.PRS_PROFILE.ENTRY.hi F.PRS_PROFILE.ENTRY.lo
          ∧ b.man = le 64 (p.port + 1024 * p.profile)))
  ∧ (∀ (s : State) (port id : Nat) (p : Packet) (rest : List (Nat × Packet)), s.inReset = false → port < 514 →
    s.portFrames port = (id, p) :: rest →
    completes (.manifestRelease port) s (fun u =>
      (p.stage ≠ .closed → u = s)
      ∧ (p.stage = .closed → p.excAction = 1 →
          u = { s with nextRel := s.nextRel + 1 }.setPkt id { p with stage := .lookup, rel := s.nextRel })
      ∧ (p.stage = .closed → p.excAction = 2 → ∃ p', mfind u.pkts id = some p' ∧ p'.kind = 3 ∧ p'.stage = .meter
          ∧ p'.rel = s.nextRel)
      ∧ (p.stage = .closed → p.excAction = 0 → mfind s.pkts id = some p → p.ended = true → p.refs = 0 → p.cpu = [] →
          mfind u.pkts id = none)))
  ∧ (∀ (s : State) (id : Nat) (p : Packet) (bad : Option (Nat × Nat)), s.inReset = false → mfind s.pkts id = some p →
    p.stage = .lookup → s.inTurn id [] = true →
    completes (.packetLookup id bad) s (fun u => ∃ p', mfind u.pkts id = some p' ∧ p'.stage = .meter ∧ p'.clsKnown = true
      ∧ p'.port = p.port ∧ p'.stamp = p.stamp ∧ p'.ver = p.ver
      ∧ p'.dropped = (p'.kind == 0 && p'.cpu.isEmpty)))


/-! ## The parse engines -/

/-- What the arithmetic words do (R107, R108, R109, Table PARSE-4): the result goes to DST, Z and C follow it, and the barge goes on.
It states that CMP, CMPM, MOV, NOP, ADD, SUB, AND, OR, XOR, SHL and SHR complete, that is that `exec` answers the next state
described, under conditions on the state and the operands alone. -/
def Obligations.ArithmeticWords : Prop :=
  (∀ (s : State) (n o errs : Nat) (p : Packet) (b : Barge) (w : Microword) (i : Instr) (f : Word64 → Word64 → Word64)
      (carry : Word64 → Word64 → Bool), s.runsNext n o p b w → errs ≠ 2 →
    (i = .add n errs ∧ o = 0x02 ∧ (∀ x y, f x y = x + y) ∧ (∀ x y, carry x y = decide (2 ^ 64 ≤ x.toNat + y.toNat))
      ∨ i = .sub n errs ∧ o = 0x03 ∧ (∀ x y, f x y = x - y) ∧ (∀ x y, carry x y = decide (x.toNat < y.toNat))
      ∨ i = .and n errs ∧ o = 0x04 ∧ (∀ x y, f x y = x &&& y) ∧ (∀ x y, carry x y = false)
      ∨ i = .or n errs ∧ o = 0x05 ∧ (∀ x y, f x y = x ||| y) ∧ (∀ x y, carry x y = false)
      ∨ i = .xor n errs ∧ o = 0x06 ∧ (∀ x y, f x y = x ^^^ y) ∧ (∀ x y, carry x y = false)
      ∨ i = .shl n errs ∧ o = 0x07 ∧ (∀ x y, f x y = x <<< (y.toNat % 64)) ∧ (∀ x y, carry x y = false)
      ∨ i = .shr n errs ∧ o = 0x08 ∧ (∀ x y, f x y = x >>> (y.toNat % 64)) ∧ (∀ x y, carry x y = false)) →
    completes i s (fun u =>
      let v := operandB p b w
      let a := greg b (Word.srcA w)
      s.wordRan u n errs b w
        { setGreg { b with wend := v.2 } (Word.dst w) (f a v.1) with z := f a v.1 == 0, c := carry a v.1 } none))
  ∧ (∀ (s : State) (n errs : Nat) (p : Packet) (b : Barge) (w : Microword), s.runsNext n 0x09 p b w → errs ≠ 2 →
    completes (.cmp n errs) s (fun u =>
      let v := operandB p b w
      let a := greg b (Word.srcA w)
      s.wordRan u n errs b w { b with wend := v.2, z := a - v.1 == 0, c := decide (a.toNat < v.1.toNat) } none))
  ∧ (∀ (s : State) (n errs : Nat) (p : Packet) (b : Barge) (w : Microword), s.runsNext n 0x0A p b w → errs ≠ 2 →
    completes (.cmpm n errs) s (fun u =>
      let v := operandB p b w
      s.wordRan u n errs b w
        { b with wend := v.2, z := (greg b (Word.srcA w) &&& v.1).toNat == Word.at_ w 95 64, c := false } none))
  ∧ (∀ (s : State) (n errs : Nat) (p : Packet) (b : Barge) (w : Microword), s.runsNext n 0x01 p b w → errs ≠ 2 →
    completes (.mov n errs) s (fun u =>
      let v := operandB p b w
      s.wordRan u n errs b w (setGreg { b with wend := v.2 } (Word.dst w) v.1) none))
  ∧ (∀ (s : State) (n errs : Nat) (p : Packet) (b : Barge) (w : Microword), s.runsNext n 0x00 p b w → errs ≠ 2 →
    completes (.nop n errs) s (fun u => s.wordRan u n errs b w b none))

/-- What the words that build the manifest do, the checksum and the lookup (R109, R110, R111, R113): MWR writes no byte that it may not, and bits
[55:52] stay zero.
It states that MWR, MSG, SETLEN, LKUP and CSUM complete, that is that `exec` answers the next state described, under
conditions on the state and the operands alone. -/
def Obligations.ManifestWords : Prop :=
  (∀ (s : State) (n errs : Nat) (p : Packet) (b : Barge) (w : Microword), s.runsNext n 0x0B p b w → errs ≠ 2 → b.man.length = 64 →
    completes (.mwr n errs) s (fun u =>
      let v := operandB p b w
      ∃ man, s.wordRan u n errs b w { b with wend := v.2, man := man } none ∧ man.length = 64
        ∧ ∀ i, i < 64 → byteAt man i
          = (if (i = 5 ∨ i = 6 ∨ i = 7 ∨ 16 ≤ i) ∧ Word.moff w ≤ i ∧ i < Word.moff w + Word.msize w then
              v.1.toNat / 2 ^ (8 * (i - Word.moff w)) % (if i = 6 then 16 else 256) else byteAt b.man i)))
  ∧ (∀ (s : State) (n errs lane : Nat) (p : Packet) (b : Barge) (w : Microword), s.runsNext n 0x0C p b w → errs ≠ 2 →
    completes (.msg n errs lane) s (fun u =>
      let k := manGet b.man 35 32
      if b.cursor < 256 ∧ ∀ m, b.msgs.getLast? = some m → m.1 < b.cursor then
        (if k < 8 then
          s.wordRan u n errs b w { b with
            mt := min 255 (b.mt + 1), msgs := b.msgs ++ [(b.cursor, lane)],
            man := manPut (manPut b.man (64 + 8 * k + 7) (64 + 8 * k) b.cursor) 35 32 (k + 1) } none
        else s.wordRan u n errs b w { b with mt := min 255 (b.mt + 1), man := manPut b.man 31 31 1 } none)
      else u = (((s.fetched n errs).count (Ctr.PRS_MSG_ORDER (n / 96))).spent n (s.wordCycles b w)).setBarge n
        (s.wordDone b w 0 b none)))
  ∧ (∀ (s : State) (n errs : Nat) (p : Packet) (b : Barge) (w : Microword), s.runsNext n 0x0D p b w → errs ≠ 2 →
    completes (.setlen n errs) s (fun u =>
      let v := operandB p b w
      s.wordRan u n errs b w { b with
        wend := v.2,
        man := if 64 ≤ v.1.toNat ∧ v.1.toNat ≤ 10240 then manPut (manPut b.man 29 16 v.1.toNat) 30 30 1 else b.man } none))
  ∧ (∀ (s : State) (n errs : Nat) (p : Packet) (b : Barge) (w : Microword), s.runsNext n 0x0E p b w → errs ≠ 2 →
    completes (.lkup n errs) s (fun u =>
      let v := operandB p b w
      s.wordRan u n errs b w { b with
        wend := v.2,
        lkups := mput b.lkups (Word.dst w)
          (PendLkup.mk (leNat (sub b.man (Word.moff w) 16)) (v.1.toNat % 16) b.cycles) } none))
  ∧ (∀ (s : State) (n errs : Nat) (p : Packet) (b : Barge) (w : Microword), s.runsNext n 0x12 p b w → errs ≠ 2 →
    completes (.csum n errs) s (fun u =>
      let k := (Word.imm w).toNat % 64 + 1
      let a := windowByte b w
      let sum := onesSum ((List.range k).map (fun j => frameBits p (8 * a + 16 * j) 16))
      s.wordRan u n errs b w
        { setGreg b (Word.dst w) (BitVec.ofNat 64 sum) with z := sum == 0xFFFF, wend := decide (extent p < a + 2 * k) } none))

/-- What the scratchpad words do (R114, R427, R428, R431): the old value goes to DST and the word is read, added to or replaced, all
other bytes being kept; a bad address or a bank of another owner ends the routine with code 6; a poisoned word is a trap, and so
is a word held more than 8 cycles.
It states that SCPRD, SCPADD and SCPSWP complete, that is that `exec` answers the next state described, under conditions on
the state and the operands alone. -/
def Obligations.ScratchpadWords : Prop :=
  ∀ (s : State) (n o errs : Nat) (p : Packet) (b : Barge) (w : Microword) (i : Instr) (f : Nat → Nat → Nat) (held waits ecc : Nat),
    s.runsNext n o p b w → errs ≠ 2 → b.cycles + s.wordCycles b w + min 8 held ≤ s.runLimit (n / 96) p →
    (i = .scprd n errs held waits ecc ∧ o = 0x0F ∧ (∀ x y, f x y = x)
      ∨ i = .scpadd n errs held waits ecc ∧ o = 0x10 ∧ (∀ x y, f x y = (x + y) % 2 ^ 64)
      ∨ i = .scpswp n errs held waits ecc ∧ o = 0x11 ∧ (∀ x y, f x y = y)) →
    completes i s (fun u =>
      let r := s.fetched n errs
      let len := s.wordCycles b w
      let v := operandB p b w
      let a := (greg b (Word.srcA w)).toNat
      let bank := scpBank a
      (a % 8 ≠ 0 ∨ 0x200_0000 ≤ a → s.routineEnded u n b.pkt 6 ∧ u.scp = s.scp)
      ∧ (a % 8 = 0 → a < 0x200_0000 → s.scpOwns (n / 96 + 1) bank = false →
          s.routineEnded u n b.pkt 6 ∧ u.scp = s.scp ∧ u.sticky Src.SCP_OWN_VIOL = true)
      ∧ (a % 8 = 0 → a < 0x200_0000 → s.scpOwns (n / 96 + 1) bank = true → 8 < held →
          u = (r.spent n (len + 8)).setBarge n (requestTrap { b with cycles := b.cycles + len + 8 } 1 a))
      ∧ (a % 8 = 0 → a < 0x200_0000 → s.scpOwns (n / 96 + 1) bank = true → held ≤ 8 →
          s.flag (Reg.SCP_OWNER bank) F.SCP_OWNER.BUSY = true → u = r)
      ∧ (a % 8 = 0 → a < 0x200_0000 → s.scpOwns (n / 96 + 1) bank = true → held ≤ 8 →
          s.flag (Reg.SCP_OWNER bank) F.SCP_OWNER.BUSY = false → ecc ≤ 1 → s.scp.bad.contains (2048 * bank + bits a 16 0 / 64) = false →
          mfind u.prs.barges n = some (s.wordDone b w held
            (setGreg { b with wend := if o = 0x0F then b.wend else v.2 } (Word.dst w) (BitVec.ofNat 64 (s.scpWord a))) none)
          ∧ u.scpWord a = f (s.scpWord a) v.1.toNat ∧ u.regs = s.regs
          ∧ ∀ x, x < a ∨ a + 8 ≤ x → mget 0 u.scp.mem x = mget 0 s.scp.mem x)
      ∧ (a % 8 = 0 → a < 0x200_0000 → s.scpOwns (n / 96 + 1) bank = true → held ≤ 8 →
          s.flag (Reg.SCP_OWNER bank) F.SCP_OWNER.BUSY = false → (ecc = 2 ∨ s.scp.bad.contains (2048 * bank + bits a 16 0 / 64) = true) →
          mfind u.prs.barges n = some (requestTrap { b with cycles := b.cycles + len + held } 0 (2 + 4 * Word.dst w))
            ∧ u.scp = s.scp))

/-- What the words that choose the next address do (R104, R109, R112, R127): calls nest four deep, loop counts are 1 to 8,
and a misuse or a reserved opcode ends the routine with code 4. Where the rules leave a choice it is the model's own (log
entry 16).
It states that CALL, RET, LOOP, DJNZ, SWITCH, DONE, ABORT and RESERVED_OPCODE complete, that is that `exec` answers the next
state described, under conditions on the state and the operands alone. -/
def Obligations.ControlWords : Prop :=
  (∀ (s : State) (n errs : Nat) (p : Packet) (b : Barge) (w : Microword), s.runsNext n 0x13 p b w → errs ≠ 2 →
    completes (.call n errs) s (fun u =>
      (b.stack.length < 4 → s.wordRan u n errs b w { b with stack := b.stack ++ [Word.next w] } (some (Word.alt w)))
      ∧ (4 ≤ b.stack.length → s.routineEnded u n b.pkt 4)))
  ∧ (∀ (s : State) (n errs : Nat) (p : Packet) (b : Barge) (w : Microword), s.runsNext n 0x14 p b w → errs ≠ 2 →
    completes (.ret n errs) s (fun u =>
      (b.stack = [] → s.routineEnded u n b.pkt 4)
      ∧ (∀ a, b.stack.getLast? = some a →
          (12288 ≤ b.pc → s.wordRan u n errs b w { b with stack := b.stack.dropLast } (some a))
          ∧ ∃ x, mfind u.prs.barges n = some x ∧ x.pc = a % 2 ^ 14 ∧ x.stack = b.stack.dropLast)))
  ∧ (∀ (s : State) (n errs : Nat) (p : Packet) (b : Barge) (w : Microword), s.runsNext n 0x15 p b w → errs ≠ 2 →
    completes (.loop n errs) s (fun u =>
      let v := operandB p b w
      if 1 ≤ v.1.toNat ∧ v.1.toNat ≤ 8 then
        s.wordRan u n errs b w { b with wend := v.2, loopN := v.1.toNat } none
      else s.routineEnded u n b.pkt 4))
  ∧ (∀ (s : State) (n errs : Nat) (p : Packet) (b : Barge) (w : Microword), s.runsNext n 0x16 p b w → errs ≠ 2 →
    completes (.djnz n errs) s (fun u =>
      if b.loopN = 0 then s.routineEnded u n b.pkt 4
      else s.wordRan u n errs b w { b with loopN := b.loopN - 1 }
        (some (if b.loopN = 1 then Word.next w else Word.alt w))))
  ∧ (∀ (s : State) (n errs : Nat) (p : Packet) (b : Barge) (w : Microword), s.runsNext n 0x17 p b w → errs ≠ 2 →
    completes (.switch n errs) s (fun u =>
      s.wordRan u n errs b w b (some (Word.alt w + (greg b (Word.srcA w)).toNat % 16))))
  ∧ (∀ (s : State) (n errs : Nat) (p : Packet) (b : Barge) (w : Microword), s.runsNext n 0x18 p b w → errs ≠ 2 →
    completes (.mwDone n errs) s (fun u => s.routineEnded u n b.pkt 0 ∧ u.regs = s.regs))
  ∧ (∀ (s : State) (n errs : Nat) (p : Packet) (b : Barge) (w : Microword), s.runsNext n 0x19 p b w → errs ≠ 2 →
    completes (.abort n errs) s (fun u => s.routineEnded u n b.pkt (8 + (operandB p b w).1.toNat % 8)))
  ∧ (∀ (s : State) (n o errs : Nat) (p : Packet) (b : Barge) (w : Microword), s.runsNext n o p b w → errs ≠ 2 → 0x1B ≤ o →
    completes (.reservedOpcode n errs) s (fun u => s.routineEnded u n b.pkt 4))

/-- What reaches a barge beside its words, and its traps (R101, R113, R114, R116 to R123, R126): the pending request of least
number is claimed first, one that arrives during the entry with it; poison ends the routine with code 3, a scratchpad conflict
that four retries do not end with code 6, a lookup that 64 cycles do not bring with code 5, the cycle limit with code 2, and a
word with two bits in error with code 7; RTT restores what was saved, or enters the next trap. Where the rules leave a choice
it is the model's own (log entry 16).
It states that LKUP_RESULT, SCP_STALL_TIMEOUT, POISON_ARRIVAL, SAMPLING_REQUEST, TRAP_ENTRY, RTT and RUN_LIMIT complete, that
is that `exec` answers the next state described, under conditions on the state and the operands alone. -/
def Obligations.BargeEvents : Prop :=
  (∀ (s : State) (n reg : Nat) (b : Barge) (p : Packet) (l : PendLkup) (bad : Option (Nat × Nat)), s.inReset = false →
    mfind s.prs.barges n = some b → mfind s.pkts b.pkt = some p → mfind b.lkups reg = some l → reg < b.g.length →
    let r := match bad with
      | some (m, i) => if m < 2 then s.meetBad m i else s
      | none => s
    completes (.lkupResult n reg bad) s (fun u => ∃ x, mfind u.prs.barges n = some x ∧ mfind x.lkups reg = none ∧ x.man = b.man
      ∧ greg x reg = BitVec.ofNat 64 (match (r.emLookup l.part l.key p.ver).1 with
        | some e => 2 ^ 63 + e.action % 2 ^ 63
        | none => 0)))
  ∧ (∀ (s : State) (n o : Nat) (p : Packet) (b : Barge) (w : Microword), s.runsNext n o p b w → (o = 0x0F ∨ o = 0x10 ∨ o = 0x11) →
    b.cycles + s.wordCycles b w + 8 ≤ s.runLimit (n / 96) p →
    completes (.scpStallTimeout n) s (fun u =>
      let a := (greg b (Word.srcA w)).toNat
      let c := s.wordCycles b w + 8
      if a % 8 = 0 ∧ a < 0x200_0000 ∧ s.scpOwns (n / 96 + 1) (scpBank a) = true then
        u = (s.spent n c).setBarge n (requestTrap { b with cycles := b.cycles + c } 1 a)
      else s.routineEnded u n b.pkt 6))
  ∧ (∀ (s : State) (n o held waits ecc : Nat) (p : Packet) (b : Barge) (w : Microword) (i : Instr), s.runsNext n o p b w →
    (o, i) ∈ [(0x00, Instr.nop n 2), (0x01, .mov n 2), (0x02, .add n 2), (0x03, .sub n 2), (0x04, .and n 2), (0x05, .or n 2),
      (0x06, .xor n 2), (0x07, .shl n 2), (0x08, .shr n 2), (0x09, .cmp n 2), (0x0A, .cmpm n 2), (0x0B, .mwr n 2),
      (0x0C, .msg n 2 held), (0x0D, .setlen n 2), (0x0E, .lkup n 2), (0x0F, .scprd n 2 held waits ecc),
      (0x10, .scpadd n 2 held waits ecc), (0x11, .scpswp n 2 held waits ecc), (0x12, .csum n 2), (0x13, .call n 2), (0x14, .ret n 2),
      (0x15, .loop n 2), (0x16, .djnz n 2), (0x17, .switch n 2), (0x18, .mwDone n 2), (0x19, .abort n 2)] →
    completes i s (fun u => s.routineEnded u n b.pkt 7 ∧ u.sticky Src.PRS_CS_ECC = true
      ∧ u.prs.ecc = s.prs.ecc ++ [(n / 96, if b.pc < 12288 then 2 else p.bank, b.pc)]))
  ∧ (∀ (s : State) (n origin reg : Nat) (b : Barge), s.inReset = false → mfind s.prs.barges n = some b →
    completes (.poisonArrival n origin reg) s (fun u =>
      (mfind b.traps 0 = none → u = s.setBarge n { b with traps := mput b.traps 0 (origin % 4 + 4 * (reg % 16)), wanted := true })
        ∧ (mfind b.traps 0 ≠ none → u = s.setBarge n b)))
  ∧ (∀ (s : State) (n counter i : Nat) (a : Sampler) (b : Barge), s.inReset = false → mfind s.prs.barges n = some b →
    s.pmc.samplers.find? (fun (e : Nat × Sampler) => s.fld (Reg.PMC_SAMPLE_CFG e.1) F.PMC_SAMPLE_CFG.COUNTER == counter
      && e.2.want.isSome && !e.2.asked) = some (i, a) → counter / 2 ^ 19 = 5 → counter % 16 = n / 96 → mfind b.traps 3 = none →
    completes (.samplingRequest n counter) s (fun u =>
      u = ({ s with pmc := { s.pmc with samplers := mset {} s.pmc.samplers i { a with asked := true } } }).setBarge n
        { b with traps := mput b.traps 3 counter, wanted := true, skid := 0 }))
  ∧ (∀ (s : State) (n wait : Nat) (b : Barge) (p : Packet), s.inReset = false → mfind s.prs.barges n = some b →
    mfind s.pkts b.pkt = some p → b.serving = none → b.wanted = true → b.cycles + 66 ≤ s.runLimit (n / 96) p →
    completes (.trapEntry n wait none) s (fun u =>
      (∀ d rest, b.traps = (0, d) :: rest → s.routineEnded u n b.pkt 3)
      ∧ (∀ d rest, b.traps = (1, d) :: rest → 32 < wait → s.routineEnded u n b.pkt 6)
      ∧ (∀ d rest, b.traps = (2, d) :: rest → 64 ≤ wait → mfind b.lkups (d % 16) ≠ none → s.routineEnded u n b.pkt 5)
      ∧ (∀ c d rest, b.traps = (c, d) :: rest → c = 3 ∨ c = 1 ∧ wait ≤ 32 ∨ c = 2 ∧ (wait < 64 ∨ mfind b.lkups (d % 16) = none) →
          u.regs = s.regs ∧ ∃ x, mfind u.prs.barges n = some x ∧ x.serving = some c ∧ x.traps = rest ∧ x.pc = 4 * c ∧ x.g = b.g
            ∧ x.frame = State.trapFrame b c d)
      ∧ (∀ d rest, b.traps = (3, d) :: rest → ∃ q, u.pmc.posted = s.pmc.posted ++ [q]
          ∧ [q.w0, q.w7] = [(State.trapFrame b 3 d).getD 0 0, BitVec.ofNat 64 d] ∧ q.port = p.inPort ∧ q.stamp = p.stamp)
      ∧ (b.traps = [] → u.regs = s.regs ∧ ∃ x, mfind u.prs.barges n = some x ∧ x.serving = some 0xFFF ∧ x.pc = 0x10)))
  ∧ (∀ (s : State) (n wait c d c' d' : Nat) (rest : SMap Nat) (b : Barge) (p : Packet), s.inReset = false →
    mfind s.prs.barges n = some b → mfind s.pkts b.pkt = some p → b.serving = none → b.wanted = true →
    b.cycles + 66 ≤ s.runLimit (n / 96) p → b.traps = (c, d) :: rest → c' < c → mfind b.traps c' = none →
    wait ≤ 32 → (c' = 1 ∨ c' = 2) →
    completes (.trapEntry n wait (some (c', d'))) s (fun u => ∃ x, mfind u.prs.barges n = some x ∧ x.serving = some c'
      ∧ x.traps = b.traps ∧ x.wanted = true ∧ x.pc = 4 * c' ∧ x.frame = State.trapFrame b c' d'))
  ∧ (∀ (s : State) (n wait c errs : Nat) (b : Barge) (p : Packet), s.inReset = false → mfind s.prs.barges n = some b →
    mfind s.pkts b.pkt = some p → b.serving = some c → State.awaits b = false → errs ≠ 2 → s.csBad (n / 96) p b = false →
    b.cycles + 6 ≤ s.runLimit (n / 96) p →
    (∀ d rest, b.traps = (3, d) :: rest →
      completes (.rtt n errs wait none) s (fun u => ∃ x, mfind u.prs.barges n = some x ∧ x.serving = some 3 ∧ x.traps = rest
        ∧ x.pc = 12 ∧ x.cycles = b.cycles + 6
        ∧ x.frame = (b.frame.set 0 (BitVec.ofNat 64 (putBits (b.frame.getD 0 0).toNat 27 16 3))).set 7 (BitVec.ofNat 64 d)))
    ∧ (b.traps = [] → completes (.rtt n errs wait none) s (fun u => ∃ x, mfind u.prs.barges n = some x ∧ x.serving = none ∧ x.frame = []
      ∧ (let w0 := (b.frame.getD 0 0).toNat
         x.pc = bits w0 13 0 ∧ x.z = bitOf w0 28 ∧ x.c = bitOf w0 29 ∧ x.wend = bitOf w0 30 ∧ x.cursor = bits w0 40 32
          ∧ x.loopN = bits w0 44 41 ∧ x.cycles = b.cycles + 2 ∧ x.man = b.man))))
  ∧ (∀ (s : State) (n : Nat) (b : Barge) (p : Packet), s.inReset = false → mfind s.prs.barges n = some b →
    mfind s.pkts b.pkt = some p →
    completes (.runLimit n) s (fun u =>
      (s.runLimit (n / 96) p ≤ b.cycles → s.routineEnded u n b.pkt 2) ∧ (b.cycles < s.runLimit (n / 96) p → u = s)))

/-- A sampling trap leaves no trace in the routine it interrupts (R117, R119, R122): what the entry saves, RTT restores. -/
def Obligations.TrapRestores : Prop :=
  ∀ (s : State) (n wait counter : Nat) (b : Barge) (p : Packet), mfind s.prs.barges n = some b → mfind s.pkts b.pkt = some p →
    b.serving = none → b.wanted = true → b.cycles + 8 ≤ s.runLimit (n / 96) p → s.csBad (n / 96) p { b with pc := 12 } = false →
    b.traps = [(3, counter)] → b.pc < 2 ^ 14 → b.cursor ≤ 256 → b.loopN < 16 → b.mt ≤ 255 → b.stack.length ≤ 4 →
    (∀ a ∈ b.stack, a < 2 ^ 14) →
    ∃ x, mfind (mwRtt n 0 0 none (trapEntry n wait none s)).prs.barges n = some x ∧ x.pc = b.pc ∧ x.g = b.g ∧ x.cursor = b.cursor ∧ x.z = b.z
      ∧ x.c = b.c ∧ x.wend = b.wend ∧ x.loopN = b.loopN ∧ x.stack = b.stack ∧ x.mt = b.mt ∧ x.man = b.man ∧ x.lkups = b.lkups
      ∧ x.traps = [] ∧ x.serving = none

/-- What profiles, banks and customer loads do (R103, R126, R128 to R130, R178, Tables PARSE-15 and PARSE-27). Where the
rules leave a choice it is the model's own (log entry 18).
It states that PRS_PROFILE_WRITE, PRS_CS_BANK_WRITE, OLD_BANK_DRAINED, UCODE_LOAD_GO, UCODE_PACKAGE_FETCHED,
UCODE_LOAD_COMPLETE, CS_BACKGROUND_CHECK and CS_RESTORE_DONE complete, that is that `exec` answers the next state described,
under conditions on the state and the operands alone. -/
def Obligations.MicrocodeLoads : Prop :=
  (∀ (s : State) (by_ : Agent) (sl i : Nat) (v : Word64), sl < 16 → i < 16 → s.reaches by_ (Reg.PRS_PROFILE sl i) = true →
    completes (.prsProfileWrite by_ sl i v) s (fun u =>
      let r := Reg.PRS_PROFILE sl i
      (s.held 5 = false → u.fld r F.PRS_PROFILE.ENTRY = v.toNat % 2 ^ 14
        ∧ u.fld r F.PRS_PROFILE.DEPTH = bits v.toNat F.PRS_PROFILE.DEPTH.hi F.PRS_PROFILE.DEPTH.lo
        ∧ u.fld r F.PRS_PROFILE.MIN_LEN = bits v.toNat F.PRS_PROFILE.MIN_LEN.hi F.PRS_PROFILE.MIN_LEN.lo
        ∧ u.fld (Reg.PRS_PROFILE_STAT sl i) F.PRS_PROFILE_STAT.W_SHADOW
          = s.profW (v.toNat % 2 ^ 14) (s.fld Reg.PRS_CS_BANK F.PRS_CS_BANK.ACTIVE) % 65536)
      ∧ (s.held 5 = true → u.rd r = s.rd r
        ∧ (s.fld r F.PRS_PROFILE.ENTRY ≠ v.toNat % 2 ^ 14 → u.sticky Src.VER_SHADOW_HELD = true))))
  ∧ (∀ (s : State) (by_ : Agent) (v : Word64), s.reaches by_ Reg.PRS_CS_BANK = true → s.held 5 = false →
    completes (.prsCsBankWrite by_ v) s (fun u =>
      let cur := s.fld Reg.PRS_CS_BANK F.PRS_CS_BANK.ACTIVE
      let valid := s.flag Reg.PRS_CS_BANK (if v.toNat % 2 = 1 then F.PRS_CS_BANK.VALID1 else F.PRS_CS_BANK.VALID0)
      (s.isWarden by_ = true → valid = true → u.fld Reg.PRS_CS_BANK F.PRS_CS_BANK.ACTIVE = v.toNat % 2)
      ∧ (s.isWarden by_ = true → valid = false →
          u.rd Reg.PRS_CS_BANK = s.rd Reg.PRS_CS_BANK ∧ u.sticky Src.PRS_UCODE_REJECT = true)
      ∧ (s.isWarden by_ = false → u.rd Reg.PRS_CS_BANK = s.rd Reg.PRS_CS_BANK
          ∧ (v.toNat % 2 ≠ cur → u.flag Reg.SEC_DENY F.SEC_DENY.SEEN = true))))
  ∧ (∀ (s : State), s.inReset = false →
    completes .oldBankDrained s (fun u =>
      ((∀ e ∈ s.pkts, e.2.stage ≠ .receiving ∧ e.2.stage ≠ .dispatch ∧ ∀ n, e.2.stage ≠ .barge n) →
          u.fld Reg.PRS_CS_BANK F.PRS_CS_BANK.OLD_BUSY = 0 ∧ onlyRegs s u (· = Reg.PRS_CS_BANK))
      ∧ ((∃ e ∈ s.pkts, ∃ n, e.2.stage = .barge n ∧ e.2.bank ≠ s.cfgFld Reg.PRS_CS_BANK F.PRS_CS_BANK.ACTIVE) → u = s)))
  ∧ (∀ (s : State) (by_ : Agent) (v : Word64), s.reaches by_ Reg.PRS_CS_LOAD_CTL = true → s.isWarden by_ = true → v.toNat % 2 = 1 →
    completes (.ucodeLoadGo by_ v) s (fun u =>
      let st := Reg.PRS_CS_LOAD_CTL
      if s.fld st F.PRS_CS_LOAD_CTL.STATUS = 1 then u.prs = s.prs ∧ u.rd st = s.rd st
      else if s.loadTarget = none then u.fld st F.PRS_CS_LOAD_CTL.STATUS = 6 ∧ u.sticky Src.PRS_UCODE_REJECT = true
        ∧ u.sticky Src.PRS_LOAD_DONE = true
      else u.fld st F.PRS_CS_LOAD_CTL.STATUS = 1 ∧ u.fld st F.PRS_CS_LOAD_CTL.FAIL_WORD = 0xFFFF ∧ u.prs.package = none))
  ∧ (∀ (s : State) (ok : Bool) (package : Bytes), s.inReset = false →
    s.fld Reg.PRS_CS_LOAD_CTL F.PRS_CS_LOAD_CTL.STATUS = 1 →
    completes (.ucodePackageFetched ok package) s (fun u =>
      if ok then u = { s with prs := { s.prs with package := some package, fetched := true } }.secTake
      else u.fld Reg.PRS_CS_LOAD_CTL F.PRS_CS_LOAD_CTL.STATUS = 8 ∧ u.prs.package = none ∧ u.sticky Src.PRS_LOAD_DONE = true))
  ∧ (∀ (s : State) (sigOk : Bool) (pkg : Bytes), s.inReset = false → s.prs.package = some pkg →
    completes (.ucodeLoadComplete sigOk) s (fun u =>
      let count := leAt pkg 12 2
      let first := leAt pkg 14 2
      let header := sub pkg 0 4 = ascii "DLUC" ∧ leAt pkg 4 2 = 1 ∧ leAt pkg 6 2 = 0 ∧ allZero (sub pkg 20 12) = true
        ∧ 1 ≤ count ∧ count ≤ 4096 ∧ first + count ≤ 4096
      let signed := s.sec.ownerKey ≠ [] ∧ sub pkg 80 16 = sub s.sec.ownerId 0 16 ∧ sub pkg 32 48 = sha384 (sub pkg 192 (24 * count))
        ∧ sigOk = true
      let st := Reg.PRS_CS_LOAD_CTL
      (s.secServing ≠ some 3 → u = s)
      ∧ (s.secServing = some 3 → ¬ header → u.fld st F.PRS_CS_LOAD_CTL.STATUS = 4)
      ∧ (s.secServing = some 3 → header → ¬ signed → u.fld st F.PRS_CS_LOAD_CTL.STATUS = 3)
      ∧ (s.secServing = some 3 → header → signed →
          s.fld Reg.PRS_UCODE_VENDOR_VER F.PRS_UCODE_VENDOR_VER.VER < leAt pkg 16 4 → u.fld st F.PRS_CS_LOAD_CTL.STATUS = 7)
      ∧ (s.secServing = some 3 → header → signed →
          leAt pkg 16 4 ≤ s.fld Reg.PRS_UCODE_VENDOR_VER F.PRS_UCODE_VENDOR_VER.VER →
          s.firstBad (packageWords pkg first count) first count = none →
          (s.loadTarget = none → u.fld st F.PRS_CS_LOAD_CTL.STATUS = 6)
          ∧ (s.loadTarget = some 0 → u.fld st F.PRS_CS_LOAD_CTL.STATUS = 2 ∧ u.prs.bank0 = packageWords pkg first count
              ∧ u.prs.bank1 = s.prs.bank1 ∧ u.flag Reg.PRS_CS_BANK F.PRS_CS_BANK.VALID0 = true)
          ∧ (s.loadTarget = some 1 → u.fld st F.PRS_CS_LOAD_CTL.STATUS = 2 ∧ u.prs.bank1 = packageWords pkg first count
              ∧ u.prs.bank0 = s.prs.bank0 ∧ u.flag Reg.PRS_CS_BANK F.PRS_CS_BANK.VALID1 = true))))
  ∧ (∀ (s : State) (sl bank w errors : Nat), s.inReset = false → sl < 16 → bank < 3 → w < 2 ^ 14 →
    completes (.csBackgroundCheck sl bank w errors) s (fun u =>
      (errors = 1 → u = s.count (Ctr.PRS_CS_CORRECTED sl))
      ∧ (errors = 2 → (sl, bank, w) ∈ u.prs.ecc ∧ u.sticky Src.PRS_CS_ECC = true)
      ∧ (errors = 0 → u = s)))
  ∧ (∀ (s : State) (sl bank w : Nat), s.inReset = false → sl < 16 → bank < 3 → w < 2 ^ 14 →
    completes (.csRestoreDone sl bank w) s (fun u =>
      (∀ off, off ≠ Reg.HBM_STAT 0 → off ≠ Reg.HBM_STAT 1 → u.rd off = s.rd off)
      ∧ ∀ x, x ∈ u.prs.ecc ↔ x ∈ s.prs.ecc ∧ x ≠ (sl, bank, w)))


/-! ## The lookup tables and their write path -/

/-- What the exact-match commands do (R145 to R147, R159, R161, R173): an insert of a key that a place of its two buckets can
take stands there, one in conflict or of another version leaves the tables as they were, and a delete, an update and a lookup
act on the entry the command names. Where the rules leave a choice it is the model's own (log entry 19).
It states that EM_INSERT, EM_DELETE, EM_UPDATE and EM_LOOKUP complete, that is that `exec` answers the next state described,
under conditions on the state and the operands alone. -/
def Obligations.ExactMatchCommands : Prop :=
  (∀ (s : State) (keeper : Bool) (cmd : Bytes), s.cmdNext keeper 0x01 cmd → cmdTarget cmd < 16 → s.cmdMay keeper (cmdTarget cmd) →
    completes (.emInsert keeper cmd) s (fun u =>
      let i := cmdTarget cmd
      let imm := bitOf (byteAt cmd 44) 1
      let e : EmEntry := { key := leAt cmd 16 16, action := leAt cmd 32 8, vfrom := leAt cmd 40 2, vuntil := leAt cmd 42 2,
                           valid := true, immediate := imm }
      let ok := s.partOn i = true ∧ byteAt cmd 44 % 2 = 1 ∧ byteAt cmd 44 / 8 = 0 ∧ allZero (sub cmd 45 3) = true
      let may := if imm then e.vfrom = 0 ∧ e.vuntil = 0 else s.openVer ≠ 0 ∧ e.vfrom = s.openVer ∧ e.vuntil = 0
      let b := s.bucketsOf i e.key
      (¬ ok → s.cmdDone u keeper cmd 6 none ∧ s.sameEntries u)
      ∧ (ok → ¬ may → s.cmdDone u keeper cmd 10 none ∧ s.sameEntries u)
      ∧ (ok → may → s.conflicts i e = true → s.cmdDone u keeper cmd 2 none ∧ s.sameEntries u)
      ∧ (ok → may → s.conflicts i e = false → ∀ l, (s.freeSlot b.1 = some l ∨ s.freeSlot b.1 = none ∧ s.freeSlot b.2 = some l) →
          s.cmdDone u keeper cmd 1 none ∧ u.emAt l = e ∧ ∀ x, x ≠ l → u.emAt x = s.emAt x)
      ∧ s.sameRows u))
  ∧ (∀ (s : State) (keeper : Bool) (cmd : Bytes), s.cmdNext keeper 0x02 cmd → cmdTarget cmd < 16 → s.cmdMay keeper (cmdTarget cmd) →
    completes (.emDelete keeper cmd) s (fun u =>
      match s.emNamed (cmdTarget cmd) (leAt cmd 16 16) (leAt cmd 40 2) with
      | none => s.cmdDone u keeper cmd 4 none ∧ s.sameEntries u
      | some l =>
        if (s.emAt l).immediate = true ∨ (s.openVer ≠ 0 ∧ (s.emAt l).vfrom = s.openVer) ∨ s.retired (s.emAt l).vuntil = true then
          s.cmdDone u keeper cmd 1 none
            ∧ (s.tab.stash = [] ∨ (∃ k, l = .stash k) → u.emAt l = {} ∧ ∀ x, x ≠ l → u.emAt x = s.emAt x)
        else s.cmdDone u keeper cmd 10 none ∧ s.sameEntries u))
  ∧ (∀ (s : State) (keeper : Bool) (cmd : Bytes), s.cmdNext keeper 0x03 cmd → cmdTarget cmd < 16 → s.cmdMay keeper (cmdTarget cmd) →
    s.partOn (cmdTarget cmd) = true →
    completes (.emUpdate keeper cmd) s (fun u =>
      let vuntil := leAt cmd 42 2
      match s.emNamed (cmdTarget cmd) (leAt cmd 16 16) (leAt cmd 40 2) with
      | none => s.cmdDone u keeper cmd 4 none ∧ s.sameEntries u
      | some l =>
        ((s.emAt l).immediate = true → vuntil = 0 → s.cmdDone u keeper cmd 1 none
            ∧ u.emAt l = { s.emAt l with action := leAt cmd 32 8, vuntil := 0 } ∧ ∀ x, x ≠ l → u.emAt x = s.emAt x)
        ∧ ((s.emAt l).immediate = true → vuntil ≠ 0 → s.cmdDone u keeper cmd 10 none ∧ s.sameEntries u)
        ∧ ((s.emAt l).immediate = false → s.openVer = 0 → s.cmdDone u keeper cmd 10 none ∧ s.sameEntries u)
        ∧ ((s.emAt l).immediate = false → s.openVer ≠ 0 → (s.emAt l).vfrom ≠ s.openVer → (s.emAt l).vuntil = 0 → vuntil = s.openVer →
            leAt cmd 32 8 = (s.emAt l).action → s.cmdDone u keeper cmd 1 none
            ∧ u.emAt l = { s.emAt l with vuntil := s.openVer } ∧ ∀ x, x ≠ l → u.emAt x = s.emAt x)))
  ∧ (∀ (s : State) (keeper : Bool) (cmd : Bytes), s.cmdNext keeper 0x04 cmd → cmdTarget cmd < 16 →
    (keeper = true ∨ s.permits (s.roleOf (.host 0)) 4 (cmdTarget cmd) 2 = true) →
    completes (.emLookup keeper cmd) s (fun u => s.sameEntries u ∧
      match s.emNamed (cmdTarget cmd) (leAt cmd 16 16) (leAt cmd 40 2) with
      | none => s.cmdDone u keeper cmd 4 none
      | some l => s.cmdDone u keeper cmd 1 (some (emBytes (s.emAt l)))))
  ∧ (∀ (s : State) (keeper : Bool) (cmd : Bytes) (i : Instr) (op : Nat), s.cmdNext keeper op cmd → cmdTarget cmd < 16 →
    (keeper = true ∨ s.permits (s.roleOf (.host 0)) 4 (cmdTarget cmd) 2 = true) → s.holder (cmdTarget cmd) ≠ s.ringAgent keeper →
    (i = .emInsert keeper cmd ∧ op = 0x01 ∨ i = .emDelete keeper cmd ∧ op = 0x02 ∨ i = .emUpdate keeper cmd ∧ op = 0x03) →
    completes i s (fun u => s.cmdDone u keeper cmd 5 none ∧ s.sameEntries u ∧ u.sticky Src.FWD_CLAIM_VIOL = true))

/-- What the ternary commands do (R151, R152, R155, R156, R159, R173): a row is written in all its places and no other row
is, a row in the range of a move is not written, and the move engine copies one row a step, the new row last. Where the rules
leave a choice it is the model's own (log entry 19).
It states that TC_WRITE, TC_INVALIDATE, TC_INSERT_SHIFT and TC_MOVE_STEP complete, that is that `exec` answers the next state
described, under conditions on the state and the operands alone. -/
def Obligations.TernaryCommands : Prop :=
  (∀ (s : State) (keeper : Bool) (cmd : Bytes) (gi : Nat) (g : Group), s.cmdNext keeper 0x10 cmd →
    s.rowGroup (cmdTarget cmd) = some (gi, g) → s.cmdMay keeper (16 + gi) → (g.wide = true → 4 ≤ g.count) →
    completes (.tcWrite keeper cmd) s (fun u =>
      let e := cmdTarget cmd
      (s.underMove e = true → s.cmdDone u keeper cmd 7 none ∧ s.sameRows u)
      ∧ (s.underMove e = false → cmdRowOk g cmd = false → s.cmdDone u keeper cmd 6 none ∧ s.sameRows u)
      ∧ (s.underMove e = false → cmdRowOk g cmd = true → s.rowChangeOk (s.tcGet g e) (cmdRow g cmd) = false →
          s.cmdDone u keeper cmd 10 none ∧ s.sameRows u)
      ∧ (s.underMove e = false → cmdRowOk g cmd = true → s.rowChangeOk (s.tcGet g e) (cmdRow g cmd) = true →
          s.cmdDone u keeper cmd 1 none ∧ u.tcGet g e = cmdRow g cmd
          ∧ ∀ x, x ∉ physRows g e → mget {} u.tab.tc x = mget {} s.tab.tc x)))
  ∧ (∀ (s : State) (keeper : Bool) (cmd : Bytes) (gi : Nat) (g : Group), s.cmdNext keeper 0x11 cmd →
    s.rowGroup (cmdTarget cmd) = some (gi, g) → s.cmdMay keeper (16 + gi) → (g.wide = true → 4 ≤ g.count) →
    completes (.tcInvalidate keeper cmd) s (fun u =>
      let e := cmdTarget cmd
      let old := s.tcGet g e
      if s.underMove e = true then s.cmdDone u keeper cmd 7 none ∧ s.sameRows u
      else if old.valid = true ∧ old.immediate = false ∧ (s.openVer = 0 ∨ old.vfrom ≠ s.openVer) ∧ s.retired old.vuntil = false then
        s.cmdDone u keeper cmd 10 none ∧ s.sameRows u
      else s.cmdDone u keeper cmd 1 none ∧ u.tcGet g e = {}
        ∧ ∀ x, x ∉ physRows g e → mget {} u.tab.tc x = mget {} s.tab.tc x))
  ∧ (∀ (s : State) (keeper : Bool) (cmd : Bytes) (gi : Nat) (g : Group), s.cmdNext keeper 0x12 cmd →
    s.rowGroup (cmdTarget cmd) = some (gi, g) → s.cmdMay keeper (16 + gi) → s.tab.move = none → cmdTarget cmd ≤ cmdAux cmd →
    cmdAux cmd - cmdTarget cmd < 8192 → s.rowGroup (cmdAux cmd) = some (gi, g) → cmdRowOk g cmd = true →
    completes (.tcInsertShift keeper cmd) s (fun u => s.sameRows u ∧
      (if s.rowGroup (nextRow g (cmdAux cmd)) ≠ some (gi, g) ∨ (s.tcGet g (nextRow g (cmdAux cmd))).valid = true then
        s.cmdDone u keeper cmd 9 none ∧ u.tab.move = none
      else if s.newRowOk (cmdRow g cmd) = false then s.cmdDone u keeper cmd 10 none ∧ u.tab.move = none
      else u.tab.move = some ⟨gi, cmdTarget cmd, cmdAux cmd, some (cmdAux cmd), cmd, keeper⟩ ∧ u.out = s.out
        ∧ u.flag Reg.TCM_MOVE_STAT F.TCM_MOVE_STAT.ACTIVE = true)))
  ∧ (∀ (s : State) (m : Move) (r : Nat), s.inReset = false → s.tab.move = some m → m.next = some r →
    ((s.groupOf m.group).wide = true → 4 ≤ (s.groupOf m.group).count) →
    completes .tcMoveStep s (fun u =>
      let g := s.groupOf m.group
      u.tcGet g (nextRow g r) = s.tcGet g r ∧ u.out = s.out
        ∧ u.tab.move = some { m with next := if r ≤ m.a then none else some (prevRow g r) }
        ∧ ∀ x, x ∉ physRows g (nextRow g r) → mget {} u.tab.tc x = mget {} s.tab.tc x))
  ∧ (∀ (s : State) (m : Move), s.inReset = false → s.tab.move = some m → m.next = none →
    ((s.groupOf m.group).wide = true → 4 ≤ (s.groupOf m.group).count) →
    completes .tcMoveStep s (fun u =>
      let g := s.groupOf m.group
      u.tcGet g m.a = cmdRow g m.cmd ∧ u.tab.move = none ∧ s.cmdDone u m.keeper m.cmd 1 none
        ∧ u.flag Reg.TCM_MOVE_STAT F.TCM_MOVE_STAT.ACTIVE = false
        ∧ ∀ x, x ∉ physRows g m.a → mget {} u.tab.tc x = mget {} s.tab.tc x))

/-- What the commands on the small tables do (R140, R153, R159 to R161): each writes one entry and no other; one beyond the
table completes with status 6 and one without the claim with status 5, and neither changes the table; an undefined opcode has
status 8. Where the rules leave a choice it is the model's own (log entry 19).
It states that TABLE_CMD_BAD_OP, NH_WRITE, SEL_WRITE, VLAN_WRITE, SMAC_WRITE and TUN_WRITE complete, that is that `exec`
answers the next state described, under conditions on the state and the operands alone. -/
def Obligations.SmallTableCommands : Prop :=
  (∀ (s : State) (keeper : Bool) (cmd : Bytes) (i : Instr) (op n r v : Nat) (table : State → SMap Nat), s.cmdNext keeper op cmd →
    (i = .nhWrite keeper cmd ∧ op = 0x20 ∧ n = 262144 ∧ r = 32 ∧ v = leAt cmd 16 16 ∧ (∀ t, table t = t.tab.nh)
      ∨ i = .selWrite keeper cmd ∧ op = 0x21 ∧ n = 65536 ∧ r = 16 + cmdTarget cmd / 4096 ∧ v = leAt cmd 16 2 ∧ (∀ t, table t = t.tab.sel)
      ∨ i = .vlanWrite keeper cmd ∧ op = 0x22 ∧ n = 4096 ∧ r = 35 ∧ v = leAt cmd 16 4 % 2 ^ 17 ∧ (∀ t, table t = t.tab.vlan)
      ∨ i = .smacWrite keeper cmd ∧ op = 0x23 ∧ n = 256 ∧ r = 32 ∧ v = leAt cmd 16 6 ∧ (∀ t, table t = t.tab.smac)
      ∨ i = .tunWrite keeper cmd ∧ op = 0x24 ∧ n = 256 ∧ r = 32 ∧ v = leAt cmd 16 64 ∧ (∀ t, table t = t.tab.tun)) →
    completes i s (fun u =>
      (n ≤ cmdTarget cmd → s.cmdDone u keeper cmd 6 none ∧ table u = table s)
      ∧ (cmdTarget cmd < n → ¬ s.cmdMay keeper r → s.cmdDone u keeper cmd 5 none ∧ table u = table s)
      ∧ (cmdTarget cmd < n → s.cmdMay keeper r → s.cmdDone u keeper cmd 1 none
          ∧ ∀ x, mget 0 (table u) x = if x = cmdTarget cmd then v else mget 0 (table s) x)))
  ∧ (∀ (s : State) (keeper : Bool) (cmd : Bytes) (op : Nat), s.cmdNext keeper op cmd →
    op ∉ [0x01, 0x02, 0x03, 0x04, 0x10, 0x11, 0x12, 0x20, 0x21, 0x22, 0x23, 0x24, 0x30, 0x31, 0x32, 0x40, 0x41, 0x42] →
    completes (.tableCmdBadOp keeper cmd) s (fun u => s.cmdDone u keeper cmd 8 none ∧ s.sameEntries u ∧ s.sameRows u))

/-- What the replication and the meter commands do (R159, R161, R221, R226, R267, R268).
It states that REPL_LIST_WRITE, REPL_GROUP_WRITE, REPL_GROUP_READ, MTR_PROF_WRITE, MTR_SET and MTR_READ complete, that is
that `exec` answers the next state described, under conditions on the state and the operands alone. -/
def Obligations.ReplicationAndMeterCommands : Prop :=
  (∀ (s : State) (keeper : Bool) (cmd : Bytes), s.cmdNext keeper 0x30 cmd → s.cmdMay keeper 33 → 1 ≤ cmdAux cmd → cmdAux cmd ≤ 28 →
    cmdTarget cmd + cmdAux cmd ≤ 2097152 →
    (∀ i, i < cmdAux cmd → bits (leAt cmd (16 + 4 * i) 4) 31 29 = 0 ∧ bits (leAt cmd (16 + 4 * i) 4) 9 0 ≤ 513) →
    completes (.replListWrite keeper cmd) s (fun u =>
      let a := cmdTarget cmd
      let n := cmdAux cmd
      if s.egr.groups.any (fun e => e.2.valid && decide (e.2.base < a + n ∧ a < e.2.base + e.2.count)) = true then
        s.cmdDone u keeper cmd 7 none ∧ u.egr = s.egr
      else s.cmdDone u keeper cmd 1 none ∧ u.egr.groups = s.egr.groups
        ∧ ∀ x, mget 0 u.egr.lists x = if a ≤ x ∧ x < a + n then leAt cmd (16 + 4 * (x - a)) 4 else mget 0 s.egr.lists x))
  ∧ (∀ (s : State) (keeper : Bool) (cmd : Bytes), s.cmdNext keeper 0x31 cmd → s.cmdMay keeper 33 →
    completes (.replGroupWrite keeper cmd) s (fun u =>
      let i := cmdTarget cmd
      let new : GroupSlot := { slotOf (sub cmd 16 16) with mask := s.listMask (slotOf (sub cmd 16 16)) }
      (131072 ≤ i ∨ s.slotRangeOk (sub cmd 16 16) = false → s.cmdDone u keeper cmd 6 none ∧ u.egr = s.egr)
      ∧ (i < 131072 → s.slotRangeOk (sub cmd 16 16) = true → s.slotChangeOk (s.slotAt i) new = false →
          s.cmdDone u keeper cmd 10 none ∧ u.egr = s.egr)
      ∧ (i < 131072 → s.slotRangeOk (sub cmd 16 16) = true → s.slotChangeOk (s.slotAt i) new = true →
          s.cmdDone u keeper cmd 1 none ∧ u.slotAt i = new ∧ u.egr.lists = s.egr.lists
          ∧ ∀ x, x ≠ i → u.slotAt x = s.slotAt x)))
  ∧ (∀ (s : State) (keeper : Bool) (cmd : Bytes), s.cmdNext keeper 0x32 cmd →
    (keeper = true ∨ s.permits (s.roleOf (.host 0)) 4 33 2 = true) →
    completes (.replGroupRead keeper cmd) s (fun u => u.egr = s.egr ∧
      if 131072 ≤ cmdTarget cmd then s.cmdDone u keeper cmd 6 none
      else s.cmdDone u keeper cmd 1 (some (slotBytes (s.slotAt (cmdTarget cmd))))))
  ∧ (∀ (s : State) (keeper : Bool) (cmd : Bytes), s.cmdNext keeper 0x40 cmd → s.cmdMay keeper 34 →
    completes (.mtrProfWrite keeper cmd) s (fun u =>
      if cmdTarget cmd < 4096 ∧ profileOk cmd = true then s.cmdDone u keeper cmd 1 none ∧ u.mtr.meters = s.mtr.meters
        ∧ ∀ x, u.mtrProfile x = if x = cmdTarget cmd then (leAt cmd 16 8, leAt cmd 24 8) else s.mtrProfile x
      else s.cmdDone u keeper cmd 6 none ∧ u.mtr = s.mtr))
  ∧ (∀ (s : State) (keeper : Bool) (cmd : Bytes), s.cmdNext keeper 0x41 cmd → s.cmdMay keeper 34 → cmdTarget cmd < 1048576 →
    completes (.mtrSet keeper cmd) s (fun u =>
      let n := leAt cmd 16 2 % 4096
      let p := s.mtrProfile n
      let m := s.meterAt (cmdTarget cmd)
      s.cmdDone u keeper cmd 1 none ∧ u.mtr.profiles = s.mtr.profiles
        ∧ ∀ x, u.meterAt x = if x ≠ cmdTarget cmd then s.meterAt x
          else if bitOf (byteAt cmd 18) 0 then ⟨mCbs p, mPbs p, meterTime s.now, n⟩
          else ⟨min m.tc (mCbs p), min m.tp (mPbs p), m.last, n⟩))
  ∧ (∀ (s : State) (keeper : Bool) (cmd : Bytes), s.cmdNext keeper 0x42 cmd →
    (keeper = true ∨ s.permits (s.roleOf (.host 0)) 4 34 2 = true) →
    completes (.mtrRead keeper cmd) s (fun u => u.mtr = s.mtr ∧
      if 1048576 ≤ cmdTarget cmd then s.cmdDone u keeper cmd 6 none
      else s.cmdDone u keeper cmd 1 (some (meterBytes (s.meterAt (cmdTarget cmd))))))

/-- What the host's ring, the claims and the repair of the tables do (R149, R157, R159, R161, R162). Where the rules leave a
choice it is the model's own (log entry 19).
It states that FWD_RING_TAIL_WRITE, CLAIM_SWAP, CLAIM_WRITE, CLAIM_FORCE, TABLE_RESTORE_DONE and TCM_SCRUB complete, that is
that `exec` answers the next state described, under conditions on the state and the operands alone. -/
def Obligations.RingClaimsAndRepair : Prop :=
  (∀ (s : State) (by_ : Agent) (v : Word64), s.reaches by_ Reg.FWD_RING_CTL = true →
    completes (.fwdRingTailWrite by_ v) s (fun u =>
      let c := Reg.FWD_RING_CTL
      let tail := bits v.toNat F.FWD_RING_CTL.TAIL.hi F.FWD_RING_CTL.TAIL.lo
      let log := if s.flag c F.FWD_RING_CTL.EN then s.fld c F.FWD_RING_CTL.SIZE_LOG2
        else bits v.toNat F.FWD_RING_CTL.SIZE_LOG2.hi F.FWD_RING_CTL.SIZE_LOG2.lo
      onlyRegs (s.touch by_) u (· = c) ∧ u.flag c F.FWD_RING_CTL.EN = bitOf v.toNat F.FWD_RING_CTL.EN.lo
        ∧ u.fld c F.FWD_RING_CTL.SIZE_LOG2 = log ∧ u.fld c F.FWD_RING_CTL.HEAD = s.fld c F.FWD_RING_CTL.HEAD
        ∧ u.fld c F.FWD_RING_CTL.TAIL
          = (if (tail + 65536 - s.fld c F.FWD_RING_CTL.HEAD) % 65536 < 2 ^ clamp 4 16 log then tail
              else s.fld c F.FWD_RING_CTL.TAIL)))
  ∧ (∀ (s : State) (by_ : Agent) (r : Nat) (v : Word64), r < 64 → s.reaches by_ (Reg.FWD_CLAIM r) = true →
    completes (.claimSwap by_ r v) s (fun u =>
      let me := agentCode by_
      (r < 36 → u.holder r = (if v.toNat = 0 then (if s.holder r = me then 0 else s.holder r)
          else if s.holder r = 0 then me else s.holder r))
        ∧ (∀ x, x < 64 → x ≠ r → u.holder x = s.holder x)
        ∧ ∀ fn, by_ = .host fn → u.out = s.out ++ [.swapCpl fn (if r < 36 then s.holder r else 0)]))
  ∧ (∀ (s : State) (by_ : Agent) (r : Nat) (v : Word64), r < 64 → s.reaches by_ (Reg.FWD_CLAIM r) = true →
    completes (.claimWrite by_ r v) s (fun u =>
      if r < 36 ∧ v.toNat % 4 = 0 ∧ s.holder r = agentCode by_ then
        u.holder r = 0 ∧ onlyRegs (s.touch by_) u (· = Reg.FWD_CLAIM r)
      else u = s.touch by_))
  ∧ (∀ (s : State) (by_ : Agent) (v : Word64), s.reaches by_ Reg.FWD_CLAIM_FORCE = true →
    completes (.claimForce by_ v) s (fun u =>
      let r := v.toNat % 64
      (s.isWarden by_ = true → r < 36 → s.holder r ≠ 0 → u.holder r = 0 ∧ u.sticky Src.FWD_CLAIM_FORCED = true)
        ∧ (s.isWarden by_ = true → 36 ≤ r ∨ s.holder r = 0 → u = s.touch by_)
        ∧ (s.isWarden by_ = false → ∀ x, x < 64 → u.holder x = s.holder x)))
  ∧ (∀ (s : State) (mem index : Nat), s.inReset = false →
    completes (.tableRestoreDone mem index) s (fun u =>
      let here (c : BadCell) : Prop := c.mem = mem ∧ (if mem = 0 then c.index / 4 else c.index) = index
      (∀ off, off ≠ Reg.HBM_STAT 0 → off ≠ Reg.HBM_STAT 1 → u.rd off = s.rd off) ∧ s.sameEntries u
        ∧ (∀ c, c ∈ u.tab.bad ↔ c ∈ s.tab.bad ∧ ¬ here c)
        ∧ (mem = 2 → (∃ c ∈ s.tab.bad, here c) → mget {} u.tab.tc index = mget {} s.tab.tcDram index)
        ∧ ∀ x, mem ≠ 2 ∨ x ≠ index → mget {} u.tab.tc x = mget {} s.tab.tc x))
  ∧ (∀ (s : State) (e result : Nat), s.inReset = false → e < 524288 →
    completes (.tcmScrub e result) s (fun u =>
      let waits := isDue (mfind s.tab.scrubbed e) s.scrubPeriod s.now = false
        ∨ ∃ gi g, s.bankGroup e = some (gi, g) ∧ s.underMove (logicalRow g e) = true
      let lost := result = 2 ∨ s.tab.copyBad.contains e = true
      let upset := result = 1 ∨ mget {} s.tab.tc e ≠ mget {} s.tab.tcDram e
      (waits → u = s)
      ∧ (¬ waits → lost → u.flag Reg.TCM_SCRUB_STAT F.TCM_SCRUB_STAT.UNCORR = true
          ∧ u.fld Reg.TCM_SCRUB_STAT F.TCM_SCRUB_STAT.UNCORR_ROW = e ∧ u.sticky Src.TCM_SCRUB_UNCORR = true ∧ s.sameRows u)
      ∧ (¬ waits → ¬ lost → upset → u.sticky Src.TCM_SCRUB_FIX = true ∧ mget {} u.tab.tc e = mget {} s.tab.tcDram e
          ∧ ∀ x, x ≠ e → mget {} u.tab.tc x = mget {} s.tab.tc x)
      ∧ (¬ waits → ¬ lost → ¬ upset → s.sameRows u ∧ (e ≠ 524287 →
          ∀ off, off ≠ Reg.HBM_STAT 0 → off ≠ Reg.HBM_STAT 1 → u.rd off = s.rd off))
      ∧ (¬ waits → e = 524287 →
          u.fld Reg.TCM_SCRUB_STAT F.TCM_SCRUB_STAT.SWEEPS = (s.fld Reg.TCM_SCRUB_STAT F.TCM_SCRUB_STAT.SWEEPS + 1) % 2 ^ 32)))


/-! ## Meters, buffers and queues -/

/-- What the meter stage and the admission do (R199 to R202, R208 to R210, R220, R222 to R225, R227): in the order of its
slice's releases a packet is charged once, to its own meter, and keeps the processor copies whose reasons are not metered;
the sweep refills every meter; a packet whose reference is admitted takes a buffer of its slice's
cache and stands at the end of its queue, and one that asks for nothing is decided. Where the rules leave a choice it is the
model's own (log entries 22 and 23).
It states that METER_CHARGE, METER_SWEEP and BUFFER_ADMIT complete, that is that `exec` answers the next state described,
under conditions on the state and the operands alone. -/
def Obligations.MetersAndAdmission : Prop :=
  (∀ (s : State) (id : Nat) (ecc : List Nat) (p : Packet), s.inReset = false → mfind s.pkts id = some p → p.stage = .meter →
    s.inTurn id [] = true → (∀ c ∈ p.cpu, s.flag (Reg.FWD_REASON c.reason) F.FWD_REASON.METER_EN = false) →
    completes (.meterCharge id ecc) s (fun u =>
      let copies := p.cpu.map (fun c => { c with keeper := c.keeper || !(s.flag (Reg.FWD_REASON c.reason) F.FWD_REASON.DEST) })
      (p.meter = none ∨ p.kind = 0 ∨ p.tow = true → u.mtr = s.mtr ∧ u.regs = s.regs
        ∧ ∃ q, mfind u.pkts id = some q ∧ q = { p with stage := .accept, cpu := copies, stale := q.stale })
      ∧ (∀ i, p.meter = some i → p.kind ≠ 0 → p.tow = false →
          let m := s.meterAt i
          let prof := s.mtrProfile m.profile
          let r := charge prof m (meterTime p.stamp) (byteAt p.manifest 7) (s.inColour p prof)
          let failed := ecc.contains i
          let colour := if failed then green else r.1
          u.meterAt i = (if failed then { m with tc := mCbs prof, tp := mPbs prof, last := meterTime p.stamp } else r.2)
            ∧ (∀ j, j ≠ i → u.meterAt j = s.meterAt j) ∧ (failed = true → u.sticky Src.MTR_ECC = true)
            ∧ ∃ q, mfind u.pkts id = some q ∧ q.stage = .accept ∧ q.colour = colour ∧ q.cpu = copies
              ∧ q.dropped = (p.dropped || (colour == red && !(bitOf prof.1 55)))
              ∧ q.cls = (if colour = yellow ∧ bitOf prof.1 56 = true then bits prof.1 59 57 else p.cls))))
  ∧ (∀ (s : State), s.inReset = false → mwf s.mtr.meters = true →
    completes .meterSweep s (fun u =>
      (∀ i, u.meterAt i = refill (s.mtrProfile (s.meterAt i).profile) (s.meterAt i) (meterTime s.now))
        ∧ u.mtr.profiles = s.mtr.profiles
        ∧ u.fld Reg.MTR_SWEEP_STAT F.MTR_SWEEP_STAT.SWEEPS = (s.fld Reg.MTR_SWEEP_STAT F.MTR_SWEEP_STAT.SWEEPS + 1) % 2 ^ 32))
  ∧ (∀ (s : State) (id : Nat) (p : Packet), s.inReset = false → parseSlice p.port < 16 → mfind s.pkts id = some p → p.stage = .accept →
    s.inTurn id [id] = true → p.kind = 0 → p.mirror = none → p.cpu = [] →
    completes (.bufferAdmit (parseSlice p.port) (some id) none none) s (fun u => u.que.bufs = s.que.bufs ∧ u.que.queues = s.que.queues
      ∧ (p.ended = true → p.refs = 0 → mfind u.pkts id = none)
      ∧ (p.ended = false → ∃ q, mfind u.pkts id = some q ∧ q.stage = .stored ∧ q.decided = true ∧ q.dropped = !p.sentCpu)))
  ∧ (∀ (s : State) (id : Nat) (p : Packet), s.inReset = false → parseSlice p.port < 16 → mfind s.pkts id = some p → p.stage = .accept →
    s.inTurn id [id] = true → p.kind = 1 → p.foreign = none → p.mirror = none → p.cpu = [] → p.dropped = false → p.bad = false →
    s.ready (16 + sliceOf p.outPort) = true → s.takesCopies p.outPort = true →
    s.que.stopped = false → (s.store (parseSlice p.port) (s.poolFor (s.bufferLen p))).cache ≠ [] →
    p.bytes.length ≤ 256 * poolSize (s.poolFor (s.bufferLen p)) →
    (let rd := fun o f => s.cfgAtFld o f p.ver p.stamp
     let g := poolSize (s.poolFor (s.bufferLen p))
     s.admitRef rd (parseSlice p.port) (s.poolFor (s.bufferLen p)) (voq (parseSlice p.port) p.outPort p.cls) g
       (bitOf (rd (Reg.QUE_PFC p.port) F.QUE_PFC.EN) p.cls) [0, 0, 0, 0] = .ok) →
    completes (.bufferAdmit (parseSlice p.port) (some id) none none) s (fun u =>
      let sl := parseSlice p.port
      let k := s.poolFor (s.bufferLen p)
      let q := voq sl p.outPort p.cls
      u.queue q = s.queue q ++ [⟨id, .unicast, p.outPort, poolSize k⟩] ∧ u.usedOf q = s.usedOf q + poolSize k
        ∧ ∃ ptr, ptr ∈ (s.store sl k).cache ∧ (u.store sl k).cache = (s.store sl k).cache.erase ptr
          ∧ mfind u.que.bufs ptr = some ⟨k, sl, sl * 4096 + mget 0 s.que.seq sl, 1⟩
          ∧ ∃ x, mfind u.pkts id = some x ∧ x.buf = some ptr ∧ x.pool = k ∧ x.tag = sl * 4096 + mget 0 s.que.seq sl
            ∧ x.refs = 1 ∧ x.stage = .stored ∧ x.decided = true))

/-- What the free stores, the frees, the audit and the halt do (R195, R198, R202 to R207, R216, Table BUF-8): a burst between cache and
ring loses no pointer; a free with a bad pointer, a free buffer or another tag is rejected, and any other returns the buffer
to its owner's cache. Where the rules leave a choice it is the model's own (log entry 22).
It states that CACHE_REFILL, CACHE_SPILL, BUFFER_FREE, AUDIT_PASS and QUE_HALT_WRITE complete, that is that `exec` answers
the next state described, under conditions on the state and the operands alone. -/
def Obligations.BufferStores : Prop :=
  (∀ (s : State) (sl k : Nat), s.inReset = false → sl < 16 → k < 4 →
    completes (.cacheRefill sl k none) s (fun u =>
      let f := s.store sl k
      if 128 ≤ f.cache.length then u = s
      else freeOf (u.store sl k) = freeOf f ∧ u.regs = s.regs ∧ u.que.bufs = s.que.bufs
        ∧ (u.store sl k).cache.length = f.cache.length + min 128 ((f.size - f.fresh) + f.ring.length)
        ∧ ∀ x, x ≠ 4 * sl + k → mget {} u.que.stores x = mget {} s.que.stores x))
  ∧ (∀ (s : State) (sl k i : Nat), s.inReset = false → sl < 16 → k < 4 → (s.store sl k).cache.length < 128 →
    i < min 128 (((s.store sl k).size - (s.store sl k).fresh) + (s.store sl k).ring.length) →
    completes (.cacheRefill sl k (some i)) s (fun u => u.sticky Src.BPM_RING_ECC = true
      ∧ u.que.orphans.length = s.que.orphans.length + 1 ∧ u.que.bufs = s.que.bufs))
  ∧ (∀ (s : State) (sl k : Nat), s.inReset = false → sl < 16 → k < 4 →
    completes (.cacheSpill sl k) s (fun u =>
      let f := s.store sl k
      if f.cache.length ≤ 448 then u = s
      else freeOf (u.store sl k) = freeOf f ∧ (u.store sl k).cache.length = f.cache.length - 128
        ∧ (u.store sl k).ring.length = f.ring.length + 128 ∧ u.regs = s.regs ∧ u.que.bufs = s.que.bufs))
  ∧ (∀ (s : State) (sl ptr pool tag : Nat), s.inReset = false → sl < 16 → pool < 4 →
    completes (.bufferFree sl ptr pool tag) s (fun u =>
      u.que.frees = s.que.frees.erase ⟨sl, ptr, pool, tag⟩
      ∧ (s.ptrOk pool ptr = false → u.sticky Src.BPM_PTR = true ∧ u.que.bufs = s.que.bufs ∧ u.que.stores = s.que.stores)
      ∧ (s.ptrOk pool ptr = true → (∀ b, mfind s.que.bufs ptr = some b → b.tag ≠ tag) →
          u.sticky Src.BPM_FREE_ERR = true ∧ u.que.bufs = s.que.bufs ∧ u.que.stores = s.que.stores)
      ∧ (∀ b, s.ptrOk pool ptr = true → mfind s.que.bufs ptr = some b → b.tag = tag →
          mfind u.que.bufs ptr = none ∧ (∀ x, x ≠ ptr → mfind u.que.bufs x = mfind s.que.bufs x)
          ∧ (u.store (s.ptrOwner pool ptr) pool).cache = (s.store (s.ptrOwner pool ptr) pool).cache ++ [ptr])))
  ∧ (∀ (s : State), s.inReset = false →
    completes .auditPass s (fun u =>
      let waits := s.que.auditAt ≤ s.now ∧ s.now < s.que.auditAt + s.auditPeriod
      (s.flag Reg.QUE_AUDIT_CFG F.QUE_AUDIT_CFG.EN = false ∨ waits → u = s)
      ∧ (s.flag Reg.QUE_AUDIT_CFG F.QUE_AUDIT_CFG.EN = true → ¬ waits → u.que.auditAt = s.now
          ∧ u.fld Reg.QUE_AUDIT_STAT F.QUE_AUDIT_STAT.PASSES = (s.fld Reg.QUE_AUDIT_STAT F.QUE_AUDIT_STAT.PASSES + 1) % 2 ^ 32
          ∧ (s.flag Reg.QUE_AUDIT_CFG F.QUE_AUDIT_CFG.RECLAIM = true → u.que.orphans = [])
          ∧ (s.flag Reg.QUE_AUDIT_CFG F.QUE_AUDIT_CFG.RECLAIM = false → u.que.bufs = s.que.bufs ∧ u.que.stores = s.que.stores))))
  ∧ (∀ (s : State) (by_ : Agent) (v : Word64), s.reaches by_ Reg.QUE_CTL = true →
    completes (.queHaltWrite by_ v) s (fun u =>
      let c := Reg.QUE_CTL
      (v.toNat % 2 = 1 → u.flag c F.QUE_CTL.HALT = true ∧ u.flag c F.QUE_CTL.HALTED
          = (s.que.bufs.isEmpty && (List.range 514).all (fun p => !(s.portExists p) || s.portHalted p)))
      ∧ (v.toNat % 2 = 0 → s.flag c F.QUE_CTL.HALT = false → u = s.touch by_)
      ∧ (v.toNat % 2 = 0 → s.flag c F.QUE_CTL.HALT = true → s.layoutOk = false →
          u.rd c = s.rd c ∧ u.sticky Src.QUE_CFG_REJECT = true ∧ u.que = s.que)
      ∧ (v.toNat % 2 = 0 → s.flag c F.QUE_CTL.HALT = true → s.layoutOk = true →
          u.flag c F.QUE_CTL.HALT = false ∧ u.flag c F.QUE_CTL.HALTED = false ∧ u.que.stopped = false
          ∧ (s.que.bufs = [] → ∀ sl k, sl < 16 → k < 4 →
              freeOf (u.store sl k) = s.poolBufs k ∧ (u.store sl k).cache = []))))

/-- What flow control does, sent and received (R213 to R215, R234). Where the rules leave a choice it is the model's own (log
entry 4).
It states that PFC_FRAME_TRANSMIT, PFC_REPEAT, PFC_HOLD_EXPIRY, PFC_FRAME_RECEIVE, PAUSE_EXPIRY and SCH_PFC_LONG complete,
that is that `exec` answers the next state described, under conditions on the state and the operands alone. -/
def Obligations.FlowControl : Prop :=
  (∀ (s : State) (p lane d n : Nat), s.inReset = false → p < 514 → lane < 514 → s.inFerry = false → s.maySend p = true →
    s.portOfLane lane = p → (s.egress p).sending = none → (s.egress p).ahead = [] →
    (∃ c, c < 8 ∧ (mget {} s.que.pfc (8 * p + c)).owed = true) →
    s.now ≤ s.txStamp p lane d n → (s.egress p).freeAt ≤ s.txStamp p lane d n →
    completes (.pfcFrameTransmit p lane d n) s (fun u =>
      let t := s.txStamp p lane d n
      (∃ bytes, u.out = s.out ++ [.frame p t bytes] ∧ 64 ≤ bytes.length) ∧ u.regs = s.regs
      ∧ (u.egress p).freeAt = t + s.byteSpan p 84
      ∧ ∀ c, c < 8 → (mget {} u.que.pfc (8 * p + c)).owed = false
        ∧ ((mget {} s.que.pfc (8 * p + c)).owed = true → (mget {} u.que.pfc (8 * p + c)).sentAt = t)
        ∧ (mget {} u.que.pfc (8 * p + c)).xoff = (mget {} s.que.pfc (8 * p + c)).xoff))
  ∧ (∀ (s : State) (p c : Nat), s.inReset = false → p < 514 → c < 8 →
    completes (.pfcRepeat p c) s (fun u =>
      let x := mget {} s.que.pfc (8 * p + c)
      if s.inFerry = false ∧ x.xoff = true ∧ x.owed = false
          ∧ x.sentAt + s.quantaSpan p (s.cfgFld (Reg.QUE_PFC p) F.QUE_PFC.QUANTA) / 2 ≤ s.now then
        mget {} u.que.pfc (8 * p + c) = { x with owed := true } ∧ u.regs = s.regs
      else u = s))
  ∧ (∀ (s : State) (p c : Nat) (t : Stamp), s.inReset = false → p < 514 → c < 8 →
    (mget {} s.que.pfc (8 * p + c)).emptyAt = some t →
    completes (.pfcHoldExpiry p c) s (fun u =>
      if s.now < t + s.cfgFld Reg.QUE_THR F.QUE_THR.HOLD_US * microsecond then u = s
      else (mget {} u.que.pfc (8 * p + c)).emptyAt = none ∧ u.regs = s.regs
        ∧ ((∀ k, k < 4 → (s.store (sliceOf p) k).level = 0) → (mget {} u.que.pfc (8 * p + c)).xoff = false)))
  ∧ (∀ (s : State) (p opcode enable : Nat) (times : List Nat), s.inReset = false → p < 514 → s.portExists p = true →
    s.linkUp p = true → s.portHalted p = false → s.deaf p = false → s.inFerry = false →
    completes (.pfcFrameReceive p opcode enable times) s (fun u =>
      (opcode = 0x0001 → u = s.count (Ctr.QUE_PFC_RX (8 * p)))
      ∧ (opcode ≠ 0x0001 → opcode ≠ 0x0101 → u = s)
      ∧ (opcode = 0x0101 → ∀ c, c < 8 →
          if bitOf enable c = true ∧ bitOf (s.cfgFld (Reg.SCH_PORT_CFG p) F.SCH_PORT_CFG.PFC_RX) c = true then
            bitOf (u.fld (Reg.SCH_STATE p) F.SCH_STATE.PAUSED) c = decide (times.getD c 0 ≠ 0)
            ∧ (times.getD c 0 = 0 → mfind (u.egress p).pauses c = none)
            ∧ (times.getD c 0 ≠ 0 → ∃ t0 b, mfind (u.egress p).pauses c = some (s.now + s.quantaSpan p (times.getD c 0), t0, b))
          else mfind (u.egress p).pauses c = mfind (s.egress p).pauses c)))
  ∧ (∀ (s : State) (p c : Nat) (t t0 : Stamp) (seen : Bool), s.inReset = false → p < 514 → c < 8 →
    mfind (s.egress p).pauses c = some (t, t0, seen) →
    completes (.pauseExpiry p c) s (fun u =>
      if s.now < t then u = s
      else mfind (u.egress p).pauses c = none ∧ bitOf (u.fld (Reg.SCH_STATE p) F.SCH_STATE.PAUSED) c = false))
  ∧ (∀ (s : State) (p c : Nat) (t t0 : Stamp) (seen : Bool), s.inReset = false → p < 514 → c < 8 →
    mfind (s.egress p).pauses c = some (t, t0, seen) →
    completes (.schPfcLong p c) s (fun u =>
      if seen = true ∨ t < t0 + 100 * millisecond ∨ s.now < t0 + 100 * millisecond then u = s
      else mfind (u.egress p).pauses c = some (t, t0, true) ∧ u.sticky Src.SCH_PFC_LONG = true))

/-- What offers, grants and replication do (R228 to R233, R242, R267 to R269): a queue's head is offered once; a port's only
offer that nothing holds crosses to its egress slice, and one that fits nowhere is removed; a granted multicast entry becomes
its copies. Where the rules leave a choice it is the model's own (log entry 23).
It states that OFFER_ARRIVAL, SCHEDULER_GRANT, MCAST_ARBITER_GRANT and REPLICATE complete, that is that `exec` answers the
next state described, under conditions on the state and the operands alone. -/
def Obligations.SchedulingAndReplication : Prop :=
  (∀ (s : State) (q : Nat) (d : Desc) (rest : List Desc) (p : Packet), s.inReset = false → q < 67840 → s.queue q = d :: rest →
    mfind s.pkts d.pkt = some p → q ∉ s.que.offered → (p.ended = true ∨ p.cut = true ∧ d.kind = .unicast) →
    completes (.offerArrival q) s (fun u => u.que.offered = s.que.offered ++ [q] ∧ u.regs = s.regs
      ∧ (q < 65792 → (u.egress d.port).offers = (s.egress d.port).offers ++ [s.copyOf q d p])
      ∧ (65792 ≤ q → u.egr = s.egr)))
  ∧ (∀ (s : State) (p : Nat) (locked : Bool) (slot : Stamp) (c : Copy), s.inReset = false → p < 514 → s.egressDown p = false →
    (s.egress p).offers = [c] → c.port = p → c.cls < 8 → c.source < 17 → c.kind = .unicast → s.stillLocked c = locked →
    completes (.schedulerGrant p locked slot .none) s (fun u =>
      let t := s.accrue p
      (s.fitsNowhere p c.cls c.lsel = true → (u.egress p).offers = [] ∧ (u.egress p).crossing = (s.egress p).crossing
          ∧ u.sticky Src.SCH_NEVER_FITS = true)
      ∧ (s.fitsNowhere p c.cls c.lsel = false → s.roomFor p locked = false → u = t)
      ∧ (s.fitsNowhere p c.cls c.lsel = false → s.roomFor p locked = true → s.paused p c.cls = false → t.portCredit p = true →
          s.xbarRoom (sliceOf p) c.lsel = true →
          (locked = false → s.gateAdmits p c.cls c.lsel slot = true ∧ t.classCreditOk p c.cls = true) →
          (u.egress p).offers = [] ∧ (u.egress p).crossing = (s.egress p).crossing ++ [{ c with charged := !locked }]
          ∧ u.queue c.queue = (s.queue c.queue).tail)))
  ∧ (∀ (s : State) (e q : Nat) (d : Desc) (rest : List Desc) (p : Packet), s.inReset = false → e < 16 → 65792 ≤ q → q < 67840 →
    (q - 65792) % 128 / 8 = e → s.que.offered = [q] → s.queue q = d :: rest → mfind s.pkts d.pkt = some p →
    s.xbarRoom e (s.bufferLen p) = true →
    completes (.mcastArbiterGrant e .none) s (fun u => u.que.offered = [] ∧ u.queue q = rest ∧ u.regs = s.regs
      ∧ u.egr.replicas = s.egr.replicas ++ [⟨d.pkt, e, q, d.gran, false, 0⟩] ∧ mget 15 u.egr.mcLast e = queueSlice q))
  ∧ (∀ (s : State) (e : Nat) (r : Replica) (p : Packet), s.inReset = false → e < 16 →
    s.egr.replicas.find? (fun x => x.slice == e && !x.made) = some r → mfind s.pkts r.pkt = some p →
    completes (.replicate e) s (fun u =>
      (s.groupSlot p.group p.ver = none → u.egr.replicas = s.egr.replicas.erase r ∧ u.egr.ports = s.egr.ports)
      ∧ (∀ g port, s.groupSlot p.group p.ver = some g → (s.copyEntries g).filter (fun x => sliceOf x.1 == e) = [(port, none)] →
          s.portExists port = true → s.exportPort port = false → s.towPort port = false →
          ((g.exclude || p.flood || p.tow) && port == p.port) = false →
          u.egr.replicas = s.egr.replicas.erase r ++ [{ r with made := true, left := 1 }]
          ∧ ∃ c, (u.egress port).offers = (s.egress port).offers ++ [c] ∧ c.pkt = r.pkt ∧ c.kind = .multicast ∧ c.port = port
            ∧ c.cls = p.cls ∧ c.lsel = s.lselOf p port none
            ∧ c.release = s.releaseOf p port (s.copyDelay port p.cls g.groupD p.ver p.stamp).1)))

/-- What the lock and the transmitter do (R229, R249 to R252, R259 to R263, R201, R243): a locked frame waits in sort order
for its release instant, one that comes after it is late, and a frame begins with the stamp of its slot, once the port is free
and its own slot has come, and leaves with its bytes, the gap behind it. Where the rules leave a choice it is the model's own (log entry 24).
It states that CROSSBAR_ARRIVAL, LOCK_RELEASE, FRAME_TRANSMIT_START and FRAME_TRANSMIT_END complete, that is that `exec`
answers the next state described, under conditions on the state and the operands alone. -/
def Obligations.LockAndTransmission : Prop :=
  (∀ (s : State) (p : Nat) (c : Copy) (rest : List Copy), s.inReset = false → p < 514 → (s.egress p).crossing = c :: rest →
    completes (.crossbarArrival p) s (fun u => (u.egress p).crossing = rest
      ∧ (s.stillLocked c = false → s.egressDown p = false →
          (u.egress p).staging = (s.egress p).staging ++ [{ c with bypassed := true }])
      ∧ (s.stillLocked c = true → c.late = false → s.now ≤ c.release.getD 0 →
          (u.egress p).fifo = s.insertCopy c (s.egress p).fifo)
      ∧ (s.stillLocked c = true → c.late = false → c.release.getD 0 < s.now → s.lateDrop c = false →
          (u.egress p).fifo = s.insertCopy { c with late := true } (s.egress p).fifo)))
  ∧ (∀ (s : State) (p : Nat) (slot : Stamp) (parity : Bool) (c : Copy) (rest : List Copy), s.inReset = false → p < 514 →
    (s.egress p).fifo = c :: rest → c.port = p →
    completes (.lockRelease p slot parity) s (fun u =>
      (s.now < c.release.getD 0 → u = s)
      ∧ (c.release.getD 0 ≤ s.now → (u.egress p).fifo = rest)
      ∧ (c.release.getD 0 ≤ s.now → parity = true → u.sticky Src.LCK_PARITY = true
          ∧ u.sticky Src.SCP_FIFO_PAR = true ∧ (u.egress p).due = (s.egress p).due)
      ∧ (c.release.getD 0 ≤ s.now → parity = false → s.egressDown p = false → c.late = false →
          s.gateAdmits p c.cls c.lsel slot = true → s.paused p c.cls = false → (s.accrue p).portCredit p = true →
          (u.egress p).due = s.insertCopy c (s.egress p).due)))
  ∧ (∀ (s : State) (p lane d n : Nat) (first : Stamp) (x : Copy), s.inReset = false → p < 514 → lane < 514 →
    s.maySend p = true → s.portOfLane lane = p → (s.egress p).sending = none →
    s.now ≤ s.txStamp p lane d n → (s.egress p).freeAt ≤ s.txStamp p lane d n → (∀ k, k < 8 → (mget {} s.que.pfc (8 * p + k)).owed = false) → x.port = p →
    completes (.frameTransmitStart p lane d n first .none) s (fun u =>
      let t := s.txStamp p lane d n
      ((s.egress p).due = [x] → s.slotOk x t first (s.stillLocked x) = true → (s.accrue p).heldAt x t (s.stillLocked x) = false → (u.egress p).due = [] ∧
        ∃ y, (u.egress p).sending = some y ∧ y.copy.pkt = x.pkt ∧ y.stamp = t ∧ y.tq = s.stampTq lane ∧ y.ub = s.stampUb lane)
      ∧ ((s.egress p).due = [] → (s.egress p).staging = [x] → s.stillLocked x = false → (s.accrue p).heldAt x t false = false →
        s.gateAdmits p x.cls x.lsel t = true → s.guardOk x t = true → (u.egress p).staging = [] ∧
        ∃ y, (u.egress p).sending = some y ∧ y.copy = x ∧ y.stamp = t ∧ y.tq = s.stampTq lane ∧ y.ub = s.stampUb lane)
      ∧ ((s.egress p).due = [] → (s.egress p).staging = [] → (u.egress p).sending = none ∧ u.pkts = s.pkts)))
  ∧ (∀ (s : State) (p : Nat) (t : Stamp) (x : Sending) (pk : Packet), s.inReset = false → p < 514 → (s.egress p).sending = some x →
    mfind s.pkts x.copy.pkt = some pk →
    completes (.frameTransmitEnd p t) s (fun u =>
      let f := (s.outFrame x.copy pk x.stamp).1
      let ends := pk.ended = true ∧ x.stamp + s.leastSpan p f.length ≤ t ∧ t ≤ x.stamp + s.tNeed p f.length
      (¬ ends → u = s)
      ∧ (ends → (u.egress p).sending = none)
      ∧ (ends → (s.egress p).ahead = [] → (u.egress p).freeAt = t + s.byteSpan p 20
          ∧ (x.witnessed = true → u.out = s.out ++ [.frame p x.stamp f]))))

/-- What the time gates and the shapers do (R236, R238, R240): the state shows the entry in force, a pending schedule comes
into force at its first cycle start, the list of a bank in use is not written, and RECOVERY ends. Where the rules leave a
choice it is the model's own (log entry 23).
It states that GATE_ENTRY_CHANGE, GATE_SCHEDULE_START, SCH_GL_WRITE and SHAPER_RECOVERY_END complete, that is that `exec`
answers the next state described, under conditions on the state and the operands alone. -/
def Obligations.GatesAndShapers : Prop :=
  (∀ (s : State) (p : Nat), s.inReset = false → p < 514 →
    completes (.gateEntryChange p) s (fun u => u.egr = s.egr
      ∧ u.fld (Reg.SCH_STATE p) F.SCH_STATE.GATES_NOW = (s.gatesAt p s.now).1 % 256
      ∧ u.fld (Reg.SCH_STATE p) F.SCH_STATE.ENTRY = (s.gatesAt p s.now).2 % 256
      ∧ ∀ off, off ≠ Reg.SCH_STATE p → off ≠ Reg.SCH_GATE_CTL p → u.rd off = s.rd off))
  ∧ (∀ (s : State) (p : Nat) (k : Stamp) (g : Sched), s.inReset = false → p < 514 → (s.egress p).pending = some (k, g) →
    completes (.gateScheduleStart p) s (fun u =>
      if k ≤ s.now then (u.egress p).sched = some g ∧ (u.egress p).pending = none
        ∧ u.fld (Reg.SCH_GATE_CTL p) F.SCH_GATE_CTL.BANK_IN_FORCE = g.bank % 2
        ∧ u.flag (Reg.SCH_GATE_CTL p) F.SCH_GATE_CTL.PENDING = false
      else u = s))
  ∧ (∀ (s : State) (by_ : Agent) (i : Nat) (v : Word64), i < 256 → s.reaches by_ (Reg.SCH_GL i) = true →
    s.fld Reg.SCH_GL_SEL F.SCH_GL_SEL.PORT ≤ 513 →
    completes (.schGlWrite by_ i v) s (fun u =>
      let p := s.fld Reg.SCH_GL_SEL F.SCH_GL_SEL.PORT
      let b := s.fld Reg.SCH_GL_SEL F.SCH_GL_SEL.BANK
      let used := (s.egress p).sched.map (·.bank) = some b ∨ (s.egress p).pending.map (·.2.bank) = some b
      (used → u.egr = s.egr ∧ u.sticky Src.SCH_GATE_REJECT = true)
      ∧ (¬ used → u.regs = s.regs ∧ ∀ p' b' j, b' < 2 → j < 256 → u.gateEntry p' b' j
          = if p' = p ∧ b' = b ∧ j = i then v.toNat % 2 ^ 40 else s.gateEntry p' b' j)))
  ∧ (∀ (s : State) (p : Nat), s.inReset = false → p < 514 →
    completes (.shaperRecoveryEnd p) s (fun u =>
      if s.svc p = 3 ∧ (s.egress p).svcAt + s.cfgFld Reg.SCH_CFG F.SCH_CFG.RECOVERY_US * microsecond ≤ s.now then
        u.svc p = (if s.svcTest p then 2 else 0) ∧ (u.egress p).svcAt = s.now
      else u = s))

/-! ## The witness -/

/-- What epochs, seals and log runs do (R288, R289, R294 to R299, R305, R348): an epoch that ends closes every block and holds its
seal; the seal that the security module serves and has signed waits for the ring with the next sequence and is hashed for the one after it; a run begins with sequences
from 0, or, where the loader begins it, once its sections are loaded; the ring takes a unit where it has room. Where the rules leave a choice it is the model's own (log entry 26).
It states that EPOCH_END, SEAL_SIGNED, WIT_STOP, WIT_START and RING_UNIT_WRITE complete, that is that `exec` answers the next
state described, under conditions on the state and the operands alone. -/
def Obligations.WitnessLog : Prop :=
  (∀ (s : State), s.inReset = false →
    completes .epochEnd s (fun u =>
      (s.witOn = false ∨ s.now < s.wit.epochEnd → u = s)
      ∧ (s.witOn = true → s.wit.epochEnd ≤ s.now → u.epochNo = (s.epochNo + 1) % 2 ^ 48 ∧ u.wit.epochStart = s.wit.epochEnd
          ∧ (s.wit.keyPend = none → u.wit.epochEnd = s.nextBoundary s.wit.epochEnd
              ∧ ∀ st, st < 16 → (u.recorder st).blk = none ∧ (u.recorder st).epochRecs = 0)
          ∧ (s.wit.keyPend = none → s.flag Reg.SEC_STATUS F.SEC_STATUS.READY = true →
              u.wit.bodies.length = s.wit.bodies.length + 1))))
  ∧ (∀ (s : State) (ok : Bool) (b : SealBody) (rest : List SealBody), s.inReset = false → s.wit.bodies = b :: rest →
    s.secServing = some 1 →
    completes (.sealSigned ok) s (fun u => u.wit.bodies = rest
      ∧ (∃ d, u.wit.staged = s.wit.staged ++ [⟨16, d⟩] ∧ u.wit.sealPrev = sha256 d ∧ 80 ≤ d.length
          ∧ ∀ i, i < 32 → byteAt d (48 + i) = byteAt (sub s.wit.sealPrev 0 32) i)
      ∧ u.fld (Reg.WIT_STREAM_STAT 16) F.WIT_STREAM_STAT.NEXT_SEQ = (b.e + 1) % 2 ^ 48
      ∧ (ok = false → u.sticky Src.WIT_SEAL_FAIL = true)))
  ∧ (∀ (s : State) (by_ : Agent), s.reaches by_ Reg.WIT_CTL = true →
    completes (.witStop by_) s (fun u =>
      (s.isWarden by_ = true → u.flag Reg.WIT_CTL F.WIT_CTL.EN = false)
      ∧ (s.isWarden by_ = true → s.witOn = true → ∀ st, st < 16 → (u.recorder st).blk = none)
      ∧ (s.isWarden by_ = true → s.witOn = true → s.flag Reg.SEC_STATUS F.SEC_STATUS.READY = true →
          u.wit.bodies.length = s.wit.bodies.length + 1)
      ∧ (s.isWarden by_ = false → u.flag Reg.WIT_CTL F.WIT_CTL.EN = s.flag Reg.WIT_CTL F.WIT_CTL.EN ∧ u.wit = s.wit)))
  ∧ (∀ (s : State) (by_ : Agent), s.reaches by_ Reg.WIT_CTL = true →
    completes (.witStart by_) s (fun u =>
      (s.isWarden by_ = true → u.flag Reg.WIT_CTL F.WIT_CTL.EN = true)
      ∧ (by_ ≠ .loader → s.isWarden by_ = true → s.flag Reg.WIT_CTL F.WIT_CTL.EN = false → s.wit.keyPend = none →
          s.wit.early = [] → u.wit.epochStart = s.now ∧ u.wit.sealPrev = [] ∧ u.wit.epochEnd = s.nextBoundary s.now
          ∧ ∀ st, st < 16 → u.fld (Reg.WIT_STREAM_STAT st) F.WIT_STREAM_STAT.NEXT_SEQ = 0 ∧ (u.recorder st).started = false)
      ∧ (s.isWarden by_ = false → u.flag Reg.WIT_CTL F.WIT_CTL.EN = s.flag Reg.WIT_CTL F.WIT_CTL.EN ∧ u.wit = s.wit)))
  ∧ (∀ (s : State) (reads : List Nat) (x : WUnit) (rest : List WUnit), s.inReset = false → s.wit.staged = x :: rest →
    completes (.ringUnitWrite reads) s (fun u =>
      let wr := s.rd Reg.WIT_RING_WR
      let size := s.fld Reg.WIT_RING_CFG F.WIT_RING_CFG.SIZE
      (wr - s.rd Reg.WIT_RING_REL < size → (s.wit.early = [] → u.wit.staged = rest) ∧ u.rd Reg.WIT_RING_WR = (wr + 1) % 2 ^ 64
          ∧ mfind u.wit.ring (wr % size) = some x ∧ (x.stream = 16 → u.sticky Src.WIT_SEAL = true))
      ∧ (size ≤ wr - s.rd Reg.WIT_RING_REL → s.wit.full = true → u = s)
      ∧ (size ≤ wr - s.rd Reg.WIT_RING_REL → s.wit.full = false → u.wit = { s.wit with full := true }
          ∧ u.sticky Src.WIT_RING_FULL = true)))

/-- What the export paths do (R300 to R304, R422): a push writes a unit to its ring in host memory and advances TAIL; a write of
HEAD or of WIT_PULL_HEAD releases units or is ignored; an export port that is free sends a unit in one frame; a word with a
double-bit error leaves as any bytes and is raised. Where the rules leave a
choice it is the model's own (log entry 26).
It states that PUSH_EXPORT_UNIT, PUSH_HEAD_WRITE, PULL_HEAD_WRITE and EXPORT_FRAME_TRANSMIT complete, that is that `exec`
answers the next state described, under conditions on the state and the operands alone. -/
def Obligations.WitnessExport : Prop :=
  (∀ (s : State) (errs : List (Nat × Nat)), s.inReset = false → s.flag Reg.WIT_EXP_CTL F.WIT_EXP_CTL.PUSH_EN = true → s.ready 14 = true →
    s.wit.pushNextX < s.rd Reg.WIT_RING_WR → (s.fnSt 1).d3hot = false → (∃ c, c < 16 ∧ s.chanOn c 3 = true) →
    (∀ c, c < 16 → s.dmaMay c 1 = true) →
    completes (.pushExportUnit errs) s (fun u =>
      let x := s.wit.pushNextX
      let i := x % s.pushRings
      let size := 2 ^ s.fld (Reg.WIT_EXP_RING_BASE i) F.WIT_EXP_RING_BASE.SIZE_LOG2
      let tail := s.fld (Reg.WIT_EXP_RING_TAIL i) F.WIT_EXP_RING_TAIL.TAIL
      let addr := s.fld (Reg.WIT_EXP_RING_BASE i) F.WIT_EXP_RING_BASE.ADDR * 4096 + 4096 * ((x / s.pushRings) % size)
      if (tail + 2 ^ 32 - s.fld (Reg.WIT_EXP_RING_HEAD i) F.WIT_EXP_RING_HEAD.HEAD) % 2 ^ 32 < size then
        (∃ data, u.out = s.out ++ [.hostWrite 1 addr data] ∧ ((∀ e ∈ errs, e.2 ≠ 2) → data = s.ringUnit x)) ∧ u.wit.pushNextX = x + 1 ∧ u.sticky Src.WIT_EXPORT = true
          ∧ u.fld (Reg.WIT_EXP_RING_TAIL i) F.WIT_EXP_RING_TAIL.TAIL = (tail + 1) % 2 ^ 32
          ∧ ((∃ e ∈ errs, e.2 = 2) → u.sticky Src.WIT_RING_ECC = true)
      else u = s))
  ∧ (∀ (s : State) (by_ : Agent) (i : Nat) (v : Word64), i < 8 → s.reaches by_ (Reg.WIT_EXP_RING_HEAD i) = true →
    completes (.pushHeadWrite by_ i v) s (fun u =>
      let head := s.fld (Reg.WIT_EXP_RING_HEAD i) F.WIT_EXP_RING_HEAD.HEAD
      let tail := s.fld (Reg.WIT_EXP_RING_TAIL i) F.WIT_EXP_RING_TAIL.TAIL
      let d := (v.toNat % 2 ^ 32 + 2 ^ 32 - head) % 2 ^ 32
      if d ≤ (tail + 2 ^ 32 - head) % 2 ^ 32 then
        u.fld (Reg.WIT_EXP_RING_HEAD i) F.WIT_EXP_RING_HEAD.HEAD = v.toNat % 2 ^ 32
          ∧ mget 0 u.wit.pushRel i = max (mget 0 s.wit.pushRel i)
            (firstFor s.wit.pushNextX s.pushRings i - s.pushRings * ((tail + 2 ^ 32 - v.toNat % 2 ^ 32) % 2 ^ 32)) ∧ u.wit.ring = s.wit.ring
          ∧ ∀ off, off ≠ Reg.WIT_EXP_RING_HEAD i → off ≠ Reg.WIT_RING_REL → u.rd off = s.rd off
      else u = s.touch by_))
  ∧ (∀ (s : State) (by_ : Agent) (v : Word64), s.reaches by_ Reg.WIT_PULL_HEAD = true →
    completes (.pullHeadWrite by_ v) s (fun u =>
      if s.rd Reg.WIT_PULL_HEAD ≤ v.toNat ∧ v.toNat ≤ s.rd Reg.WIT_RING_WR then
        u.rd Reg.WIT_PULL_HEAD = v.toNat
          ∧ (s.flag Reg.WIT_EXP_CTL F.WIT_EXP_CTL.PULL_EN = true → u.rd Reg.WIT_RING_REL ≤ v.toNat)
          ∧ ∀ off, off ≠ Reg.WIT_PULL_HEAD → off ≠ Reg.WIT_RING_REL → u.rd off = s.rd off
      else u = s.touch by_))
  ∧ (∀ (s : State) (j : Nat) (errs : List (Nat × Nat)), s.inReset = false → s.flag Reg.WIT_EXP_CTL F.WIT_EXP_CTL.PORTS_EN = true →
    s.ready 14 = true → j < s.exportPorts → mget 0 s.wit.portRel j < s.rd Reg.WIT_RING_WR →
    completes (.exportFrameTransmit j errs) s (fun u =>
      let x := mget 0 s.wit.portRel j
      let port := s.fld (Reg.WIT_EXP_PORT j) F.WIT_EXP_PORT.PORT
      if s.maySend port = true ∧ (s.egress port).sending = none ∧ (s.egress port).freeAt ≤ s.now then
        mget 0 u.wit.portRel j = x + s.exportPorts ∧ ((∃ e ∈ errs, e.2 = 2) → u.sticky Src.WIT_RING_ECC = true)
          ∧ ∃ unit, u.out = s.out ++ [.frame port s.now (s.exportFrame x j unit)] ∧ ((∀ e ∈ errs, e.2 ≠ 2) → unit = s.ringUnit x)
            ∧ (u.egress port).freeAt = s.now + s.byteSpan port ((s.exportFrame x j unit).length + 20)
      else u = s))

/-! ## Joined systems -/

/-- What membership frames, a member's timeout, healing and the rejoin do (R310, R311, R327, R328, R318, R330 to R333, R335, R336):
a received vector's newer entries are taken; an Authoritative member that loses the majority becomes Adrift in a new
partition epoch; a healing member rejoins and sends its anchor. A frame of its own leaves at once where its port is free for it. Where the rules leave a choice it is the model's own (log
entry 27).
It states that MEMBERSHIP_FRAME_SEND, MEMBERSHIP_FRAME_RECEIVE, MEMBER_TIMEOUT, TOW_HEAL, REJOIN_INSTANT,
ANCHOR_FRAME_RECEIVE, TOW_FREQ_CHECK and TOW_PORT_CFG_WRITE complete, that is that `exec` answers the next state described,
under conditions on the state and the operands alone. -/
def Obligations.TowpathMembership : Prop :=
  (∀ (s : State), s.inReset = false →
    completes .membershipFrameSend s (fun u =>
      if s.isMember = true ∧ s.inFerry = false ∧ isDue s.tow.beatAt (10 * microsecond) s.now = true then
        u.tow = { s.tow with ownSeq := (s.tow.ownSeq + 1) % 256, beatAt := some s.now } ∧ u.regs = s.regs
          ∧ ((∀ p ∈ s.towPorts, s.sendsAtOnce p) → u.out.length = s.out.length + s.towPorts.length)
      else u = s))
  ∧ (∀ (s : State) (p : Nat) (bytes : Bytes), s.inReset = false → p < 512 → s.towReceives p = true → towW2 bytes 63 62 = 1 →
    byteAt bytes 32 = 0 → (s.towFrameOk p bytes).1 = true → s.cfgFlag Reg.TOW_CFG F.TOW_CFG.EN = true →
    completes (.membershipFrameReceive p bytes) s (fun u => u.tow.ownSeq = s.tow.ownSeq ∧ (u.towPeer p).heard = some s.now
      ∧ u.fld (Reg.TOW_PORT_STAT p) F.TOW_PORT_STAT.PEER_SYSID = towW2 bytes 40 32
      ∧ ∀ i, i < 512 → i ≠ s.ownSys →
          let b := sub (sub bytes 32 2080) (32 + 4 * i) 4
          mfind u.tow.entries i = (if newer (byteAt b 0) (mget {} s.tow.entries i).seq then
            some ⟨byteAt b 0, byteAt b 1, byteAt b 2, s.now⟩ else mfind s.tow.entries i)))
  ∧ (∀ (s : State) (i : Nat), s.inReset = false → i < 512 →
    completes (.memberTimeout i) s (fun u =>
      (s.isMember = false ∨ s.reachable i = true → u = s)
      ∧ (s.towSt = 2 → s.reachable i = false → s.cfgFlag Reg.TOW_CFG F.TOW_CFG.EN = true → s.inFerry = false →
          s.tow.masterHash = none → s.majority = false →
          u.towSt = 3 ∧ u.fld Reg.TOW_STATE F.TOW_STATE.PEPOCH = (s.fld Reg.TOW_STATE F.TOW_STATE.PEPOCH + 1) % 65536
          ∧ u.tow.master = none ∧ u.sticky Src.TOW_STATE_CHANGE = true)))
  ∧ (∀ (s : State) (by_ : Agent) (v : Word64), s.reaches by_ Reg.TOW_CTL = true →
    completes (.towHeal by_ v) s (fun u =>
      if s.acts by_ Reg.TOW_CTL F.TOW_CTL.HEAL v.toNat = true ∧ s.towSt = 3 ∧ s.majority = true then
        u.towSt = 4 ∧ u.tow.healIntent = true ∧ u.tow.healAt = s.now ∧ u.tim.inTrack = 0 ∧ u.sticky Src.TOW_STATE_CHANGE = true
      else u.tow = s.tow ∧ u.rd Reg.TOW_STATE = s.rd Reg.TOW_STATE))
  ∧ (∀ (s : State), s.inReset = false →
    completes .rejoinInstant s (fun u =>
      (s.mayRejoin = false → u = s)
      ∧ (∀ p, s.parentPort = some p → s.mayRejoin = true → u.towSt = 2 ∧ u.tq = 3
          ∧ u.fld Reg.TIM_STATE F.TIM_STATE.REF_IN_USE = 4 ∧ u.tow.anchorDue = s.tow.anchorDue ++ [p]
          ∧ (s.tow.sysCurrent ≠ 0 → s.tow.sysCurrent < 65536 → u.currentV = s.tow.sysCurrent)
          ∧ (s.sendsAtOnce p → ∃ t bytes, u.out = s.out ++ [.frame p t bytes]))))
  ∧ (∀ (s : State) (p : Nat) (bytes : Bytes), s.inReset = false → p < 512 → s.towReceives p = true → towW2 bytes 63 62 = 1 →
    byteAt bytes 32 = 1 → (s.towFrameOk p bytes).1 = true →
    completes (.anchorFrameReceive p bytes) s (fun u =>
      if p ∈ s.tow.anchorDue then p ∉ u.tow.anchorDue ∧ u.out = s.out
      else u.tow = s.tow ∧ (s.sendsAtOnce p → ∃ t answer, u.out = s.out ++ [.frame p t answer])))
  ∧ (∀ (s : State) (p : Nat) (diff : Int), s.inReset = false → p < 512 →
    completes (.towFreqCheck p diff) s (fun u =>
      let x := s.towPeer p
      if s.towPort p = true ∧ s.linkUp p = true ∧ isDue x.freqAt (100 * millisecond) s.now = true then
        u.towPeer p = { x with freqAt := some s.now } ∧ (50000 < diff.natAbs → u.sticky Src.TOW_FREQ_MISMATCH = true)
          ∧ (diff.natAbs ≤ 50000 → u.regs = s.regs)
      else u = s))
  ∧ (∀ (s : State) (by_ : Agent) (p : Nat) (v : Word64), p < 512 → s.reaches by_ (Reg.TOW_PORT_CFG p) = true →
    completes (.towPortCfgWrite by_ p v) s (fun u =>
      let want := bits v.toNat 63 63 == 1
      let bad := s.towPort p = false ∧ want = true ∧ (s.phyOf p < 4 ∨ s.exportPort p = true)
      (bad → u.rd (Reg.TOW_PORT_CFG p) = s.rd (Reg.TOW_PORT_CFG p) ∧ u.sticky Src.TOW_CFG_REJECT = true ∧ u.tow = s.tow)
      ∧ (¬ bad → u.towPort p = if s.portHalted p then want else s.towPort p)))

/-- What towpath time frames and data frames do (R56, R313, R315, R316, R318, R320, R321): a time frame is due once a period and is stamped at the
ball; a
completed exchange publishes the offset; a data frame is delivered at a port of this device under its ingress stamp, and one
without hops left goes no further. Where the rules leave a choice it is the model's own (log entry 27).
It states that TIME_FRAME_SEND, TIME_FRAME_RECEIVE and TOWPATH_DATA_RECEIVE complete, that is that `exec` answers the next
state described, under conditions on the state and the operands alone. -/
def Obligations.TowpathTimeAndData : Prop :=
  (∀ (s : State) (p lane d n : Nat), s.inReset = false → p < 512 → lane < 514 →
    completes (.timeFrameSend p lane d n) s (fun u =>
      let t := s.txStamp p lane d n
      if s.isMember = true ∧ s.inFerry = false ∧ p ∈ s.towPorts ∧ s.maySend p = true ∧ s.portOfLane lane = p
          ∧ isDue (s.towPeer p).lastSent (s.updateInterval 4) s.now = true ∧ (s.egress p).sending = none
          ∧ (∀ k, k < 8 → (mget {} s.que.pfc (8 * p + k)).owed = false) ∧ s.now ≤ t ∧ (s.egress p).freeAt ≤ t then
        let q := ((s.towPeer p).tseq + 1) % 2 ^ 32
        u.towPeer p = { s.towPeer p with tseq := q, txPrev := t, sent := mput (s.towPeer p).sent q t, lastSent := some s.now }
          ∧ u.regs = s.regs ∧ ∃ bytes, u.out = s.out ++ [.frame p t bytes]
            ∧ (u.egress p).freeAt = t + s.byteSpan p (bytes.length + 20)
      else u = s))
  ∧ (∀ (s : State) (p : Nat) (bytes : Bytes) (lane d : Nat) (phi : Int) (n : Nat), s.inReset = false → p < 512 → lane < 514 →
    s.towReceives p = true → s.portOfLane lane = p → towW2 bytes 63 62 = 2 → (s.towFrameOk p bytes).1 = true →
    completes (.timeFrameReceive p bytes lane d phi n) s (fun u =>
      let t := s.rxStamp p lane d phi n
      (u.towPeer p).heard = some s.now ∧ (u.towPeer p).rx = some (leAt (sub bytes 32 48) 0 4, t)
      ∧ ∀ t1 t2 t3 t4 m, mfind (s.towPeer p).sent (leAt (sub bytes 32 48) 16 4) = some t1 →
          ofD96 (leAt (sub bytes 32 48) 20 12) = some t2 → ofD96 (leAt (sub bytes 32 48) 4 12) = some t3 →
          (s.towPeer p).rx = some (m, t4) → (m + 1) % 2 ^ 32 = leAt (sub bytes 32 48) 0 4 → (s.towPeer p).accepted < 16 →
          u.rd (Reg.TOW_PORT_OFFSET p) = ofIntW 64 (roundDivInt ((((t2 : Int) - t1) - ((t4 : Int) - t3)) * 1000
            - asInt 32 (s.cfgFld (Reg.TOW_PORT_CFG p) F.TOW_PORT_CFG.ASYM_PS) * 65536) 2000)))
  ∧ (∀ (s : State) (p : Nat) (bytes : Bytes), s.inReset = false → p < 512 → s.towReceives p = true → towW2 bytes 63 62 = 0 →
    (s.towFrameOk p bytes).1 = true →
    completes (.towpathDataReceive p bytes) s (fun u => u.regs = s.regs ∧ u.tow = s.tow
      ∧ (towW3 bytes 9 8 = 0 → bits (towW3 bytes 28 10) 18 10 = s.ownSys →
          s.portExists (bits (towW3 bytes 28 10) 9 0) = true → s.towPort (bits (towW3 bytes 28 10) 9 0) = false →
          ∃ q, mfind u.pkts s.nextPkt = some q ∧ q.kind = 1 ∧ q.outPort = bits (towW3 bytes 28 10) 9 0
            ∧ q.stamp = s.carriedStamp bytes ∧ q.cls = towW2 bytes 53 51 ∧ q.tow = true ∧ q.stage = .accept)
      ∧ (towW3 bytes 9 8 = 0 → bits (towW3 bytes 28 10) 18 10 ≠ s.ownSys → towW3 bytes 63 60 = 0 → u.pkts = s.pkts)
      ∧ (towW3 bytes 9 8 = 3 → u.pkts = s.pkts)))

/-! ## Memory -/

/-- What the DRAM, the capture ring and the scratchpad do (R417 to R419, R421, R422, R424, R425, R428, R429, R432): refreshes are postponed
up to the limit; an idle stack sleeps and a request wakes it; a double-bit error is published; an entry goes to the next ring
offset, unless the ring is frozen; a bank is written by its owner alone and changes owner in a handover that may clear it and
that writes to it wait for. Where the rules leave a
choice it is the model's own (log entries 8 and 34).
It states that HBM_REFRESH, SELF_REFRESH_ENTRY, SELF_REFRESH_EXIT, HBM_PATROL, CAPTURE_WRITE, SCP_HOST_WRITE,
SCP_HANDOVER_START, SCP_HANDOVER_DONE and MARCH_TEST complete, that is that `exec` answers the next state described, under
conditions on the state and the operands alone. -/
def Obligations.MemoryCommands : Prop :=
  (∀ (s : State) (pc n temp : Nat), s.inReset = false → pc < 64 →
    completes (.hbmRefresh pc n temp) s (fun u =>
      if s.hbmRuns (pc / 32) = true then
        let owed := mget 0 s.hbm.postponed pc + 1
        let limit := s.cfgFld Reg.HBM_CTL F.HBM_CTL.REF_POSTPONE
        mget 0 u.hbm.postponed pc = (if s.mayPostpone pc = true then owed - max (min n owed) (owed - limit) else 0)
          ∧ u.fld (Reg.HBM_STAT (pc / 32)) F.HBM_STAT.TEMP_C = min temp 255
          ∧ u.flag (Reg.HBM_STAT (pc / 32)) F.HBM_STAT.HOT = decide (85 < temp)
          ∧ (limit + 1 < owed → u.sticky Src.HBM_REFRESH_LATE = true)
      else u = s))
  ∧ (∀ (s : State) (k : Nat), s.inReset = false → k < 2 →
    completes (.selfRefreshEntry k) s (fun u =>
      (s.cfgFlag Reg.HBM_CTL F.HBM_CTL.SR_EN = false ∨ s.hbmRuns k = false ∨ s.wit.staged ≠ [] ∨ s.wit.panic ≠ none → u = s)
      ∧ (s.cfgFlag Reg.HBM_CTL F.HBM_CTL.SR_EN = true → s.hbmRuns k = true → s.wit.staged = [] → s.wit.panic = none →
          mget 0 s.hbm.lastReq k + max 1 (s.cfgFld Reg.HBM_CTL F.HBM_CTL.SR_IDLE_US) * microsecond ≤ s.now →
          u.flag (Reg.HBM_STAT k) F.HBM_STAT.SELF_REFRESH = true ∧ (∀ e ∈ u.hbm.rows, e.1 % 64 / 32 ≠ k)
            ∧ u.hbm.capRing = s.hbm.capRing)))
  ∧ (∀ (s : State) (k : Nat), s.inReset = false → k < 2 →
    completes (.selfRefreshExit k) s (fun u => u.flag (Reg.HBM_STAT k) F.HBM_STAT.SELF_REFRESH = false
      ∧ mget 0 u.hbm.lastReq k = s.now ∧ ∀ off, off ≠ Reg.HBM_STAT k → u.rd off = s.rd off))
  ∧ (∀ (s : State) (line err : Nat), s.inReset = false → line < 805306368 →
    s.flag (Reg.HBM_STAT (hbmStack (64 * line))) F.HBM_STAT.TRAINED = true →
    completes (.hbmPatrol line err) s (fun u =>
      if isDue (mfind s.hbm.patrolled line) (86400 * second) s.now = false then u = s
      else mfind u.hbm.patrolled line = some s.now
        ∧ if err = 2 then u.fld Reg.HBM_ECC_STAT F.HBM_ECC_STAT.LINE = line ∧ u.flag Reg.HBM_ECC_STAT F.HBM_ECC_STAT.UNCORR = true
            ∧ u.sticky Src.HBM_ECC_UNCORR = true
          else u.rd Reg.HBM_ECC_STAT = s.rd Reg.HBM_ECC_STAT))
  ∧ (∀ (s : State) (reads : List Nat), s.inReset = false → s.flag Reg.HBM_CAP_CFG F.HBM_CAP_CFG.FREEZE = true →
    completes (.captureWrite reads) s (fun u => u = s))
  ∧ (∀ (s : State) (reads : List Nat) (e : CapEntry) (rest : List CapEntry), s.inReset = false →
    s.flag Reg.HBM_CAP_CFG F.HBM_CAP_CFG.FREEZE = false → s.hbm.capStaging = e :: rest →
    completes (.captureWrite reads) s (fun u =>
      let off := s.fld Reg.HBM_CAP_STAT F.HBM_CAP_STAT.WR_OFF
      u.hbm.capStaging = rest
      ∧ (s.captureSize < e.data.length → u.hbm.capRing = s.hbm.capRing ∧ u.regs = s.regs)
      ∧ (off < s.captureSize → off + e.data.length ≤ s.captureSize →
          (∀ i, i < e.data.length → (mget 0 u.hbm.capRing (off + i)).toNat = byteAt e.data i)
          ∧ (∀ a, a < off ∨ off + e.data.length ≤ a → mget 0 u.hbm.capRing a = mget 0 s.hbm.capRing a)
          ∧ u.fld Reg.HBM_CAP_STAT F.HBM_CAP_STAT.WR_OFF
            = (if off + e.data.length = s.captureSize then 0 else off + e.data.length))))
  ∧ (∀ (s : State) (fn a : Nat) (v : Word64) (waits : Nat), s.inReset = false → fn < 2 → s.fnOn fn = true → a % 8 = 0 →
    a < 0x2000000 → s.permits (s.roleOf (.host fn)) 2 ((0x10000000 + a) / 8) 1 = true →
    completes (.scpHostWrite fn a v waits) s (fun u =>
      (s.scpOwns 21 (scpBank a) = false → u.scp = s.scp ∧ u.sticky Src.SCP_OWN_VIOL = true)
      ∧ (s.scpOwns 21 (scpBank a) = true → s.flag (Reg.SCP_OWNER (scpBank a)) F.SCP_OWNER.BUSY = true →
          u.scp = { s.scp with waiting := s.scp.waiting ++ [(a, v.toNat)] } ∧ u.regs = s.regs)
      ∧ (s.scpOwns 21 (scpBank a) = true → s.flag (Reg.SCP_OWNER (scpBank a)) F.SCP_OWNER.BUSY = false →
          u.scpWord a = v.toNat ∧ ∀ x, x < a ∨ a + 8 ≤ x → mget 0 u.scp.mem x = mget 0 s.scp.mem x)))
  ∧ (∀ (s : State) (by_ : Agent) (b : Nat) (v : Word64), b < 256 → s.reaches by_ (Reg.SCP_OWNER b) = true →
    completes (.scpHandoverStart by_ b v) s (fun u =>
      let o := Reg.SCP_OWNER b
      let x := bits v.toNat F.SCP_OWNER.OWNER.hi F.SCP_OWNER.OWNER.lo
      let y := bits v.toNat F.SCP_OWNER.OWNER_B.hi F.SCP_OWNER.OWNER_B.lo
      if s.flag o F.SCP_OWNER.BUSY = false ∧ x ≤ 21 ∧ (240 ≤ b → y ≤ 21) then
        u.flag o F.SCP_OWNER.BUSY = true ∧ u.fld o F.SCP_OWNER.OWNER = x
          ∧ u.fld o F.SCP_OWNER.OWNER_B = (if 240 ≤ b then y else s.fld o F.SCP_OWNER.OWNER_B)
          ∧ mfind u.scp.handing b = some (s.now, bitOf v.toNat 16) ∧ u.scp.mem = s.scp.mem
          ∧ ∀ off, off ≠ o → u.rd off = s.rd off
      else u = s.touch by_))
  ∧ (∀ (s : State) (b : Nat) (t : Stamp) (clear : Bool), s.inReset = false → b < 256 → mfind s.scp.handing b = some (t, clear) →
    completes (.scpHandoverDone b) s (fun u => if clear = true ∧ s.now < t + 1280 * 65536 then u = s
      else u.flag (Reg.SCP_OWNER b) F.SCP_OWNER.BUSY = false ∧ mfind u.scp.handing b = none
      ∧ u.sticky Src.SCP_HANDOVER = true ∧ u.scp.waiting = s.scp.waiting.filter (fun x => scpBank x.1 != b)
      ∧ ((∀ x ∈ s.scp.waiting, scpBank x.1 ≠ b) → ∀ a, mget 0 u.scp.mem a = (if clear = true ∧ scpBank a = b then 0 else mget 0 s.scp.mem a))))
  ∧ (∀ (s : State) (fails taken retest : List Nat), s.inReset = false →
    completes (.marchTest fails taken retest) s (fun u =>
      let tests := isDue s.scp.marchAt microsecond s.now = true ∧ s.flag Reg.SCP_MARCH_CFG F.SCP_MARCH_CFG.EN = true
      (¬ tests → u = s)
      ∧ (tests → u.scp.region = (s.scp.region + 1) % 2048 ∧ u.scp.mem = s.scp.mem ∧ u.scp.marchAt = some s.now
          ∧ (∀ b ∈ taken, b < 256 → 2048 * b + s.scp.region ∈ u.scp.again)
          ∧ ∀ i ∈ fails, i / 2048 < 256 → i % 2048 = s.scp.region → i / 2048 ∉ taken →
            s.flag (Reg.SCP_OWNER (i / 2048)) F.SCP_OWNER.BUSY = false → s.fld (Reg.SCP_OWNER (i / 2048)) F.SCP_OWNER.OWNER ≠ 0 →
            u.flag (Reg.SCP_OWNER (i / 2048)) F.SCP_OWNER.BAD = true ∧ i ∈ u.scp.bad ∧ u.sticky Src.SCP_MARCH_FAIL = true)))

/-! ## Rule versions -/

/-- What the operations of VER_CTL do (R169, R174, R175, R177 to R179, Tables VER-1 and VER-2): OPEN begins a group with the
next version, ARM fixes its time, its blocks and its digest or says why not, the two aborts leave no entry of the version,
and any other operation changes no group. Where the rules leave a choice it is the model's own (log entry 21).
It states that VER_OPEN, VER_ARM, VER_ABORT_ALL, VER_ABORT_OPEN and VER_CTL_INVALID complete, that is that `exec` answers the
next state described, under conditions on the state and the operands alone. -/
def Obligations.VersionControl : Prop :=
  (∀ (s : State) (by_ : Agent), s.reaches by_ Reg.VER_CTL = true →
    completes (.verOpen by_) s (fun u =>
      let v := nextVer (if s.armedV = 0 then s.currentV else s.armedV)
      if s.openV = 0 ∧ s.verDist v ≤ 32767 then
        u.openV = v ∧ u.armedV = s.armedV ∧ u.currentV = s.currentV ∧ u.oldestV = s.oldestV ∧ u.ver.openCmds = []
          ∧ u.fld Reg.VER_STATUS F.VER_STATUS.LAST_STATUS = 1
      else u.rd Reg.VER_STATE = s.rd Reg.VER_STATE ∧ u.ver = s.ver
        ∧ u.fld Reg.VER_STATUS F.VER_STATUS.LAST_STATUS = if s.openV = 0 then 6 else 7))
  ∧ (∀ (s : State) (by_ : Agent), s.reaches by_ Reg.VER_CTL = true →
    completes (.verArm by_) s (fun u =>
      let t := s.commitTime.getD 0
      let mask := s.fld Reg.VER_GROUP_BLOCKS F.VER_GROUP_BLOCKS.MASK
      (∀ st, s.armRefusal = some st → u.rd Reg.VER_STATE = s.rd Reg.VER_STATE ∧ u.ver = s.ver
        ∧ u.fld Reg.VER_STATUS F.VER_STATUS.LAST_STATUS = st)
      ∧ (s.armRefusal = none → u.armedV = s.openV ∧ u.openV = 0 ∧ u.currentV = s.currentV ∧ u.ver.armedT = t
          ∧ u.ver.armedMask = mask ∧ u.ver.armedCmds = s.ver.openCmds ∧ u.ver.agreed = false
          ∧ (∀ i, i < 4 → u.rd (Reg.VER_DIGEST i) = leAt (s.groupDigest s.openV t mask s.ver.openCmds) (8 * i) 8)
          ∧ u.fld Reg.VER_STATUS F.VER_STATUS.LAST_STATUS = 1)))
  ∧ (∀ (s : State) (by_ : Agent), s.reaches by_ Reg.VER_CTL = true →
    completes (.verAbortAll by_) s (fun u =>
      if s.armedV = 0 then u.rd Reg.VER_STATE = s.rd Reg.VER_STATE ∧ u.tab = s.tab
        ∧ u.fld Reg.VER_STATUS F.VER_STATUS.LAST_STATUS = 7
      else u.armedV = 0 ∧ u.openV = 0 ∧ u.currentV = s.currentV ∧ u.fld Reg.VER_STATUS F.VER_STATUS.LAST_STATUS = 1
        ∧ (∀ l e, mfind u.tab.em l = some e → e.valid = true → e.immediate = false → e.vfrom ≠ s.armedV ∧ e.vuntil ≠ s.armedV)
        ∧ (∀ l e, mfind u.tab.tc l = some e → e.valid = true → e.immediate = false → e.vfrom ≠ s.armedV ∧ e.vuntil ≠ s.armedV)))
  ∧ (∀ (s : State) (by_ : Agent), s.reaches by_ Reg.VER_CTL = true →
    completes (.verAbortOpen by_) s (fun u =>
      if s.openV = 0 then u.rd Reg.VER_STATE = s.rd Reg.VER_STATE ∧ u.tab = s.tab
        ∧ u.fld Reg.VER_STATUS F.VER_STATUS.LAST_STATUS = 7
      else u.openV = 0 ∧ u.armedV = s.armedV ∧ u.currentV = s.currentV ∧ u.fld Reg.VER_STATUS F.VER_STATUS.LAST_STATUS = 1
        ∧ (∀ l e, mfind u.tab.em l = some e → e.valid = true → e.immediate = false → e.vfrom ≠ s.openV ∧ e.vuntil ≠ s.openV)))
  ∧ (∀ (s : State) (by_ : Agent), s.reaches by_ Reg.VER_CTL = true →
    completes (.verCtlInvalid by_) s (fun u => u.fld Reg.VER_STATUS F.VER_STATUS.LAST_STATUS = 7 ∧ u.ver = s.ver ∧ u.tab = s.tab
      ∧ ∀ off, off ≠ Reg.VER_STATUS → u.rd off = s.rd off))

/-- What a commit and a retirement do (R180 to R182, R189, R190, Table VER-3): at T the armed version is CURRENT from T on,
or is open again with the status that refused it; a member's agreement is that of those it reaches; a retired version bounds
no entry any more. Where the rules leave a choice it is the model's own (log entry 21).
It states that VER_AGREEMENT_CHECK, VER_COMMIT_INSTANT, VER_SWEEP_START and VER_RETIRE complete, that is that `exec` answers
the next state described, under conditions on the state and the operands alone. -/
def Obligations.VersionCommit : Prop :=
  (∀ (s : State), s.inReset = false →
    completes .verAgreementCheck s (fun u =>
      if s.isMember = true ∧ s.armedV ≠ 0 ∧ s.ver.armedT ≤ s.now + s.leadTime / 2 then
        u.regs = s.regs ∧ (u.ver.agreed = true ↔ bitOf s.ownFlags 1 = true
          ∧ ∀ i ∈ s.reachSet, bitOf (s.entryOf i).1 0 = true → bitOf (s.entryOf i).1 1 = true)
      else u = s))
  ∧ (∀ (s : State), s.inReset = false →
    completes .verCommitInstant s (fun u =>
      (s.armedV = 0 ∨ s.now < s.ver.armedT → u = s)
      ∧ (s.armedV ≠ 0 → s.ver.armedT ≤ s.now → s.commitRefusal = none →
          u.currentV = s.armedV ∧ u.armedV = 0 ∧ u.openV = s.openV ∧ u.rd Reg.VER_CURRENT_TIME = d96 s.ver.armedT % 2 ^ 64
          ∧ u.fld Reg.VER_STATUS F.VER_STATUS.LAST_STATUS = 1 ∧ u.ver.armedCmds = [] ∧ u.sticky Src.VER_COMMIT = true)
      ∧ (∀ st, s.armedV ≠ 0 → s.ver.armedT ≤ s.now → s.commitRefusal = some st →
          u.currentV = s.currentV ∧ u.armedV = 0 ∧ u.openV = s.armedV ∧ u.ver.openCmds = s.ver.armedCmds
          ∧ u.fld Reg.VER_STATUS F.VER_STATUS.LAST_STATUS = st ∧ u.sticky Src.VER_REFUSED = true)))
  ∧ (∀ (s : State) (reported : Bool), s.inReset = false →
    completes (.verSweepStart reported) s (fun u =>
      if s.retirable = true ∧ (reported = true ∨ s.isMember = false) then u = { s with ver := { s.ver with sweeping := true } }
      else u = s))
  ∧ (∀ (s : State), s.inReset = false →
    completes .verRetire s (fun u =>
      if s.ver.sweeping = true ∧ s.retirable = true ∧ s.tab.move = none then
        u.oldestV = nextVer s.oldestV ∧ u.currentV = s.currentV ∧ u.ver.sweeping = false ∧ u.sticky Src.VER_RETIRED = true
          ∧ (∀ l e, mfind u.tab.em l = some e → e.valid = true → e.immediate = false →
              e.vfrom ≠ s.oldestV ∧ e.vuntil ≠ nextVer s.oldestV)
          ∧ (∀ l e, mfind u.tab.tc l = some e → e.valid = true → e.immediate = false →
              e.vfrom ≠ s.oldestV ∧ e.vuntil ≠ nextVer s.oldestV)
      else u = s))

/-! ## The security module -/

/-- What the module's readiness, self-tests, timers and attestation do (R343, R345, R346, R348, R357, R358, R364): a report is
complete once the module serves it. Where the rules
leave a choice it is the model's own (log entry 28).
It states that SEC_READY, ENV_FAILURE, PERIODIC_SELFTEST, SELFTEST_DONE, SELFTEST_RETRY, NONCE_EXPIRY, LOCKOUT_EXPIRY,
SESSION_IDLE_TIMEOUT, ATTEST_GO and ATTEST_REPORT_DONE complete, that is that `exec` answers the next state described, under
conditions on the state and the operands alone. -/
def Obligations.SecurityModule : Prop :=
  (∀ (s : State) (calOk : Bool), s.inReset = false →
    completes (.secReady calOk) s (fun u =>
      if s.secReady = false ∧ s.sec.testing = true ∧ s.flag Reg.SEC_STATUS F.SEC_STATUS.SELFTEST = false then
        u.secReady = true ∧ u.ready 0 = true ∧ u.sec.testing = false ∧ u.sec.owner = s.sec.owner
          ∧ u.flag Reg.SEC_STATUS F.SEC_STATUS.CAL_OK = calOk ∧ u.flag Reg.SEC_STATUS F.SEC_STATUS.ERROR = false
          ∧ u.sticky Src.SEC_READY_CHANGE = true
      else u = s))
  ∧ (∀ (s : State), s.inReset = false →
    completes .envFailure s (fun u => u.secReady = false ∧ u.session = false ∧ u.sec.nonce = none ∧ u.sec.ownerKey = []
      ∧ u.flag Reg.SEC_STATUS F.SEC_STATUS.ERROR = true ∧ u.fld Reg.SEC_STATUS F.SEC_STATUS.FAILED_TEST = 0xFE
      ∧ u.sticky Src.SEC_SELFTEST_FAIL = true ∧ u.sec.owner = s.sec.owner))
  ∧ (∀ (s : State), s.inReset = false →
    completes .periodicSelftest s (fun u =>
      if s.secReady = true ∧ s.periodicHours ≠ 0 ∧ s.sec.lastSelfTest + s.periodicHours * 3600 * second ≤ s.now then
        u.sec.testing = true ∧ u.sec.lastSelfTest = s.now ∧ u.secReady = false
          ∧ u.flag Reg.SEC_STATUS F.SEC_STATUS.SELFTEST = true ∧ u.sticky Src.SEC_READY_CHANGE = true
      else u = s))
  ∧ (∀ (s : State) (failed : Option Nat), s.inReset = false →
    completes (.selftestDone failed) s (fun u =>
      (s.sec.testing = false → u = s)
      ∧ (s.sec.testing = true → failed = none → u.secReady = true ∧ u.flag Reg.SEC_STATUS F.SEC_STATUS.ERROR = false
          ∧ u.sec.testing = false)
      ∧ (∀ id, s.sec.testing = true → failed = some id → u.secReady = false ∧ u.flag Reg.SEC_STATUS F.SEC_STATUS.ERROR = true
          ∧ u.fld Reg.SEC_STATUS F.SEC_STATUS.FAILED_TEST = id % 256 ∧ u.sec.failedAt = some s.now
          ∧ u.sticky Src.SEC_SELFTEST_FAIL = true)))
  ∧ (∀ (s : State) (t : Stamp), s.inReset = false → s.sec.failedAt = some t →
    completes .selftestRetry s (fun u =>
      if s.sec.retried = false ∧ t + second ≤ s.now then
        u = { s with sec := { s.sec with testing := true, retried := true, failedAt := none } }
      else u = s))
  ∧ (∀ (s : State) (t : Stamp), s.inReset = false → s.sec.nonce = some t →
    completes .nonceExpiry s (fun u =>
      if t + 10 * second ≤ s.now then u = { s with sec := { s.sec with nonce := none } } else u = s))
  ∧ (∀ (s : State) (t : Stamp), s.inReset = false → s.sec.lockedUntil = some t →
    completes .lockoutExpiry s (fun u =>
      if t ≤ s.now then u = { s with sec := { s.sec with lockedUntil := none } } else u = s))
  ∧ (∀ (s : State), s.inReset = false →
    completes .sessionIdleTimeout s (fun u =>
      if s.session = true ∧ s.sec.lastPf0 + max 60 (s.fld Reg.SEC_CFG F.SEC_CFG.SESSION_IDLE_S) * second ≤ s.now then
        u.session = false ∧ u.sticky Src.SEC_SESSION = true ∧ u.sec = s.sec
      else u = s))
  ∧ (∀ (s : State) (by_ : Agent), s.reaches by_ Reg.SEC_ATTEST_CTL = true →
    completes (.attestGo by_) s (fun u =>
      let status := s.fld Reg.SEC_ATTEST_CTL F.SEC_ATTEST_CTL.STATUS
      let lacks := s.flag Reg.SEC_CFG F.SEC_CFG.ATTEST_LDEV = true ∧ s.flag Reg.SEC_STATUS F.SEC_STATUS.LDEV = false
      (status = 1 → u = s.touch by_)
      ∧ (status ≠ 1 → s.secReady = false → u.fld Reg.SEC_ATTEST_CTL F.SEC_ATTEST_CTL.STATUS = 3)
      ∧ (status ≠ 1 → s.secReady = true → lacks → u.fld Reg.SEC_ATTEST_CTL F.SEC_ATTEST_CTL.STATUS = 5)
      ∧ (status ≠ 1 → s.secReady = true → ¬ lacks → u.fld Reg.SEC_ATTEST_CTL F.SEC_ATTEST_CTL.STATUS = 1
          ∧ u.sec.attestDue = s.attestBody)))
  ∧ (∀ (s : State), s.inReset = false → s.secServing = some 5 → s.sec.attestDue.length = 832 →
    completes .attestReportDone s (fun u => u.fld Reg.SEC_ATTEST_CTL F.SEC_ATTEST_CTL.STATUS = 2
      ∧ u.sticky Src.SEC_ATTEST_DONE = true ∧ u.sec.attestDue = []
      ∧ ∀ i, i < 104 → u.rd (Reg.SEC_ATTEST_REPORT i) = leAt s.sec.attestDue (8 * i) 8))

/-- What the operations of SEC_OP do (R347, R348, R352 to R358, R362, R363, Table SEC-4): each is done, or runs until the
module is ready, or is refused with its status; only the Warden, or PF0 where the rule says so, has an effect; one that runs completes when the module serves it. Where the
rules leave a choice it is the model's own (log entry 28).
It states that NONCE, SEC_OPEN, SEC_CLOSE, OWNER_INSTALL, OWNER_RELEASE, ZEROISE, PROT_COMMIT, LDEV_GEN, LDEV_INSTALL,
SELFTEST, SEC_OP_BAD_OP and SEC_OP_COMPLETE complete, that is that `exec` answers the next state described, under conditions
on the state and the operands alone. -/
def Obligations.SecurityOperations : Prop :=
  (∀ (s : State) (by_ : Agent) (arg : Nat), s.reaches by_ Reg.SEC_OP = true → s.flag Reg.SEC_OP F.SEC_OP.BUSY = true →
    completes (.nonce by_ arg) s (fun u => u = s.touch by_) ∧ completes (.secOpen by_ arg) s (fun u => u = s.touch by_)
      ∧ completes (.secClose by_ arg) s (fun u => u = s.touch by_) ∧ completes (.ownerInstall by_ arg) s (fun u => u = s.touch by_)
      ∧ completes (.ownerRelease by_ arg) s (fun u => u = s.touch by_) ∧ completes (.zeroise by_ arg) s (fun u => u = s.touch by_)
      ∧ completes (.protCommit by_ arg) s (fun u => u = s.touch by_))
  ∧ (∀ (s : State) (by_ : Agent) (arg : Nat), s.reaches by_ Reg.SEC_OP = true → s.flag Reg.SEC_OP F.SEC_OP.BUSY = false →
    completes (.nonce by_ arg) s (fun u =>
      (by_ ≠ .host 0 → opShows u 1 4 ∧ u.sec = s.sec)
      ∧ (by_ = .host 0 → s.secReady = false → opShows u 1 3 ∧ u.sec.nonce = s.sec.nonce)
      ∧ (by_ = .host 0 → s.secReady = true → opShows u 1 2 ∧ u.sec.nonce = some s.now)))
  ∧ (∀ (s : State) (by_ : Agent) (arg : Nat), s.reaches by_ Reg.SEC_OP = true → s.flag Reg.SEC_OP F.SEC_OP.BUSY = false →
    completes (.secOpen by_ arg) s (fun u =>
      u.session = s.session
      ∧ (by_ ≠ .host 0 → opShows u 2 4)
      ∧ (by_ = .host 0 → s.secReady = false → opShows u 2 3)
      ∧ (∀ t, by_ = .host 0 → s.secReady = true → s.sec.lockedUntil = some t → s.now < t →
          opShows u 2 7 ∧ u.sec.nonce = none ∧ u.sticky Src.SEC_AUTH_FAIL = true)
      ∧ (by_ = .host 0 → s.secReady = true → s.sec.lockedUntil = none → s.sec.owner = [] ∨ s.session = true →
          opShows u 2 9 ∧ u.sec.nonce = none ∧ u.sticky Src.SEC_AUTH_FAIL = true)
      ∧ (by_ = .host 0 → s.secReady = true → s.sec.lockedUntil = none → s.sec.owner ≠ [] → s.session = false → s.nonceLive = false →
          opShows u 2 6 ∧ u.sec.nonce = none)
      ∧ (by_ = .host 0 → s.secReady = true → s.sec.lockedUntil = none → s.sec.owner ≠ [] → s.session = false → s.nonceLive = true →
          opShows u 2 1)))
  ∧ (∀ (s : State) (by_ : Agent) (arg : Nat), s.reaches by_ Reg.SEC_OP = true → s.flag Reg.SEC_OP F.SEC_OP.BUSY = false →
    completes (.secClose by_ arg) s (fun u =>
      if s.roleOf by_ = 1 then opShows u 3 2 ∧ u.session = false else opShows u 3 4 ∧ u.session = s.session))
  ∧ (∀ (s : State) (by_ : Agent) (arg : Nat), s.reaches by_ Reg.SEC_OP = true → s.flag Reg.SEC_OP F.SEC_OP.BUSY = false →
    completes (.ownerInstall by_ arg) s (fun u => u.sec.owner = s.sec.owner
      ∧ opShows u 4 (if (s.sec.owner = [] ∧ by_ = .host 0) ∨ (s.sec.owner ≠ [] ∧ s.roleOf by_ = 1) then 1 else 4)))
  ∧ (∀ (s : State) (by_ : Agent) (arg : Nat), s.reaches by_ Reg.SEC_OP = true → s.flag Reg.SEC_OP F.SEC_OP.BUSY = false →
    completes (.ownerRelease by_ arg) s (fun u =>
      (s.roleOf by_ ≠ 1 → opShows u 5 4 ∧ u.sec.owner = s.sec.owner)
      ∧ (s.roleOf by_ = 1 → s.secReady = false → opShows u 5 1 ∧ u.sec.owner = s.sec.owner)
      ∧ (s.roleOf by_ = 1 → s.secReady = true → s.sec.owner = [] → opShows u 5 9)
      ∧ (s.roleOf by_ = 1 → s.secReady = true → s.sec.owner ≠ [] → s.sec.stepsLeft = 0 → opShows u 5 10 ∧ u.sec.owner = s.sec.owner)
      ∧ (s.roleOf by_ = 1 → s.secReady = true → s.sec.owner ≠ [] → s.sec.stepsLeft ≠ 0 → opShows u 5 2 ∧ u.sec.owner = []
          ∧ u.sec.ldev = [] ∧ u.sec.stepsLeft = s.sec.stepsLeft - 1 ∧ u.session = false ∧ u.sticky Src.SEC_OWNER_CHANGE = true)))
  ∧ (∀ (s : State) (by_ : Agent) (arg : Nat), s.reaches by_ Reg.SEC_OP = true → s.flag Reg.SEC_OP F.SEC_OP.BUSY = false →
    completes (.ldevGen by_ arg) s (fun u => opShows u 6 (if s.roleOf by_ = 1 then 1 else 4) ∧ u.sec.ldev = s.sec.ldev))
  ∧ (∀ (s : State) (by_ : Agent) (arg : Nat) (certOk : Bool), s.reaches by_ Reg.SEC_OP = true →
    s.flag Reg.SEC_OP F.SEC_OP.BUSY = false →
    completes (.ldevInstall by_ arg certOk) s (fun u =>
      (s.roleOf by_ ≠ 1 → opShows u 7 4 ∧ u.sec.ldev = s.sec.ldev)
      ∧ (s.roleOf by_ = 1 → s.secReady = true → certOk = false ∨ arg % 4096 = 0 → opShows u 7 8 ∧ u.sec.ldev = s.sec.ldev)
      ∧ (s.roleOf by_ = 1 → s.secReady = true → certOk = true → arg % 4096 ≠ 0 → opShows u 7 2
          ∧ u.sec.ldev.length = arg % 4096 ∧ u.flag Reg.SEC_STATUS F.SEC_STATUS.LDEV = true)))
  ∧ (∀ (s : State) (by_ : Agent) (arg : Nat), s.reaches by_ Reg.SEC_OP = true → s.flag Reg.SEC_OP F.SEC_OP.BUSY = false →
    completes (.selftest by_ arg) s (fun u =>
      (s.roleOf by_ ≠ 1 → opShows u 8 4 ∧ u.secReady = s.secReady)
      ∧ (s.roleOf by_ = 1 → s.secReady = false → opShows u 8 1)
      ∧ (s.roleOf by_ = 1 → s.secReady = true → opShows u 8 2 ∧ u.sec.testing = true ∧ u.secReady = false)))
  ∧ (∀ (s : State) (by_ : Agent) (arg : Nat), s.reaches by_ Reg.SEC_OP = true → s.flag Reg.SEC_OP F.SEC_OP.BUSY = false →
    completes (.zeroise by_ arg) s (fun u =>
      (s.roleOf by_ ≠ 1 → opShows u 9 4 ∧ u.sec.owner = s.sec.owner)
      ∧ (s.roleOf by_ = 1 → s.secReady = true → s.sec.owner ≠ [] → s.sec.stepsLeft ≠ 0 → opShows u 9 2 ∧ u.sec.owner = []
          ∧ u.sec.ldev = [] ∧ u.session = false)))
  ∧ (∀ (s : State) (by_ : Agent) (arg : Nat), s.reaches by_ Reg.SEC_OP = true → s.flag Reg.SEC_OP F.SEC_OP.BUSY = false →
    completes (.protCommit by_ arg) s (fun u =>
      let first := bits arg 7 0
      let n := bits arg 16 8
      let bad := n = 0 ∨ 256 < first + n ∨ ∃ e, first ≤ e ∧ e < first + n
        ∧ protEntryOk (s.rd (Reg.SEC_PROT_STAGE e 0)) (s.rd (Reg.SEC_PROT_STAGE e 1)) = false
      (s.roleOf by_ ≠ 1 → opShows u 10 4)
      ∧ (s.roleOf by_ = 1 → bad → opShows u 10 11)
      ∧ (s.roleOf by_ ≠ 1 ∨ bad → ∀ e w, e < 256 → w < 2 → u.rd (Reg.SEC_PROT_ACTIVE e w) = s.rd (Reg.SEC_PROT_ACTIVE e w))
      ∧ (s.roleOf by_ = 1 → ¬ bad → opShows u 10 2 ∧ u.sticky Src.SEC_PROT_CHANGE = true
          ∧ ∀ e w, e < 256 → w < 2 → u.rd (Reg.SEC_PROT_ACTIVE e w)
            = (if first ≤ e ∧ e < first + n then s.rd (Reg.SEC_PROT_STAGE e w) else s.rd (Reg.SEC_PROT_ACTIVE e w)))))
  ∧ (∀ (s : State) (by_ : Agent) (op arg : Nat), s.reaches by_ Reg.SEC_OP = true →
    completes (.secOpBadOp by_ op arg) s (fun u =>
      (s.flag Reg.SEC_OP F.SEC_OP.BUSY = true → u = s.touch by_)
      ∧ (s.flag Reg.SEC_OP F.SEC_OP.BUSY = false → opShows u (op % 256) 12 ∧ ∀ off, off ≠ Reg.SEC_OP → u.rd off = s.rd off)))
  ∧ (∀ (s : State) (ok : Bool) (cert : Option Bytes), s.inReset = false →
    completes (.secOpComplete ok cert) s (fun u =>
      let op := s.fld Reg.SEC_OP F.SEC_OP.LAST_OP
      (s.secServing ≠ some 4 → u = s)
      ∧ (s.secServing = some 4 → u.flag Reg.SEC_OP F.SEC_OP.BUSY = false
          ∧ (op = 2 → u.sec.nonce = none ∧ u.session = (ok || s.session) ∧ opShows u 2 (if ok then 2 else 5))
          ∧ (∀ key, op = 4 → s.sec.der ≠ [] → cert = some key → s.nonceLive = true → ok = true → s.sec.stepsLeft ≠ 0 →
              opShows u 4 2 ∧ u.sec.owner = s.sec.der ∧ u.sec.ownerSeq = s.sec.ownerSeq + 1 ∧ u.sec.ldev = []
                ∧ u.sec.stepsLeft = s.sec.stepsLeft - 1 ∧ u.session = false)
          ∧ (op = 4 → cert = none ∨ s.nonceLive = false ∨ ok = false → u.sec.owner = s.sec.owner)
          ∧ (op = 6 → opShows u 6 2 ∧ u.sec.ldev = s.sec.ldev))))

/-! ## Faults, ferry mode and ageing -/

/-- What keeper cores' commands, the collector's timers, the lantern and the test access port do (R383, R445, R446, R448 to
R451, R464, R478, R494). Where the rules leave a choice it is the model's own (log entries 36 and 39).
It states that KEEPER_CMD_WRITE, KPR_WATCHDOG, CHIP_REACTION, FAULT_QUIET_EXPIRY, STICKY_CLEAR, PAIR_BREAK, LANTERN_MISMATCH,
LANTERN_TEST, LANTERN_TEST_END, FLT_INJECT, FACTORY_TEST_ENTRY and JTAG_INSTRUCTION complete, that is that `exec` answers the
next state described, under conditions on the state and the operands alone. -/
def Obligations.FaultCommands : Prop :=
  (∀ (s : State) (by_ : Agent) (k : Nat) (v : Word64) (poison : Bool), k < 4 → s.reaches by_ (Reg.KPR_CMD_DATA k) = true →
    completes (.keeperCmdWrite by_ k v poison) s (fun u =>
      let fifo := (mget {} s.kpr k).fifo
      if fifo.length < 256 then
        (mget {} u.kpr k).fifo = fifo ++ [(v, poison)]
          ∧ u.fld (Reg.KPR_CMD_STAT k) F.KPR_CMD_STAT.LEVEL = fifo.length + 1
          ∧ ∀ off, off ≠ Reg.KPR_CMD_STAT k → u.rd off = s.rd off
      else (mget {} u.kpr k).fifo = fifo ∧ u.flag (Reg.KPR_CMD_STAT k) F.KPR_CMD_STAT.OVERRUN = true
        ∧ u.sticky Src.KPR_CMD_OVERRUN = true))
  ∧ (∀ (s : State) (k : Nat), s.inReset = false → k < 4 →
    completes (.kprWatchdog k) s (fun u =>
      if s.flag (Reg.KPR_STATUS k) F.KPR_STATUS.RUNNING = true
          ∧ (mget {} s.kpr k).lastAlive + max 1 (s.fld Reg.KPR_WDOG_CFG F.KPR_WDOG_CFG.TIMEOUT_MS) * millisecond ≤ s.now then
        u.flag (Reg.KPR_STATUS k) F.KPR_STATUS.WDOG_FIRED = true ∧ u.sticky Src.KPR_WATCHDOG = true
          ∧ (mget {} u.kpr k).lastAlive = s.now ∧ (mget {} u.kpr k).fifo = (mget {} s.kpr k).fifo
      else u = s))
  ∧ (∀ (s : State), s.inReset = false →
    completes .chipReaction s (fun u =>
      (s.flt.chipDue = none → u = s)
      ∧ (∀ n t, s.flt.chipDue = some (n, t) → s.now < t + 20 * microsecond → u = s)
      ∧ (∀ n t, s.flt.chipDue = some (n, t) → t + 20 * microsecond ≤ s.now →
          u.time = 0 ∧ u.pkts = [] ∧ u.flt = {} ∧ u.boot.running = true ∧ u.boot.loading = true
          ∧ u.flag Reg.FLT_LAST_CHIP F.FLT_LAST_CHIP.VALID = true ∧ u.fld Reg.FLT_LAST_CHIP F.FLT_LAST_CHIP.SOURCE = n % 4096
          ∧ u.flag Reg.CFG_RESET_CAUSE F.CFG_RESET_CAUSE.FAULT = true ∧ u.sec.owner = s.sec.owner)))
  ∧ (∀ (s : State) (n : Nat), s.inReset = false → n < 1536 →
    completes (.faultQuietExpiry n) s (fun u =>
      let f := mget {} s.flt.faults n
      if s.inFault n = true ∧ f.broken = false
          ∧ f.last + s.fld (Reg.FLT_SRC_CFG n) F.FLT_SRC_CFG.QUIET_MS * millisecond ≤ s.now then
        u.inFault n = false ∧ (∀ m, m < 1536 → m ≠ n → u.inFault m = s.inFault m) ∧ (∀ m, m < 1536 → u.sticky m = s.sticky m)
          ∧ u.flt.due = s.flt.due ∧ u.hif = s.hif
      else u = s))
  ∧ (∀ (s : State) (by_ : Agent) (j : Nat) (v : Word64), j < 24 → s.reaches by_ (Reg.FLT_STICKY j) = true →
    completes (.stickyClear by_ j v) s (fun u =>
      let own := Src.PMC_SAMPLE
      let again := own / 64 = j ∧ bitOf v.toNat (own % 64) = true ∧ s.sticky own = true ∧ s.samplesHeld ≠ 0
      (again → u.sticky own = true)
      ∧ (¬ again → ∀ i, i < 64 → u.sticky (64 * j + i) = (s.sticky (64 * j + i) && !(bitOf v.toNat i)))
      ∧ (¬ again → ∀ off, off ≠ Reg.FLT_STICKY j → u.rd off = s.rd off)
      ∧ ∀ i c, ¬ again → i < 64 → bitOf v.toNat i = true → s.sticky (64 * j + i) = true → mfind s.hif.conds (64 * j + i) = some c →
          c.phase ≠ .active → ∃ d, mfind u.hif.conds (64 * j + i) = some d ∧ d.withdrawn = true))
  ∧ (∀ (s : State) (n : Nat), s.inReset = false → n < 1536 →
    completes (.pairBreak n) s (fun u =>
      if (mget {} s.flt.faults n).broken = true then u = s
      else (mget {} u.flt.faults n).broken = true ∧ u.sticky Src.FLT_PAIR_BREAK = true ∧ u.sticky n = true ∧ u.inFault n = true))
  ∧ (∀ (s : State) (pos neg : Bool), s.inReset = false →
    completes (.lanternMismatch pos neg) s (fun u =>
      if pos = s.lanternFault ∧ neg = !s.lanternFault then u = s
      else u.flag Reg.FLT_STATUS F.FLT_STATUS.LANTERN_MISMATCH = true ∧ u.sticky Src.FLT_LANTERN_MISMATCH = true))
  ∧ (∀ (s : State) (by_ : Agent) (v : Word64), s.reaches by_ Reg.FLT_CTL = true →
    completes (.lanternTest by_ v) s (fun u =>
      if s.acts by_ Reg.FLT_CTL F.FLT_CTL.LANTERN_TEST v.toNat = true then
        u.flt.testUntil = some (s.now + 100 * millisecond) ∧ u.lanternFault = true
      else u.flt.testUntil = s.flt.testUntil))
  ∧ (∀ (s : State) (t : Stamp), s.inReset = false → s.flt.testUntil = some t →
    completes .lanternTestEnd s (fun u =>
      if t ≤ s.now then u = { s with flt := { s.flt with testUntil := none } } else u = s))
  ∧ (∀ (s : State) (by_ : Agent) (v : Word64), s.reaches by_ Reg.FLT_INJECT = true →
    completes (.fltInject by_ v) s (fun u =>
      (s.boot.factoryTest = false → u = s.touch by_)
      ∧ (s.boot.factoryTest = true → bits v.toNat 12 12 = 1 → bits v.toNat 11 0 < 1536 →
          u.sticky (bits v.toNat 11 0) = true ∧ u.inFault (bits v.toNat 11 0) = true)))
  ∧ (∀ (s : State) (enter unlock : Bool), s.inReset = false →
    completes (.factoryTestEntry enter unlock) s (fun u =>
      let may := enter = false ∨ (unlock = true ∧ s.flag Reg.SEC_STATUS F.SEC_STATUS.APPROVED = false)
      (enter ≠ s.boot.factoryTest → may → u.boot.factoryTest = enter ∧ u.flag Reg.FLT_STATUS F.FLT_STATUS.FACTORY_TEST = enter)
      ∧ (¬ (enter ≠ s.boot.factoryTest ∧ may) → u = s)))
  ∧ (∀ (s : State) (i : TapInstr), s.inReset = false →
    completes (.jtagInstruction i) s (fun u => u = { s with boot := { s.boot with tap := u.boot.tap } }
      ∧ (u.boot.tap = i ∨ u.boot.tap = .bypass) ∧ ((∀ n, i ≠ .other n) → u.boot.tap = .bypass)))
  ∧ (∀ (s : State) (i : TapInstr), s.pins.resetN = false →
    exec (.jtagInstruction i) s = .next { s with boot := { s.boot with tap := i } })

/-- What ferry mode's commands do (R452, R454, R455, R457, R458): a request is a DEG assertion; a frame goes to the port of
its map entry or is dropped; quiet ends ferry mode, or holds it where too many exits lie in the hour before; a release ends
it and clears the window. Where the rules leave a choice it is the model's own (log entry 36).
It states that FERRY_ENTER_REQUEST, FERRY_PATH, FERRY_QUIET_EXPIRY and FERRY_RELEASE complete, that is that `exec` answers
the next state described, under conditions on the state and the operands alone. -/
def Obligations.FerryMode : Prop :=
  (∀ (s : State) (by_ : Agent) (v : Word64), s.reaches by_ Reg.FLT_FERRY_CTL = true →
    completes (.ferryEnterRequest by_ v) s (fun u =>
      if s.acts by_ Reg.FLT_FERRY_CTL F.FLT_FERRY_CTL.ENTER v.toNat = true then
        u.sticky Src.FLT_FERRY_REQ = true
          ∧ ((mget {} s.flt.faults Src.FLT_FERRY_REQ).broken = false → Reaction.degrade Src.FLT_FERRY_REQ ∈ u.flt.due)
      else s.acts by_ Reg.FLT_FERRY_CTL F.FLT_FERRY_CTL.RELEASE v.toNat = false → u.flt.ferry = s.flt.ferry))
  ∧ (∀ (s : State) (port lane d : Nat) (phi : Int) (n : Nat) (bytes : Bytes), s.inReset = false → port < 514 → lane < 514 →
    s.portOfLane lane = port →
    completes (.ferryPath port lane d phi n bytes false) s (fun u =>
      let e := mget 0 s.flt.ferry.map port
      let out := bits e 9 0
      (s.inFerry = false → u = s)
      ∧ (s.inFerry = true → s.portExists port = true → s.linkUp port = true → s.portHalted port = false →
          (s.portSt port).stopping = false → s.loopback port = false → s.exportPort port = false → s.towPort port = false →
          64 ≤ bytes.length →
          bytes.length ≤ s.cfgAtFld (Reg.PRT_CFG port) F.PRT_CFG.MTU s.flt.ferry.version (s.rxStamp port lane d phi n) →
          bytes.drop (bytes.length - 4) = fcs (bytes.take (bytes.length - 4)) →
          u.nextPkt = s.nextPkt + 1
          ∧ (bitOf e 16 = false → u.egr = s.egr ∧ u.flt.ferry.dropped = s.flt.ferry.dropped + 1)
          ∧ (bitOf e 16 = true → s.portExists out = true → s.towPort out = false → s.exportPort out = false → s.egressDown out = false →
              ((s.egress out).staging.filter isFerry).length < 16 → s.que.stopped = false →
              parseSlice port < 16 → (s.store (parseSlice port) 3).cache ≠ [] →
              u.flt.ferry = s.flt.ferry
              ∧ ∃ k, k ∈ (u.egress out).staging ∧ k.pkt = s.nextPkt ∧ k.port = out ∧ k.kind = .ferry (bitOf e 17)))))
  ∧ (∀ (s : State), s.inReset = false →
    completes .ferryQuietExpiry s (fun u =>
      let due := s.fld Reg.FLT_STATUS F.FLT_STATUS.FERRY = 1 ∧ s.flt.ferry.lastDeg + s.quietSpan ≤ s.now
        ∧ s.flag Reg.FLT_FERRY_CFG F.FLT_FERRY_CFG.AUTO_EXIT = true
      let room := s.recentExits.length < s.fld Reg.FLT_FERRY_CFG F.FLT_FERRY_CFG.MAX_PER_HOUR
      (¬ due → u = s)
      ∧ (due → room → u.inFerry = false ∧ u.flt.ferry.exits = s.recentExits ++ [s.now] ∧ u.flt.ferry.degSrcs = [])
      ∧ (due → ¬ room → u.fld Reg.FLT_STATUS F.FLT_STATUS.FERRY = 2 ∧ u.sticky Src.FLT_FERRY = true
          ∧ u.flt.ferry = s.flt.ferry)))
  ∧ (∀ (s : State) (by_ : Agent) (v : Word64), s.reaches by_ Reg.FLT_FERRY_CTL = true →
    completes (.ferryRelease by_ v) s (fun u =>
      if s.acts by_ Reg.FLT_FERRY_CTL F.FLT_FERRY_CTL.RELEASE v.toNat = true ∧ s.inFerry = true then
        u.inFerry = false ∧ u.flt.ferry.exits = []
      else u.flt.ferry = s.flt.ferry ∧ u.inFerry = s.inFerry))

/-- What measuring, re-planning and the voltage staircase do (R460 to R463, R484, Tables FLT-7 and FLT-8). Where the rules
leave a choice it is the model's own (log entry 37).
It states that CANDLE_MEASURE, EYE_SCAN, REPLAN, REPLAN_REQUEST, AVS_STEP and TJ_HIGH complete, that is that `exec` answers
the next state described, under conditions on the state and the operands alone. -/
def Obligations.Ageing : Prop :=
  (∀ (s : State) (readings : List (Nat × Nat × Nat × Nat)) (replicas : List Nat), s.inReset = false →
    isDue s.cnd.measAt (min (s.fld Reg.CND_CFG F.CND_CFG.MEAS_S) (s.cfgFld Reg.TIM_CAL_CFG F.TIM_CAL_CFG.PERIOD_S) * second) s.now = true →
    completes (.candleMeasure readings replicas) s (fun u =>
      u.cnd.measAt = some s.now
      ∧ (∀ i cs cu factory temp, i < 96 → readings[i]? = some (cs, cu, factory, temp) →
        let off := (if cu < factory then factory - cu else cu - factory) * 100
        let bad := cu = 0 ∨ 20 * factory < off ∨ wearPpm cs cu < -500
        (bad → u.rd (Reg.CND_CANDLE i) = s.rd (Reg.CND_CANDLE i) ∧ u.sticky Src.CND_MEAS_FAIL = true)
        ∧ (¬ bad → u.fld (Reg.CND_CANDLE i) F.CND_CANDLE.DEG_PPM = ofIntW 32 (wearPpm cs cu)
            ∧ u.fld (Reg.CND_CANDLE i) F.CND_CANDLE.TEMP_C = temp % 256))
      ∧ (∀ o d, o < 64 → replicas[o]? = some d → u.fld (Reg.CND_REPLICA o) F.CND_REPLICA.DELAY = d % 2 ^ 32
          ∧ u.fld (Reg.CND_REPLICA o) F.CND_REPLICA.FACTORY = s.fld (Reg.CND_REPLICA o) F.CND_REPLICA.FACTORY)))
  ∧ (∀ (s : State) (l mui : Nat), s.inReset = false → l < 514 →
    completes (.eyeScan l mui) s (fun u =>
      if s.flag (Reg.PRT_CFG (s.portOfLane l)) F.PRT_CFG.EN = true
          ∧ isDue (mfind s.cnd.eyeAt l) (clamp 60 65535 (s.fld Reg.CND_CFG F.CND_CFG.EYE_S) * second) s.now = true then
        u.fld (Reg.SER_STATUS l) F.SER_STATUS.EYE_H = mui % 65536 ∧ mfind u.cnd.eyeAt l = some s.now
          ∧ (mui < s.fld Reg.CND_EYE_CFG F.CND_EYE_CFG.EYE_MIN_MUI → u.sticky Src.SER_EYE_LOW = true)
      else u = s))
  ∧ (∀ (s : State) (remain remain95 : Nat), s.inReset = false →
    completes (.replan remain remain95) s (fun u =>
      let plan := Reg.CND_PLAN
      if s.ready 5 = true ∧ s.replanDue = true then
        u.fld plan F.CND_PLAN.SEQ = (s.fld plan F.CND_PLAN.SEQ + 1) % 65536
          ∧ u.fld plan F.CND_PLAN.V_TARGET = s.fld plan F.CND_PLAN.V_TARGET
          ∧ u.cnd.avsEnd = max (s.fld plan F.CND_PLAN.V_TARGET) (s.voltageFor s.worstWear.1)
          ∧ u.fld Reg.CND_LIFE F.CND_LIFE.REMAIN_H = (if 7 ≤ s.cnd.daily.length then remain % 2 ^ 32 else 0xFFFFFFFF)
          ∧ u.cnd.asked = false ∧ u.cnd.planAt = s.now ∧ u.sticky Src.CND_REPLAN = true
      else u = s))
  ∧ (∀ (s : State) (by_ : Agent) (v : Word64), s.reaches by_ Reg.CND_CTL = true →
    completes (.replanRequest by_ v) s (fun u =>
      u.cnd = { s.cnd with asked := s.cnd.asked || s.acts by_ Reg.CND_CTL F.CND_CTL.REPLAN v.toNat }))
  ∧ (∀ (s : State) (ack : Bool), s.inReset = false → s.boot.running = true →
    (∀ t, s.cnd.avsAt = some t → t + 10 * millisecond ≤ s.now) →
    s.cnd.avsPoint ≠ s.cnd.avsEnd ∨ s.fld Reg.CND_PLAN F.CND_PLAN.V_TARGET ≠ s.cnd.avsEnd →
    completes (.avsStep ack) s (fun u =>
      let next := if s.cnd.avsPoint < s.cnd.avsEnd then min s.cnd.avsEnd (s.cnd.avsPoint + 25)
        else max s.cnd.avsEnd (s.cnd.avsPoint - 25)
      u.out = s.out ++ [.avs (clamp 700 800 (ceilDiv next 10))] ∧ u.cnd.avsAt = some s.now
        ∧ u.cnd.avsPoint = (if ack then next else s.cnd.avsPoint)
        ∧ (ack = true → next = s.cnd.avsEnd → u.fld Reg.CND_PLAN F.CND_PLAN.V_TARGET = s.cnd.avsEnd % 65536)
        ∧ (ack = false → u.regs = s.regs)))
  ∧ (∀ (s : State) (i temp : Nat), s.inReset = false → i < 96 →
    completes (.tjHigh i temp) s (fun u =>
      (temp ≤ 105 → mfind u.cnd.hot i = none ∧ u.regs = s.regs)
      ∧ (105 < temp → isDue (mfind s.cnd.hot i) second s.now = true → mfind u.cnd.hot i = some s.now ∧ u.sticky Src.CND_TJ_HIGH = true)
      ∧ (105 < temp → isDue (mfind s.cnd.hot i) second s.now = false → u = s)))

/-! ## Counters and snapshots -/

/-- What snapshots and samplers do (R471 to R474, R477, R478): arming checks its time, its state and its channel in turn; at
T every counter is frozen; the snapshot, once the bytes can have passed, goes to the next descriptor or fails with a status; a
sampler that has reached its period asks for one sample, of the packet or of what a barge has posted, which goes to the ring or is
lost. Where the rules leave a choice it is the model's own (log
entry 38).
It states that SNAP_ARM, SNAP_CANCEL, SNAP_INSTANT, SNAP_WRITE, SAMPLER_OVERFLOW, SAMPLE_TAKE and SAMPLER_CFG_WRITE complete,
that is that `exec` answers the next state described, under conditions on the state and the operands alone. -/
def Obligations.SnapshotsAndSamples : Prop :=
  (∀ (s : State) (by_ : Agent) (v : Word64), s.reaches by_ Reg.PMC_SNAP_CTL = true →
    completes (.snapArm by_ v) s (fun u =>
      let time := ofD96 (s.rd Reg.PMC_SNAP_TIME + 2 ^ 64 * s.fld Reg.PMC_SNAP_TIME_HI F.PMC_SNAP_TIME_HI.T_HI)
      let chan := bits v.toNat 57 54
      let chanOk := s.flag (Reg.HIF_DMA_CFG chan) F.HIF_DMA_CFG.EN = true ∧ s.fld (Reg.HIF_DMA_CFG chan) F.HIF_DMA_CFG.USE = 4
      let status := u.fld Reg.PMC_SNAP_STAT F.PMC_SNAP_STAT.LAST_STATUS
      bits v.toNat F.PMC_SNAP_CTL.CANCEL.hi F.PMC_SNAP_CTL.CANCEL.lo = 0 →
      (time = none → status = 8 ∧ u.pmc = s.pmc)
      ∧ (∀ t, time = some t → t < s.now + 10 * microsecond → status = 2 ∧ u.pmc = s.pmc)
      ∧ (∀ t, time = some t → s.now + 10 * microsecond ≤ t → s.pmc.snap ≠ none → status = 3 ∧ u.pmc = s.pmc)
      ∧ (∀ t, time = some t → s.now + 10 * microsecond ≤ t → s.pmc.snap = none → ¬ chanOk → status = 4 ∧ u.pmc = s.pmc)
      ∧ (∀ t, time = some t → s.now + 10 * microsecond ≤ t → s.pmc.snap = none → chanOk →
          u.fld Reg.PMC_SNAP_STAT F.PMC_SNAP_STAT.STATE = 1
          ∧ (∃ p, u.pmc.snap = some p ∧ p.t = t ∧ p.mask = bits v.toNat 23 0 ∧ p.channel = chan ∧ p.frozen = none
              ∧ p.periodMs = min 10000 (bits v.toNat 53 40))
          ∧ (u.pmc.next = none ↔ bits v.toNat 53 40 = 0))))
  ∧ (∀ (s : State) (by_ : Agent) (v : Word64), s.reaches by_ Reg.PMC_SNAP_CTL = true →
    completes (.snapCancel by_ v) s (fun u => u.pmc.next = none
      ∧ (s.pmc.snap = none → u.pmc.snap = none)
      ∧ (∀ p, s.pmc.snap = some p → p.frozen = none → u.pmc.snap = none
          ∧ u.fld Reg.PMC_SNAP_STAT F.PMC_SNAP_STAT.STATE = 0 ∧ u.fld Reg.PMC_SNAP_STAT F.PMC_SNAP_STAT.LAST_STATUS = 7)
      ∧ (∀ p, s.pmc.snap = some p → p.frozen ≠ none → u.pmc.snap = some p)))
  ∧ (∀ (s : State) (p : Snap), s.inReset = false → s.pmc.snap = some p → p.frozen = none →
    completes .snapInstant s (fun u =>
      if p.t ≤ s.now then
        u.fld Reg.PMC_SNAP_STAT F.PMC_SNAP_STAT.STATE = 2 ∧ ((∀ n, s.pmc.next = some n → s.now < n.t) → u.pmc.ctr = s.pmc.ctr)
          ∧ ∃ q copy, u.pmc.snap = some q ∧ q.frozen = some copy ∧ q.t = p.t ∧ q.frozenAt = s.now ∧ q.mask = p.mask
            ∧ (s.pmc.running = [] → s.pmc.spans = [] → copy = s.pmc.ctr)
      else u = s))
  ∧ (∀ (s : State) (addr len dmaError : Nat) (p : Snap), s.inReset = false → s.pmc.snap = some p → p.frozen ≠ none → p.channel < 16 →
    completes (.snapWrite addr len dmaError) s (fun u =>
      let c := p.channel
      let status := u.fld Reg.PMC_SNAP_STAT F.PMC_SNAP_STAT.LAST_STATUS
      let may := s.chanOn c 4 = true ∧ s.descsPosted c ≠ 0 ∧ s.dmaMay c 1 = true ∧ dmaError = 0
      let done := p.frozenAt + min len (snapSize p.mask) * 131072 / 25 ≤ s.now
      let goes := may ∧ done
      let paused := s.flag (Reg.HIF_DMA_STAT c) F.HIF_DMA_STAT.PAUSED = true
      (paused → u = s) ∧ (may → ¬ done → u = s)
      ∧ (¬ paused → ¬ may ∨ done → u.pmc.snap = s.pmc.next)
      ∧ (goes → status = 1 ∧ u.sticky Src.PMC_SNAP_DONE = true ∧ u.out = s.out ++ [.hostWrite (s.chanFn c) addr (s.snapBytes p len)]
          ∧ u.fld Reg.PMC_SNAP_STAT F.PMC_SNAP_STAT.SEQ = s.pmc.seq % 2 ^ 32)
      ∧ (¬ paused → s.chanOn c 4 = false → status = 6 ∧ u.sticky Src.PMC_SNAP_FAIL = true ∧ u.out = s.out)
      ∧ (s.chanOn c 4 = true → s.descsPosted c = 0 → status = 5 ∧ u.sticky Src.PMC_SNAP_FAIL = true ∧ u.out = s.out)))
  ∧ (∀ (s : State) (i : Nat), s.inReset = false → i < 8 →
    completes (.samplerOverflow i) s (fun u =>
      let a := mget {} s.pmc.samplers i
      (a.hit = none → u = s)
      ∧ ∀ v, a.hit = some v → mget {} u.pmc.samplers i = { a with hit := none, want := some v, asked := false }
          ∧ u.pmc.ctr = s.pmc.ctr ∧ u.regs = s.regs))
  ∧ (∀ (s : State) (i : Nat) (id : Option Nat), s.inReset = false → i < 8 →
    completes (.sampleTake i id) s (fun u =>
      let ix := Reg.PMC_SAMPLE_IDX
      let tail := s.fld ix F.PMC_SAMPLE_IDX.TAIL
      let room := (tail + 65536 - s.fld ix F.PMC_SAMPLE_IDX.HEAD) % 65536 < 1024
      let n := s.fld (Reg.PMC_SAMPLE_CFG i) F.PMC_SAMPLE_CFG.COUNTER
      let want := (mget {} s.pmc.samplers i).want
      let posted := s.pmc.posted.find? (fun x => x.counter == n)
      let waits := want = none ∨ (n / 2 ^ 19 = 5 ∧ posted = none)
      (waits → u = s)
      ∧ (¬ waits → (mget {} u.pmc.samplers i).want = none)
      ∧ (¬ waits → room → u.fld ix F.PMC_SAMPLE_IDX.TAIL = (tail + 1) % 65536 ∧ u.sticky Src.PMC_SAMPLE = true)
      ∧ (∀ x, want ≠ none → n / 2 ^ 19 = 5 → posted = some x → room →
          u.rd (Reg.PMC_SAMPLE_RING (tail % 1024) 2) = x.w0.toNat ∧ u.rd (Reg.PMC_SAMPLE_RING (tail % 1024) 3) = x.w7.toNat)
      ∧ (∀ v p, want = some v → n / 2 ^ 19 ≠ 5 → id.bind (mfind s.pkts) = some p → room →
          u.rd (Reg.PMC_SAMPLE_RING (tail % 1024) 2) = leAt p.manifest 0 8 ∧ u.rd (Reg.PMC_SAMPLE_RING (tail % 1024) 3) = v % 2 ^ 64)
      ∧ (¬ waits → ¬ room → u.rd ix = s.rd ix ∧ u.sticky Src.PMC_SAMPLE_OVF = true)))
  ∧ (∀ (s : State) (by_ : Agent) (i : Nat) (v : Word64), i < 8 → s.reaches by_ (Reg.PMC_SAMPLE_CFG i) = true →
    completes (.samplerCfgWrite by_ i v) s (fun u => mget {} u.pmc.samplers i = {}
      ∧ u.flag (Reg.PMC_SAMPLE_CFG i) F.PMC_SAMPLE_CFG.EN = bitOf v.toNat 63
      ∧ u.fld (Reg.PMC_SAMPLE_CFG i) F.PMC_SAMPLE_CFG.COUNTER = bits v.toNat 55 32
      ∧ u.fld (Reg.PMC_SAMPLE_CFG i) F.PMC_SAMPLE_CFG.PERIOD = bits v.toNat 31 0
      ∧ ∀ off, off ≠ Reg.PMC_SAMPLE_CFG i → u.rd off = s.rd off))

/-! ## Applies -/

/-- What a write of 1 to each block's APPLY register does (R8, R74, R94, R128, R165, R185 to R188, R216, R226, R244, R256, R305, R338,
R437): every shadow of the block comes into force at once, or, where the block's check finds something wrong, none does; a write
that an armed group forbids applies nothing.
It states that TIM_APPLY, PRT_APPLY, PRS_APPLY, XMT_APPLY, TCM_APPLY, FWD_APPLY, MTR_APPLY, QUE_APPLY, SCH_APPLY, LCK_APPLY,
WIT_APPLY, TOW_APPLY and HBM_APPLY complete, that is that `exec` answers the next state described, under conditions on the
state and the operands alone. -/
def Obligations.Applies : Prop :=
  (∀ (s : State) (by_ : Agent) (v : Word64), s.reaches by_ Reg.TIM_APPLY = true →
    completes (.timApply by_ v) s (fun u =>
      if s.acts by_ Reg.TIM_APPLY F.TIM_APPLY.APPLY v.toNat = true then applied s u 2 none else u.stg = s.stg))
  ∧ (∀ (s : State) (by_ : Agent) (v : Word64), s.reaches by_ Reg.PRT_APPLY = true →
    completes (.prtApply by_ v) s (fun u =>
      if s.acts by_ Reg.PRT_APPLY F.PRT_APPLY.APPLY v.toNat = true then applied s u 3 s.prtCheck else u.stg = s.stg))
  ∧ (∀ (s : State) (by_ : Agent) (v : Word64), s.reaches by_ Reg.PRS_APPLY = true →
    completes (.prsApply by_ v) s (fun u =>
      if s.acts by_ Reg.PRS_APPLY F.PRS_APPLY.APPLY v.toNat = true then applied s u 5 none else u.stg = s.stg))
  ∧ (∀ (s : State) (by_ : Agent) (v : Word64), s.reaches by_ Reg.XMT_APPLY = true →
    completes (.xmtApply by_ v) s (fun u =>
      if s.acts by_ Reg.XMT_APPLY F.XMT_APPLY.APPLY v.toNat = true then applied s u 6 s.xmtCheck else u.stg = s.stg))
  ∧ (∀ (s : State) (by_ : Agent) (v : Word64), s.reaches by_ Reg.TCM_APPLY = true →
    completes (.tcmApply by_ v) s (fun u =>
      if s.acts by_ Reg.TCM_APPLY F.TCM_APPLY.APPLY v.toNat = true then applied s u 7 s.tcmCheck else u.stg = s.stg))
  ∧ (∀ (s : State) (by_ : Agent) (v : Word64), s.reaches by_ Reg.FWD_APPLY = true →
    completes (.fwdApply by_ v) s (fun u =>
      if s.acts by_ Reg.FWD_APPLY F.FWD_APPLY.APPLY v.toNat = true then applied s u 8 none else u.stg = s.stg))
  ∧ (∀ (s : State) (by_ : Agent) (v : Word64), s.reaches by_ Reg.MTR_APPLY = true →
    completes (.mtrApply by_ v) s (fun u =>
      if s.acts by_ Reg.MTR_APPLY F.MTR_APPLY.APPLY v.toNat = true then applied s u 10 (if s.fld Reg.MTR_CFG F.MTR_CFG.PRECOLOUR_OFF = 511 then some (Src.MTR_CFG_REJECT, 0) else none) else u.stg = s.stg))
  ∧ (∀ (s : State) (by_ : Agent) (v : Word64), s.reaches by_ Reg.QUE_APPLY = true →
    completes (.queApply by_ v) s (fun u =>
      if s.acts by_ Reg.QUE_APPLY F.QUE_APPLY.APPLY v.toNat = true then applied s u 11 s.queCheck else u.stg = s.stg))
  ∧ (∀ (s : State) (by_ : Agent) (v : Word64), s.reaches by_ Reg.SCH_APPLY = true →
    completes (.schApply by_ v) s (fun u =>
      if s.acts by_ Reg.SCH_APPLY F.SCH_APPLY.APPLY v.toNat = true then applied s u 12 s.schCheck else u.stg = s.stg))
  ∧ (∀ (s : State) (by_ : Agent) (v : Word64), s.reaches by_ Reg.LCK_APPLY = true →
    completes (.lckApply by_ v) s (fun u =>
      if s.acts by_ Reg.LCK_APPLY F.LCK_APPLY.APPLY v.toNat = true then applied s u 13 s.lckCheck else u.stg = s.stg))
  ∧ (∀ (s : State) (by_ : Agent) (v : Word64), s.reaches by_ Reg.WIT_APPLY = true →
    completes (.witApply by_ v) s (fun u =>
      if s.acts by_ Reg.WIT_APPLY F.WIT_APPLY.APPLY v.toNat = true then applied s u 14 none else u.stg = s.stg))
  ∧ (∀ (s : State) (by_ : Agent) (v : Word64), s.reaches by_ Reg.TOW_APPLY = true →
    completes (.towApply by_ v) s (fun u =>
      if s.acts by_ Reg.TOW_APPLY F.TOW_APPLY.APPLY v.toNat = true then applied s u 15 s.towCheck else u.stg = s.stg))
  ∧ (∀ (s : State) (by_ : Agent) (v : Word64), s.reaches by_ Reg.HBM_APPLY = true →
    completes (.hbmApply by_ v) s (fun u =>
      if s.acts by_ Reg.HBM_APPLY F.HBM_APPLY.APPLY v.toNat = true then applied s u 16 s.hbmCheck else u.stg = s.stg))

/-! ## Registers -/

/-- What REGISTER_WRITE does (R8, R9, R10, R178, R188, R499, R505): a write of 4 bytes and a write where no register is assigned change nothing;
bits outside the fields that the write may change keep their value; a plain register takes the value written; a WDN field is the
Warden's, a shadow that an armed group holds stays, and an HLT field of a running block stays.
It states that REGISTER_WRITE completes, that is that `exec` answers the next state described, under conditions on the state
and the operands alone. -/
def Obligations.RegisterWrites : Prop :=
  (∀ (s : State) (by_ : Agent) (off : Nat) (v : Word64), s.inReset = false → s.mayIssue by_ = true →
    completes (.registerWrite by_ off false v) s (fun u => u = s.touch by_)
      ∧ (regAt off = none → completes (.registerWrite by_ off true v) s (fun u => u = s.touch by_)))
  ∧ (∀ (s : State) (by_ : Agent) (v : Word64), s.reaches by_ Reg.PMC_SNAP_TIME = true →
    completes (.registerWrite by_ Reg.PMC_SNAP_TIME true v) s (fun u =>
      if s.fld Reg.PMC_SNAP_STAT F.PMC_SNAP_STAT.STATE = 1 then u = s.touch by_
      else onlyRegs (s.touch by_) u (· = Reg.PMC_SNAP_TIME) ∧ u.rd Reg.PMC_SNAP_TIME = v.toNat))
  ∧ (∀ (s : State) (by_ : Agent) (e w : Nat) (v : Word64), e < 256 → w < 2 → s.reaches by_ (Reg.SEC_PROT_STAGE e w) = true →
    completes (.registerWrite by_ (Reg.SEC_PROT_STAGE e w) true v) s (fun u =>
      (s.isWarden by_ = true → u.rd (Reg.SEC_PROT_STAGE e w) = v.toNat)
      ∧ (s.isWarden by_ = false → u.rd (Reg.SEC_PROT_STAGE e w) = s.rd (Reg.SEC_PROT_STAGE e w))))
  ∧ (∀ (s : State) (by_ : Agent) (c : Nat) (v : Word64), c < 8 → s.reaches by_ (Reg.LCK_SYS_D c) = true →
    completes (.registerWrite by_ (Reg.LCK_SYS_D c) true v) s (fun u => u.stg = s.stg
      ∧ (s.held 13 = true → u.rd (Reg.LCK_SYS_D c) = s.rd (Reg.LCK_SYS_D c)
          ∧ (bits v.toNat F.LCK_SYS_D.D_NS.hi F.LCK_SYS_D.D_NS.lo ≠ s.fld (Reg.LCK_SYS_D c) F.LCK_SYS_D.D_NS →
              u.sticky Src.VER_SHADOW_HELD = true))
      ∧ (s.held 13 = false → u.fld (Reg.LCK_SYS_D c) F.LCK_SYS_D.D_NS = bits v.toNat F.LCK_SYS_D.D_NS.hi F.LCK_SYS_D.D_NS.lo)))
  ∧ (∀ (s : State) (by_ : Agent) (c : Nat) (v : Word64), c < 16 → s.reaches by_ (Reg.HIF_DMA_DESC_BASE c) = true →
    completes (.registerWrite by_ (Reg.HIF_DMA_DESC_BASE c) true v) s (fun u =>
      let size := F.HIF_DMA_DESC_BASE.SIZE_LOG2
      (s.flag (Reg.HIF_DMA_STAT c) F.HIF_DMA_STAT.HALTED = true →
          u.fld (Reg.HIF_DMA_DESC_BASE c) size = bits v.toNat size.hi size.lo)
      ∧ (s.flag (Reg.HIF_DMA_STAT c) F.HIF_DMA_STAT.HALTED = false →
          u.rd (Reg.HIF_DMA_DESC_BASE c) = s.rd (Reg.HIF_DMA_DESC_BASE c)
          ∧ (bits v.toNat size.hi size.lo ≠ s.fld (Reg.HIF_DMA_DESC_BASE c) size → u.sticky Src.CFG_LIVE_WRITE = true))))
  ∧ (∀ (s : State) (by_ : Agent) (off : Nat) (v : Word64), s.reaches by_ off = true →
    s.regWrite by_ off v = s.writeThen by_ off v.toNat id → (∀ f ∈ fieldsOf off, s.forbids by_ off f = 0) →
    completes (.registerWrite by_ off true v) s (fun u => onlyRegs (s.touch by_) u (· = off)
      ∧ (∀ f ∈ fieldsOf off, f.acc ≠ .act → f.acc ≠ .w1c → bits (u.rd off) f.hi f.lo = bits v.toNat f.hi f.lo)
      ∧ ∀ i, i < 64 → (∀ f ∈ fieldsOf off, i < f.lo ∨ f.hi < i ∨ f.acc = .act) → bitOf (u.rd off) i = bitOf (s.rd off) i))

/-- Writes that are turned away (R356, R359, R360, R380): a host function's write that the protection table does not permit
changes nothing but the counters and the record of the denial, and one to a block other than CFG, SEC, HIF and EVQ before
LOAD_DONE changes nothing but its count and CFG_EARLY_WRITE; in either case nothing of the command's own effect happens.
Where the rules leave a choice it is the model's own (log entry 10). -/
def Obligations.DeniedWrites : Prop :=
  ∀ (s : State) (i : Instr) (fn off : Nat), writeOf i = some (.host fn, off) → Instr.wellFormed i = true →
    s.inReset = false → s.mayIssue (.host fn) = true →
    (s.ready 15 = true ∨ blockOf off = 0 ∨ blockOf off = 1 ∨ blockOf off = 18 ∨ blockOf off = 23 →
      s.permits (s.roleOf (.host fn)) 1 (off / 8) 1 = false →
      exec i s = .next (finish s ((s.touch (.host fn)).deny (s.roleOf (.host fn)) 1 (off / 8))))
    ∧ (s.ready 15 = false → blockOf off ≠ 0 → blockOf off ≠ 1 → blockOf off ≠ 18 → blockOf off ≠ 23 →
      exec i s = .next (finish s (((s.touch (.host fn)).count Ctr.CFG_EARLY_WRITES).raise Src.CFG_EARLY_WRITE (off / 8))))

/-- A write by an agent that cannot issue one has no effect (R390, R464): a function the host link has not enabled, or a
keeper core that does not run. Where the rules leave a choice it is the model's own (log entry 10). -/
def Obligations.UnissuedWrites : Prop :=
  ∀ (s : State) (i : Instr) (by_ : Agent) (off : Nat), writeOf i = some (by_, off) → s.mayIssue by_ = false → exec i s = .next s

/-! ## The whole device -/

/-- A step takes the command at the front of the queue and performs it on the state with the queue's rest. -/
def Obligations.StepRunsCommand : Prop :=
  ∀ (i : Instr) (rest : List Instr) (s : State), step { s with pending := i :: rest } = exec i { s with pending := rest }

/-- On an empty queue a step is one time-domain cycle (R42, R44, R180; that an empty queue stands for a cycle is the model's own
choice, log entry 2): out of reset a commit whose T has come is made, and where nothing falls due, device time advances by
TIM_INCR and the cycle's share of the slew; in reset nothing happens. -/
def Obligations.IdleCycle : Prop :=
  ∀ (s : State), s.pending = [] →
    (s.inReset = true → step s = .next s)
    ∧ (s.inReset = false → ∃ u, step s = .next (finish s u)
        ∧ (s.armedV ≠ 0 → s.ver.armedT ≤ s.now → s.commitRefusal = none → u.currentV = s.armedV ∧ u.armedV = 0)
        ∧ (s.dueNow = s → s.tick.duePassed s.now = s.tick →
            let most : Int := ((s.rd Reg.TIM_INCR * s.slewRate / 1000000000 : Nat) : Int)
            let d : Int := if most < s.tim.slew then most else if s.tim.slew < -most then -most else s.tim.slew
            u.time = ((s.time : Int) + ((s.rd Reg.TIM_INCR : Nat) : Int) + d).toNat ∧ u.tim.slew = s.tim.slew - d
              ∧ u.tim.cycles = s.tim.cycles + 1 ∧ u.tim.run = s.tim.run + s.rd Reg.TIM_INCR)
        ∧ (s.dueNow = s → s.tick.duePassed s.now = s.tick → (∀ k, k < 4 → (mget {} s.kpr k).fifo.head?.map (·.2) ≠ some true) →
            u.pkts = s.pkts ∧ u.wit = s.wit ∧ u.out = s.out ∧ ∀ off, blockOf off ≠ 6 → blockOf off ≠ 22 → u.rd off = s.rd off))

/-- Every command answers a next state, leaves the queue as it is, and changes the levels of PWR_OK and RESET_N only where it
is one of the three commands that are their edges (R486; that no command stops the device follows from the rules, which give
each of them an effect). Where the rules leave a choice it is the model's own (log entry 3). -/
def Obligations.EveryCommandAnswers : Prop :=
  ∀ (i : Instr) (s : State), ∃ t, exec i s = .next t ∧ t.pending = s.pending
    ∧ (t.pins ≠ s.pins → (∃ a b g, i = .powerOnReset a b g) ∨ i = .pinReset ∨ ∃ a b, i = .leaveReset a b)

/-- While PWR_OK or RESET_N is low no command has an effect (R382, R486), but the edges of the two pins and the test access port's
instructions (R494). -/
def Obligations.HeldInReset : Prop :=
  ∀ (i : Instr) (s : State), s.inReset = true →
    exec i s = .next s ∨ (∃ a b g, i = .powerOnReset a b g) ∨ (∃ a b, i = .leaveReset a b) ∨ ∃ x, i = .jtagInstruction x

/-- The state after reset (R42, R382, R499; where the spec gives a register no reset value, its value here is the model's own choice, log
entry 7): no command waits, device time and TQ are 0, everything that a reset clears is clear, and the tables and memories are in
their canonical form. -/
def Obligations.ResetState : Prop :=
  State.reset.pending = [] ∧ State.reset.time = 0 ∧ State.reset.tq = 0 ∧ State.reset.cleared ∧ State.reset.resetInv
    ∧ State.reset.queueInv ∧ State.reset.memWf = true ∧ State.reset.regsWf = true

/-- What a reset clears stays clear while the device is held in it (R382, R486): every step keeps it, from every state. -/
def Obligations.ResetInvariant : Prop := ∀ (s s' : State), s.resetInv → step s = .next s' → s'.resetInv

/-- Every step keeps the waiting commands well formed. -/
def Obligations.QueueInvariant : Prop := ∀ (s s' : State), s.queueInv → step s = .next s' → s'.queueInv

/-! ## Rules stated whole -/

/-- R450: a Warden write of 1 to FLT_CTL.LANTERN_TEST drives the lantern to fault for 100 ms and changes nothing else.
It states that LANTERN_TEST and LANTERN_TEST_END complete, that is that `exec` answers the next state described, under
conditions on the state and the operands alone. -/
def Obligations.LanternTest : Prop :=
  (∀ (s : State) (fn : Nat) (v : Word64), s.reaches (.host fn) Reg.FLT_CTL = true → s.isWarden (.host fn) = true → v.toNat % 2 = 1 →
    completes (.lanternTest (.host fn) v) s (fun u => u.lanternFault = true
      ∧ u = { s.touch (.host fn) with regs := u.regs, flt := { s.flt with testUntil := some (s.now + 100 * millisecond) } }
      ∧ ∀ off, u.rd off = s.rd off))
  ∧ (∀ (s : State) (t : Stamp), s.inReset = false → s.flt.testUntil = some t →
    s.lanternFault = true
      ∧ completes .lanternTestEnd s (fun u =>
        (s.now < t → u = s) ∧ (t ≤ s.now → u = { s with flt := { s.flt with testUntil := none } })))

/-- R463: the device raises CND_TJ_HIGH when any die sensor reads a junction temperature above 105 °C, and again after every 1 s that the
temperature stays above 105 °C.
It states that TJ_HIGH completes, that is that `exec` answers the next state described, under conditions on the state and the
operands alone. -/
def Obligations.JunctionTemperature : Prop :=
  ∀ (s : State) (i temp : Nat), s.inReset = false → i < 96 →
    completes (.tjHigh i temp) s (fun u =>
      let raises := u = ({ s with cnd := { s.cnd with hot := mput s.cnd.hot i s.now } }).raise Src.CND_TJ_HIGH (i + 256 * (temp % 256))
      (105 < temp → mfind s.cnd.hot i = none → raises ∧ u.sticky Src.CND_TJ_HIGH = true)
      ∧ (∀ t, 105 < temp → mfind s.cnd.hot i = some t → t + second ≤ s.now → raises ∧ u.sticky Src.CND_TJ_HIGH = true)
      ∧ (∀ t, 105 < temp → mfind s.cnd.hot i = some t → s.now < t + second → u = s)
      ∧ (temp ≤ 105 → u = { s with cnd := { s.cnd with hot := mdel s.cnd.hot i } }))

/-- R175: OPEN is refused with status WINDOW when d of the version to be opened would exceed 32,767, and with status STATE while a group is
already open; an operation not permitted in the present state completes with status STATE and changes nothing.
It states that VER_OPEN, VER_ARM, VER_ABORT_ALL and VER_ABORT_OPEN complete where they are refused, that is that `exec` answers
the next state described, under conditions on the state and the operands alone. -/
def Obligations.VersionRefusals : Prop :=
  ∀ (s : State) (by_ : Agent), s.reaches by_ Reg.VER_CTL = true →
    let refused (i : Instr) (op status : Nat) : Prop := completes i s (fun u =>
      u.fld Reg.VER_STATUS F.VER_STATUS.LAST_OP = op ∧ u.fld Reg.VER_STATUS F.VER_STATUS.LAST_STATUS = status
        ∧ u.ver = s.ver ∧ u.tab = s.tab ∧ u.egr = s.egr ∧ u.stg = s.stg ∧ ∀ off, off ≠ Reg.VER_STATUS → u.rd off = s.rd off)
    (s.openV ≠ 0 → refused (.verOpen by_) 1 7)
    ∧ (s.openV = 0 → 32767 < s.verDist (nextVer (if s.armedV = 0 then s.currentV else s.armedV)) → refused (.verOpen by_) 1 6)
    ∧ (s.openV = 0 ∨ s.armedV ≠ 0 → refused (.verArm by_) 2 7)
    ∧ (s.armedV = 0 → refused (.verAbortAll by_) 3 7)
    ∧ (s.openV = 0 → refused (.verAbortOpen by_) 4 7)

/-- What the balls show (R449, R486, R487, R493): a power-on reset with PWR_OK low leaves every ball undriven, and one with RESET_N low,
or a pin reset, leaves each at its level of Table ELEC-5; once the device runs, FAULT_P and FAULT_N are complementary, at fault
while a source with reaction PIN holds its sticky bit, and SMB_ALERT_N is low while the lantern is at fault.
It states that POWER_ON_RESET and PIN_RESET complete, that is that `exec` answers the next state described, under conditions
on the state and the operands alone. -/
def Obligations.Balls : Prop :=
  (∀ (s : State) (resetN : Bool) (gpio : Nat), ∃ t, exec (.powerOnReset false resetN gpio) s = .next t ∧ ∀ b, t.ball b = .off)
  ∧ (∀ (s : State) (gpio : Nat), ∃ t, exec (.powerOnReset true false gpio) s = .next t ∧ (∀ b, t.ball b = heldBall b)
      ∧ t.smbusAddress = 0x4C + gpio % 4)
  ∧ (∀ (s : State), s.inReset = false → ∃ t, exec .pinReset s = .next t ∧ ∀ b, t.ball b = heldBall b)
  ∧ (∀ (s : State), s.inReset = false → s.boot.running = true →
      (s.ball .faultP = .high ↔ s.ball .faultN = .low) ∧ (s.ball .faultP = .low ↔ s.ball .faultN = .high)
      ∧ (s.ball .smbAlertN = .low ↔ s.ball .faultP = .high)
      ∧ ∀ n, n < 1536 → s.sticky n = true → bitOf (s.react n) 4 = true → s.ball .faultP = .high)
end

