-- ==== Sys2Proof/Laws/Memory.lean ====
section
/-! SUPPORT. The byte memories, the scratchpad and the capture ring: a byte written is read back, every other byte stays, and
every operation keeps the canonical form. -/
namespace Sys2Proof.Machine

/-- Writing bytes one after another keeps a memory canonical. -/
theorem bytes_wf {β : Type} (l : List β) (k : β → Nat) (v : β → Byte) (m : List Host.Cell) (h : Memory.wf m = true) :
    Memory.wf (l.foldl (fun m e => mset 0 m (k e) (v e)) m) = true := by
  induction l generalizing m with
  | nil => exact h
  | cons e l ih => exact ih _ (mset_wfD 0 m (k e) (v e) h)

/-- Writing bytes leaves a byte at any other address. -/
theorem bytes_other {β : Type} (l : List β) (k : β → Nat) (v : β → Byte) (m : List Host.Cell) (a : Nat)
    (h : ∀ e ∈ l, a ≠ k e) : mget 0 (l.foldl (fun m e => mset 0 m (k e) (v e)) m) a = mget 0 m a := by
  induction l generalizing m with
  | nil => rfl
  | cons e l ih =>
    rw [List.foldl_cons, ih _ (fun e he => h e (List.mem_cons_of_mem _ he)),
      mget_mset_other _ _ _ _ _ (h e List.mem_cons_self)]

namespace State

theorem reset_memWf : State.reset.memWf = true := by decide

/-- A scratchpad write keeps both memories canonical (R427). -/
theorem scpPut_memWf (s : State) (a v : Nat) (h : s.memWf = true) : (s.scpPut a v).memWf = true := by
  simp only [memWf, Bool.and_eq_true] at h ⊢
  exact ⟨bytes_wf _ _ _ _ h.1, h.2⟩

/-- A scratchpad write changes its eight bytes alone (R427). -/
theorem scpPut_other (s : State) (a v b : Nat) (h : b < a ∨ a + 8 ≤ b) :
    mget 0 (s.scpPut a v).scp.mem b = mget 0 s.scp.mem b := by
  refine bytes_other _ _ _ _ _ (fun e he => ?_)
  have := List.mem_range.mp he
  omega

/-- A store into the capture ring keeps both memories canonical (R424). -/
theorem captureStore_memWf (s : State) (o : Nat) (bs : Bytes) (h : s.memWf = true) : (s.captureStore o bs).memWf = true := by
  simp only [memWf, Bool.and_eq_true] at h ⊢
  exact ⟨h.1, bytes_wf _ _ _ _ h.2⟩

/-- A store into the capture ring changes the bytes from its offset on, as many as it has (R424). -/
theorem captureStore_other (s : State) (o : Nat) (bs : Bytes) (a : Nat) (h : a < o ∨ o + bs.length ≤ a) :
    mget 0 (s.captureStore o bs).hbm.capRing a = mget 0 s.hbm.capRing a := by
  refine bytes_other _ _ _ _ _ (fun e he => ?_)
  have := List.le_snd_of_mem_zipIdx he
  have := List.snd_lt_add_of_mem_zipIdx he
  omega

/-- Clearing a bank at its handover keeps the scratchpad canonical (R429). -/
theorem clearBank_wf (s : State) (b : Nat) (h : s.memWf = true) :
    Memory.wf (s.scp.mem.filter (fun c => scpBank c.1 != b)) = true := by
  simp only [memWf, Bool.and_eq_true] at h
  exact mfilter_wfD 0 _ _ h.1

/-- Whether the memories are canonical depends on the two memories alone. -/
theorem memWf_congr (s t : State) (hs : t.scp = s.scp) (hc : t.hbm = s.hbm) : t.memWf = s.memWf := by
  simp only [memWf, hs, hc]

theorem count_memWf (s : State) (n k : Nat) : (s.count n k).memWf = s.memWf := rfl

theorem raise_memWf (s : State) (n p : Nat) : (s.raise n p).memWf = s.memWf :=
  memWf_congr _ _ (raise_scp s n p) (raise_hbm s n p)

/-- Every scratchpad access keeps both memories canonical (R427 to R432). -/
theorem scpAccess_memWf (s : State) (m a waits ecc : Nat) (op : ScpOp) (h : s.memWf = true) :
    (s.scpAccess m a op waits ecc).2.memWf = true := by
  unfold scpAccess
  extract_lets _ s1 s2 old reads s3 poisoned
  have h1 : s1.memWf = true := h
  have h2 : s2.memWf = true := by cases op <;> exact h1
  have h3 : s3.memWf = true := by
    unfold s3
    split
    · exact h2
    split
    · exact (raise_memWf _ _ _).trans h2
    · exact h2
  clear_value s3 old poisoned reads
  split
  · exact (raise_memWf _ _ _).trans h
  split
  · exact h
  cases op
  · exact h3
  · exact scpPut_memWf _ _ _ h3
  · dsimp only
    split
    · exact h3
    · exact scpPut_memWf _ _ _ h3
  · dsimp only
    split
    · exact h3
    · exact scpPut_memWf _ _ _ h3

end State

open State

/-- The end of a handover keeps both memories canonical (R429). -/
theorem scpHandoverDone_memWf (b : Nat) (s : State) (h : s.memWf = true) : (scpHandoverDone b s).memWf = true := by
  have served : ∀ (l : List (Nat × Nat)) (t : State), t.memWf = true →
      (l.foldl (fun (s : State) x => (s.scpAccess 21 x.1 (.write x.2) 0 0).2) t).memWf = true := by
    intro l
    induction l with
    | nil => exact fun _ ht => ht
    | cons x l ih => exact fun t ht => ih _ (scpAccess_memWf t 21 x.1 0 0 (.write x.2) ht)
  unfold scpHandoverDone
  dsimp only
  split
  · exact h
  · split
    · exact h
    · rw [raise_memWf]
      refine served _ _ ?_
      have h2 := h
      simp only [memWf, Bool.and_eq_true] at h2
      show (Memory.wf _ && Memory.wf s.hbm.capRing) = true
      rw [Bool.and_eq_true]
      refine ⟨?_, h2.2⟩
      split
      · exact clearBank_wf s b h
      · exact h2.1

end Sys2Proof.Machine
end

