-- ==== Sys2Proof/Tests/Slice0.lean ====
section
/-! SUPPORT. Tests of the model's author: ill-formed commands are refused, worked examples of the spec come out as it prints
them, and every statement's hypotheses are met by a state and operands written out here. -/
namespace Sys2Proof.Tests
open Machine Machine.State
set_option Elab.async false

/-! ## Small states -/

/-- Keeper core 0, which a small state may let write to any register. -/
abbrev kp : Agent := .keeper 0
/-- PF0. -/
abbrev pf : Agent := .host 0
/-- Out of reset, with keeper core 0 running. -/
def up : State := State.reset.setFld (Reg.KPR_STATUS 0) F.KPR_STATUS.RUNNING 1
/-- A session is open and the load is done: PF0 is the Warden. -/
def ward : State := (up.setFld Reg.SEC_STATUS F.SEC_STATUS.SESSION 1).putBit Reg.CFG_READY 15 true
/-- `s` at `ms` milliseconds of device time. -/
def atMs (ms : Nat) (s : State) : State := { s with time := ms * millisecond * 2 ^ 32 }
/-- All 62 virtual functions. -/
def vfs : State := ward.setFld Reg.HIF_LINK_STAT F.HIF_LINK_STAT.VFS 62
/-- Port `p` of `s` has its link up. -/
def linked (p : Nat) (s : State) : State :=
  (s.setFld (Reg.PRT_STATUS p) F.PRT_STATUS.LINK_UP 1).setFld (Reg.PRT_STATUS p) F.PRT_STATUS.HALTED 0
/-- Port `p` of `s` is enabled with its reset PHY type. -/
def enabled (p : Nat) (s : State) : State := s.setFld (Reg.PRT_CFG p) F.PRT_CFG.EN 1
/-- DMA channel `c` of `s` is on for `use`, with one descriptor. -/
def channed (c use : Nat) (s : State) : State :=
  ((s.setFld (Reg.HIF_DMA_CFG c) F.HIF_DMA_CFG.EN 1).setFld (Reg.HIF_DMA_CFG c) F.HIF_DMA_CFG.USE use).setFld
    (Reg.HIF_DMA_TAIL c) F.HIF_DMA_TAIL.DESC_TAIL 1
/-- Packet 0 of `s` is `p`. -/
def packet (p : Packet) (s : State) : State := { s with pkts := [(0, p)], nextPkt := 1 }
/-- Event queue `q` of `s` is on, and source `n` is routed to it. -/
def routed (n q : Nat) (s : State) : State :=
  ((s.setFld (Reg.EVQ_CFG q) F.EVQ_CFG.EN 1).setFld (Reg.EVQ_ROUTE n) F.EVQ_ROUTE.QUEUE q).setFld (Reg.EVQ_ROUTE n) F.EVQ_ROUTE.EN 1
/-- A load runs with header `h`. -/
def loadingWith (h : Bytes) (s : State) : State := { s with boot := { s.boot with running := true, loading := true, header := h } }
/-- Egress port `p` of `s` is `e`. -/
def egressed (p : Nat) (e : EgressPort) (s : State) : State := { s with egr := { s.egr with ports := mput s.egr.ports p e } }
/-- A unicast copy of packet 0 to port `p`. -/
def ucopy (p : Nat) : Copy := { pkt := 0, kind := .unicast, port := p, cls := 7, queue := 0, gran := 2 }
/-- The staged fields of register `o` of `s` are in force with word `v`. -/
def forced (o v : Nat) (s : State) : State := { s with stg := { s.stg with force := mput s.stg.force o (BitVec.ofNat 64 v) } }
/-- A word of opcode `o` whose other fields are zero. -/
def wordOf (o : Nat) : Microword := BitVec.ofNat 192 (o * 2 ^ 152)
/-- Barge 0 about to run address 0x3000 on packet 0. -/
def bargeNow : Barge := { pkt := 0, pc := 0x3000, man := zeros 64 }
/-- A packet of port 0 that barge 0 holds. -/
def pktNow : Packet := { port := 0, stage := .barge 0, ended := true, bytes := zeros 64 }
/-- Barge 0 is about to run a word of opcode `o`. -/
def running (o : Nat) : State :=
  let s := packet pktNow up
  { s with prs := { s.prs with barges := [(0, bargeNow)], bank0 := [(0, wordOf o)] } }
/-- A table command of opcode `o` on `target`, of 128 bytes, with `body` from byte 16 on. -/
def cmdOf (o target aux : Nat) (body : Bytes) : Bytes := patch (le 1 o ++ [0, 0, 0] ++ le 4 target ++ le 4 aux ++ zeros 116) 16 body
/-- The keeper cores hold every claim region. -/
def claimedUp : State := (List.range 36).foldl (fun s r => s.setFld (Reg.FWD_CLAIM r) F.FWD_CLAIM.HOLDER 2) up
/-- Ternary group 0 is in force over banks 0 and 1. -/
def grouped : State := forced (Reg.TCM_GROUP 0) (2 ^ 63 + 2 * 256) claimedUp
/-- A member of the towpath, Authoritative, whose port 0 takes part and whose MTU holds every frame below. -/
def member : State := linked 0 ((up.setFld Reg.TOW_STATE F.TOW_STATE.STATE 2).setFld (Reg.TOW_PORT_CFG 0) F.TOW_PORT_CFG.EN 1)
/-- A towpath frame of 96 bytes with TYPE `ty`, whose byte 32 is `k`. -/
def towFrame (ty k : Nat) : Bytes :=
  let b := patch (patch (zeros 92) 32 [BitVec.ofNat 8 k]) 16 (le 8 (ty * 2 ^ 62))
  b ++ fcs b
/-- A towpath data frame whose word 3 is `w`, of DEST_KIND, destination and hops. -/
def towData (w : Nat) : Bytes :=
  let b := patch (zeros 92) 24 (le 8 w)
  b ++ fcs b

/-- A customer package of one word, of opcode 0x18, with VER `v` and the digest of its word. -/
def signedPackage (v : Nat) : Bytes :=
  let w := le 24 (0x18 * 2 ^ 152)
  patch (patch (patch (zeros 192 ++ w) 0 (ascii "DLUC" ++ le 2 1)) 12 (le 2 1 ++ le 2 0 ++ le 4 v)) 32 (sha384 w)


/-! ## Ill-formed commands are refused

One ill-formed term for each check of WellFormed.lean: a number one past the last. -/

theorem test_ill_formed_agents : Instr.wellFormed (.registerWrite (.host 64) 0 false 0) = false ∧
    Instr.wellFormed (.registerWrite (.keeper 4) 0 false 0) = false ∧ Instr.wellFormed (.registerWrite .loader 0 false 0) = false ∧
    Instr.wellFormed (.timNowLoRead 64) = false := by decide
theorem test_ill_formed_line : Instr.wellFormed (.ppsEdge 2 0) = false ∧ Instr.wellFormed (.wickPulseArrival 129 0 []) = false ∧
    Instr.wellFormed (.calAgeStale 514) = false ∧ Instr.wellFormed (.prtCfgWrite (.host 0) 514 0) = false ∧
    Instr.wellFormed (.prtOctetWrite (.host 0) 64 0) = false ∧ Instr.wellFormed (.towPortCfgWrite (.host 0) 512 0) = false := by decide
theorem test_ill_formed_parse : Instr.wellFormed (.bargeDispatch 16) = false ∧
    Instr.wellFormed (.prsProfileWrite (.host 0) 0 16 0) = false ∧ Instr.wellFormed (.csBackgroundCheck 0 3 0 0) = false ∧
    Instr.wellFormed (.csBackgroundCheck 0 0 16384 0) = false ∧ Instr.wellFormed (.tcmScrub 524288 0) = false ∧
    Instr.wellFormed (.claimSwap (.host 0) 64 0) = false := by decide
theorem test_ill_formed_queues : Instr.wellFormed (.cacheRefill 0 4 none) = false ∧ Instr.wellFormed (.pfcRepeat 0 8) = false ∧
    Instr.wellFormed (.offerArrival 67840) = false ∧ Instr.wellFormed (.schGlWrite (.host 0) 256 0) = false ∧
    Instr.wellFormed (.pushHeadWrite (.host 0) 8 0) = false ∧ Instr.wellFormed (.memberTimeout 512) = false := by decide
theorem test_ill_formed_host : Instr.wellFormed (.dmaEnable (.host 0) 16 0) = false ∧ Instr.wellFormed (.evqClaim 128 false) = false ∧
    Instr.wellFormed (.hbmRefresh 64 0 0) = false ∧ Instr.wellFormed (.selfRefreshEntry 2) = false ∧
    Instr.wellFormed (.scpHandoverStart (.host 0) 256 0) = false ∧ Instr.wellFormed (.stickyClear (.host 0) 24 0) = false ∧
    Instr.wellFormed (.tjHigh 96 0) = false ∧ Instr.wellFormed (.samplerOverflow 8) = false := by decide
theorem test_well_formed : Instr.wellFormed (.registerWrite (.host 63) 0 false 0) = true ∧ Instr.wellFormed (.tjHigh 95 0) = true ∧
    Instr.wellFormed (.offerArrival 67839) = true := by decide

/-! ## Worked examples of the spec -/

/-- Chapter "Exact Match, Prefix and Ternary Tables": the check value of CRC-32C over "123456789". -/
theorem test_crc32c : crc32c 0xFFFFFFFF (ascii "123456789") = 0xE3069283 := by decide +kernel
/-- FIPS 180-4's example "abc" under SHA-256 and SHA-384, and the first SipHash test vector of its authors' paper. -/
theorem test_digests :
    beNat (sha256 (ascii "abc")) = 0xBA7816BF8F01CFEA414140DE5DAE2223B00361A396177A9CB410FF61F20015AD
      ∧ beNat (sha384 (ascii "abc")) = 0xCB00753F45A35E8BB5A03D699AC65007272C32AB0EDED1631A8B605A43FF5BED8086072BA1E7CC2358BAECA134C825A7
      ∧ sipHash 0x0706050403020100 0x0F0E0D0C0B0A0908 ((List.range 15).map (fun i => BitVec.ofNat 8 i)) = 0xA129CA6149BE45E5 := by
  decide +kernel
/-- Table TIME-4: the receive stamp. -/
theorem test_receive_stamp : ballStamp 4 (7342116406250 * 65536 / 10000) 14025 41 (-126976) = 734211639 * 65536 + 0xAC00 := by
  decide +kernel
/-- Table PORT-5: the stamps of the messages at bytes 42, 106 and 170 of a frame whose stamped bit is message bit 4,177 of the last
codeword before a marker. -/
theorem test_message_stamps :
    let d0 := 3840 + 4094 * 5120 + 16 * 256 + 64
    let t := 734211639 * 65536 + 0xAC00
    byteTime 4 2 d0 42 t = 734211642 * 65536 + 0xD7F9 ∧ byteTime 4 2 d0 106 t = 734211647 * 65536 + 0xAE69
      ∧ byteTime 4 2 d0 170 t = 734211667 * 65536 + 0x6FC4 := by decide +kernel
/-- Table PARSE-6: the fields of the encoded word. -/
theorem test_word_fields :
    let w : Microword := BitVec.ofNat 192 (0x300AC03509030400 * 2 ^ 128 + 0x10)
    Word.op w = 0x09 ∧ Word.srcA w = 3 ∧ Word.bsel w = 1 ∧ Word.imm w = 16 ∧ Word.cond w = 4 ∧ Word.next w = 0x300A
      ∧ Word.alt w = 0x300D ∧ Word.cycles w = 1 := by decide +kernel
/-- The example after Table LOCK-1: D_min and D_min_mc for 100GBASE-R and 10GBASE-R ports and MAX_LEN 1,518. -/
theorem test_dmin :
    let v (phy : Nat) := putBits (putBits 0 F.LCK_CLASS.FEED_PHY.hi F.LCK_CLASS.FEED_PHY.lo phy) F.LCK_CLASS.MAX_LEN.hi F.LCK_CLASS.MAX_LEN.lo 1518
    dminOf (v 4) false = some 482 ∧ dminOf (v 1) false = some 1455 ∧ dminOf (v 4) true = some 502 ∧ dminOf (v 1) true = some 1475 := by
  decide +kernel
/-- Table SCHED-4: the colours of the four frames. -/
theorem test_meter_trace :
    let prof := (4294967 + 2 * 2 ^ 40 + 2 ^ 52, 8589935 + 4 * 2 ^ 40)
    let p1 := charge prof { tc := 2 * 2 ^ 32, tp := 4 * 2 ^ 32 } 0 3 green
    let p2 := charge prof p1.2 500 1 green
    let p3 := charge prof p2.2 1000 3 green
    let p4 := charge prof p3.2 2000 1 green
    p1.1 = yellow ∧ p2.1 = green ∧ p3.1 = red ∧ p4.1 = green := by decide +kernel
/-- The gated 10GbE port of Table SCHED-7: t_need(1,518) is 1,214.4 ns. -/
theorem test_t_need : tNeed ((up.setFld (Reg.PRT_CFG 300) F.PRT_CFG.PHY 1).setFld (Reg.PRT_CFG 300) F.PRT_CFG.FEC 0) 300 1518 =
    ceilDiv (12144 * 65536) 10 := by decide +kernel
/-- Table TOW-4: the offset of one exchange is 1.000 ns. -/
theorem test_exchange :
    let s := exchange (forced (Reg.TOW_PORT_CFG 200) 400 up) 200 (1000 * 65536) (150125 * 65536 / 100) (2000 * 65536)
      ((249885 * 65536 + 50) / 100)
    s.rd (Reg.TOW_PORT_OFFSET 200) = 65536 := by decide +kernel
/-- The example of chapter "Faults, Ageing and the Ferry Mode" on voltage: V_FUSE 728.5 mV and a worst wear of 3,120 ppm give 746.0 mV. -/
theorem test_voltage : voltageFor (up.setFld Reg.CND_PLAN F.CND_PLAN.V_FUSE 7285) 3120 = 7460 := by decide +kernel
/-- Table WIT-8: the header of a block, and words 0 to 2 of its first frame record. -/
theorem test_block_header :
    let s := (up.setFld (Reg.WIT_STREAM_STAT 0) F.WIT_STREAM_STAT.NEXT_SEQ 123456).setFld Reg.WIT_EPOCH_STAT F.WIT_EPOCH_STAT.EPOCH 1000003
    let at_ (ns : Nat) := 1780000000 * second + ns * 65536
    let r := frameRec 1779999999 1 (at_ 734211639 + 0xAC00) 2 0x15 5 448 42 3 0 0 238 0
    let b : OpenBlk := { base := at_ 734212000, recs := List.replicate 90 r }
    let m := s.blockBytes 0 { started := true, gaps := [(4, { count := 17 })] } b true
    sub m 0 8 = [0x20, 0x40, 0xE2, 0x01, 0, 0, 0, 0x5A] ∧ sub m 8 12 = [0, 0, 0xA0, 0x2F, 0xC3, 0x2B, 0, 0xA5, 0x18, 0x6A, 0, 0]
      ∧ sub m 20 12 = [2, 0x43, 0, 0, 0, 0, 0, 0, 0, 0, 0x11, 0] ∧ sub m 64 8 = [0, 0xAC, 0x37, 0xF8, 0x5D, 0x67, 0, 0]
      ∧ sub m 72 8 = [0, 0xA3, 2, 0, 0x5C, 1, 0x15, 0x12] ∧ sub m 80 8 = [2, 0, 0xEE, 0, 0, 0, 0, 0] := by decide +kernel
/-- Table WIT-9: bytes 0–47 of a seal. -/
theorem test_seal :
    let s := (((up.setFld Reg.WIT_EPOCH_STAT F.WIT_EPOCH_STAT.EPOCH 1000003).setFld Reg.SEC_STATUS F.SEC_STATUS.APPROVED 1).setFld
      Reg.WIT_FLOW_KEY_ID F.WIT_FLOW_KEY_ID.KEY_ID 3).setFld Reg.TIM_STATE F.TIM_STATE.TQ 2
    let m := sealBody { s with wit := { sealFirst := false } } (1780000000 * second + 700000000 * 65536) (1780000000 * second + 800000000 * 65536) false
    sub m 0 8 = [0x30, 0x10, 0, 0, 0, 0, 3, 0] ∧ sub m 8 8 = [0x43, 0x42, 0x0F, 0, 0, 0, 0, 0]
      ∧ sub m 16 12 = [0, 0, 0, 0x27, 0xB9, 0x29, 0, 0xA5, 0x18, 0x6A, 0, 0]
      ∧ sub m 28 12 = [0, 0, 0, 8, 0xAF, 0x2F, 0, 0xA5, 0x18, 0x6A, 0, 0] ∧ byteAt m 40 = 2 ∧ sub m 42 2 = [67, 0] := by decide +kernel

/-! ## The hypotheses of the obligations are met

One theorem, or a few, per obligation: for every clause, and for every branch of it that has premises of its own, a concrete state
and operands that meet them. -/

/-- What the hypotheses of HostReads ask for is met, part 1. -/
theorem wit_HostReads_1 :
    (∃ (s : State) (fn : Nat) (bar : Nat) (off : Nat) (len : Nat), (s.inReset = false) ∧ (fn < 64) ∧ (s.fnOn fn = true) ∧
      (barSize fn bar < off + len ∨ len = 0)) ∧
    (∃ (s : State) (fn : Nat) (bar : Nat) (off : Nat) (len : Nat), (s.inReset = false) ∧ (fn < 64) ∧ (s.fnOn fn = true) ∧
      (let r := (s.touch (.host fn)).readInstant fn; let n := (off + len + 7) / 8 - off / 8; (off + len ≤ barSize fn bar) ∧ (len ≠ 0) ∧ ((∃ i, i < n ∧ r.permits (r.roleOf (.host fn)) (barKind bar) (off / 8 + i) 0 = false)))) ∧
    (∃ (s : State) (fn : Nat) (bar : Nat) (off : Nat) (len : Nat), (s.inReset = false) ∧ (fn < 64) ∧ (s.fnOn fn = true) ∧
      (let r := (s.touch (.host fn)).readInstant fn; let n := (off + len + 7) / 8 - off / 8; (off + len ≤ barSize fn bar) ∧ (len ≠ 0) ∧ ((∀ i, i < n → r.permits (r.roleOf (.host fn)) (barKind bar) (off / 8 + i) 0 = true)))) ∧
    (∃ (s : State) (fn : Nat), (s.inReset = false) ∧ (fn < 64) ∧ (s.fnOn fn = true) ∧
      (let r := (s.touch (.host fn)).readInstant fn; (r.permits (r.roleOf (.host fn)) 1 (Reg.TIM_NOW_LO / 8) 0 = true))) ∧
    (∃ (s : State) (fn : Nat) (x : Nat), (s.inReset = false) ∧ (fn < 64) ∧ (s.fnOn fn = true) ∧ (x < 36) ∧
      (let r := (s.touch (.host fn)).readInstant fn; (r.permits (r.roleOf (.host fn)) 1 (Reg.FWD_CLAIM_TRY x / 8) 0 = true))) ∧
    (∃ (s : State) (fn : Nat), (s.inReset = false) ∧ (fn < 64) ∧ (s.fnOn fn = true)) :=
  ⟨⟨up, 0, 0, 0, 0, by decide +kernel⟩,
    ⟨vfs.wr (Reg.SEC_PROT_ACTIVE 0 0) 1, 63, 0, Reg.CFG_RESET, 8, by decide +kernel⟩,
    ⟨up, 0, 0, 0, 8, by decide +kernel⟩,
    ⟨ward, 0, by decide +kernel⟩,
    ⟨vfs, 0, 35, by decide +kernel⟩,
    ⟨vfs, 63, by decide +kernel⟩⟩

/-- What the hypotheses of HostReads ask for is met, part 2. -/
theorem wit_HostReads_2 :
    (∃ (s : State) (code : Nat) (v : Nat), (s.inReset = false) ∧ (s.boot.running = true) ∧
      (s.boot.leftAt + 50 * millisecond ≤ s.now) ∧ (s.smbusValue code = some v)) :=
  ⟨atMs 50 (loadingWith [] up), 1, 0, by decide +kernel⟩

/-- What the hypotheses of HostLink ask for is met. -/
theorem wit_HostLink :
    (∃ (s : State), (s.inReset = false)) ∧
    (∃ (s : State) (fn : Nat), ∃ c, (s.inReset = false) ∧ (fn < 64) ∧ (s.fnOn fn = true) ∧ (c < 16) ∧ (s.chanFn c = fn)) ∧
    (∃ (s : State) (fn : Nat), ∃ c, (s.inReset = false) ∧ (fn < 64) ∧ (s.fnOn fn = true) ∧ ((s.fnSt fn).d3hot = false) ∧
      (c < 16) ∧ (s.chanFn c = fn)) ∧
    (∃ (s : State) (fn : Nat), ∃ c, (s.inReset = false) ∧ (fn < 64) ∧ ((s.fnSt fn).d3hot = true) ∧ (c < 16) ∧
      (s.chanFn c = fn)) ∧
    (∃ (s : State) (fn : Nat) (vfs : Option Nat), ∃ n, (s.inReset = false) ∧ (fn < 64) ∧ (s.fnOn fn = true) ∧ (vfs = some n)) ∧
    (∃ (s : State), (s.inReset = false) ∧ (s.hif.l12 = false) ∧ (s.flag Reg.HIF_LINK_STAT F.HIF_LINK_STAT.UP = true) ∧
      (s.hif.queues = []) ∧ (s.hif.chans = [])) :=
  ⟨⟨up, by decide +kernel⟩,
    ⟨up, 0, 15, by decide +kernel⟩,
    ⟨up, 0, 15, by decide +kernel⟩,
    ⟨{ up with hif := { fns := [(0, { d3hot := true })] } }, 0, 15, by decide +kernel⟩,
    ⟨up, 0, some 62, 62, by decide +kernel⟩,
    ⟨up.setFld Reg.HIF_LINK_STAT F.HIF_LINK_STAT.UP 1, by decide +kernel⟩⟩

/-- What the hypotheses of DmaChannels ask for is met. -/
theorem wit_DmaChannels :
    (∃ (s : State) (by_ : Agent) (c : Nat), (c < 16) ∧ (s.reaches by_ (Reg.HIF_DMA_CFG c) = true) ∧
      (s.flag (Reg.HIF_DMA_STAT c) F.HIF_DMA_STAT.HALTED = true)) ∧
    (∃ (s : State) (by_ : Agent) (c : Nat), (c < 16) ∧ (s.reaches by_ (Reg.HIF_DMA_TAIL c) = true)) ∧
    (∃ (s : State) (c : Nat) (x : Bytes) (rest : List Bytes), (s.inReset = false) ∧ (c < 16) ∧
      ((mget {} s.hif.chans c).waiting = x :: rest) ∧ (s.cplRoom c = true) ∧
      (s.flag (Reg.HIF_DMA_STAT c) F.HIF_DMA_STAT.PAUSED = false)) ∧
    (∃ (s : State) (c : Nat) (code : Nat), (s.inReset = false) ∧ (c < 16) ∧
      (s.flag (Reg.HIF_DMA_CFG c) F.HIF_DMA_CFG.EN = true) ∧ ((code = 3 ∨ code = 4 ∨ code = 5)) ∧ (s.descsPosted c ≠ 0)) ∧
    (∃ (s : State) (id : Nat) (reason : Nat) (desc : Bytes) (p : Packet), (s.inReset = false) ∧ (mfind s.pkts id = some p) ∧
      (p.cpu.any (fun x => x.reason == reason && !x.keeper) = true) ∧ (p.ended = true) ∧ (p.stage = .stored) ∧
      (s.flag (Reg.FWD_REASON reason) F.FWD_REASON.DEST = true) ∧
      (s.chanOn (s.fld (Reg.FWD_REASON reason) F.FWD_REASON.HOST_CHANNEL) 1 = true) ∧
      (s.descsPosted (s.fld (Reg.FWD_REASON reason) F.FWD_REASON.HOST_CHANNEL) ≠ 0) ∧
      (s.dmaMay (s.fld (Reg.FWD_REASON reason) F.FWD_REASON.HOST_CHANNEL) 1 = true) ∧ (descOk 1 desc = true)) ∧
    (∃ (s : State) (c : Nat) (desc : Bytes), (s.inReset = false) ∧ (c < 16) ∧ (s.chanOn c 2 = true) ∧ (s.descsPosted c ≠ 0) ∧
      (s.dmaMay c 0 = true) ∧ (descOk 2 desc = true) ∧ (s.inFerry = false) ∧ (s.towPort (leAt desc 12 2) = false) ∧
      (s.portExists (leAt desc 12 2) = true)) :=
  ⟨⟨up, kp, 15, by decide +kernel⟩,
    ⟨up, kp, 15, by decide +kernel⟩,
    ⟨{ up with hif := { chans := [(15, { waiting := [[1]] })] } }, 15, [1], [], by decide +kernel⟩,
    ⟨channed 15 1 up, 15, 5, by decide +kernel⟩,
    ⟨packet { pktNow with stage := .stored, cpu := [{ reason := 7 }] } (channed 3 1 ((((up.setFld (Reg.FWD_REASON 7) F.FWD_REASON.DEST 1).setFld (Reg.FWD_REASON 7) F.FWD_REASON.HOST_CHANNEL 3).wr (Reg.SEC_PROT_ACTIVE 0 0) (5 + 255 * 16)).wr (Reg.SEC_PROT_ACTIVE 0 1) 15)), 0, 7, zeros 32, { pktNow with stage := .stored, cpu := [{ reason := 7 }] }, by decide +kernel⟩,
    ⟨channed 15 2 up, 15, patch (patch (zeros 32) 8 (le 4 60)) 12 (le 2 513), by decide +kernel⟩⟩

/-- What the hypotheses of EventQueues ask for is met, part 1. -/
theorem wit_EventQueues_1 :
    (∃ (s : State) (q : Nat) (a : EvReq) (b : EvReq), (s.inReset = false) ∧ (q < 128) ∧ (s.hif.msgs = [a, b]) ∧
      (s.hif.conds = []) ∧ (a ≠ b) ∧ (s.route a.src a.payload = some q) ∧ (s.route b.src b.payload = some q) ∧
      (b.time < a.time) ∧ ((s.evq q).staging.length < 64)) ∧
    (∃ (s : State) (q : Nat) (n : Nat) (payload : Nat) (t : Stamp), (s.inReset = false) ∧ (q < 128) ∧ (s.hif.msgs = []) ∧
      (s.hif.conds = [(n, ⟨.pending, payload, t, false⟩)]) ∧ (s.route n payload = some q) ∧ ((s.evq q).staging.length < 64)) ∧
    (∃ (s : State) (q : Nat) (r : EvRec) (rest : List EvRec), (s.inReset = false) ∧ (4 ≤ q) ∧ (q < 128) ∧
      (s.queueOn q = true) ∧ (s.queueAsleep q = false) ∧ (s.fld (Reg.EVQ_STAT q) F.EVQ_STAT.LOST = 0) ∧
      ((s.evq q).staging = r :: rest) ∧ (s.evqRoom q = true) ∧ (mfind s.hif.conds r.src = none)) ∧
    (∃ (s : State) (by_ : Agent) (q : Nat), (q < 128) ∧ ((match by_ with | .keeper k => q = k | _ => 4 ≤ q)) ∧
      (s.reaches by_ (Reg.EVQ_IDX q) = true)) ∧
    (∃ (s : State) (by_ : Agent) (q : Nat), (q < 128) ∧ ((match by_ with | .keeper k => q = k | _ => 4 ≤ q)) ∧
      (s.reaches by_ (Reg.EVQ_IDX q) = true)) ∧
    (∃ (s : State) (by_ : Agent) (q : Nat) (v : Word64), (q < 128) ∧ ((match by_ with | .keeper k => q = k | _ => 4 ≤ q)) ∧
      (s.reaches by_ (Reg.EVQ_IDX q) = true) ∧ (bits v.toNat F.EVQ_IDX.ARM.hi F.EVQ_IDX.ARM.lo = 1)) :=
  ⟨⟨{ routed 1535 127 (routed 1534 127 up) with hif := { msgs := [⟨1535, 0, 1⟩, ⟨1534, 0, 0⟩] } }, 127, ⟨1535, 0, 1⟩, ⟨1534, 0, 0⟩, by decide +kernel⟩,
    ⟨{ routed 1535 127 up with hif := { conds := [(1535, ⟨.pending, 0, 1, false⟩)] } }, 127, 1535, 0, 1, by decide +kernel⟩,
    ⟨{ (routed 1535 127 up).setFld (Reg.EVQ_BASE 127) F.EVQ_BASE.SIZE_LOG2 4 with hif := { queues := [(127, { staging := [⟨1535, 0, 0⟩] })] } }, 127, ⟨1535, 0, 0⟩, [], by decide +kernel⟩,
    ⟨up, kp, 0, by decide +kernel⟩,
    ⟨ward, pf, 127, by decide +kernel⟩,
    ⟨up, kp, 0, (BitVec.ofNat 64 (2 ^ F.EVQ_IDX.ARM.lo)), by decide +kernel⟩⟩

/-- What the hypotheses of EventQueues ask for is met, part 2. -/
theorem wit_EventQueues_2 :
    (∃ (s : State) (by_ : Agent) (q : Nat), (4 ≤ q) ∧ (q < 128) ∧ (s.reaches by_ (Reg.EVQ_CFG q) = true) ∧
      (s.queueOn q = false)) ∧
    (∃ (s : State) (q : Nat), (s.inReset = false) ∧ (4 ≤ q) ∧ (q < 128) ∧ (s.queueOn q = true) ∧ (s.evqOwed q = true) ∧
      ((∀ t, (s.evq q).lastMsix = some t → t + s.fld (Reg.EVQ_CFG q) F.EVQ_CFG.MOD_US * microsecond ≤ s.now)) ∧
      (let fn := s.fld (Reg.EVQ_CFG q) F.EVQ_CFG.FUNC; ((s.fnSt fn).d3hot = false))) ∧
    (∃ (s : State) (q : Nat), (s.inReset = false) ∧ (4 ≤ q) ∧ (q < 128) ∧ (s.queueOn q = true) ∧ (s.evqOwed q = true) ∧
      ((∀ t, (s.evq q).lastMsix = some t → t + s.fld (Reg.EVQ_CFG q) F.EVQ_CFG.MOD_US * microsecond ≤ s.now)) ∧
      (let fn := s.fld (Reg.EVQ_CFG q) F.EVQ_CFG.FUNC; ((s.fnSt fn).d3hot = true) ∧ ((s.fnSt fn).pmeEn = true) ∧ ((s.evq q).pmeSent = false))) ∧
    (∃ (s : State) (k : Nat) (p : Nat), (s.inReset = false) ∧ (k < 4) ∧ ((mget {} s.kpr k).pending = [p]) ∧ (p ≠ 0) ∧
      (p ≠ 2)) :=
  ⟨⟨up, kp, 127, by decide +kernel⟩,
    ⟨((routed 1535 127 up).setFld (Reg.EVQ_STAT 127) F.EVQ_STAT.ARMED 1).setFld (Reg.EVQ_IDX 127) F.EVQ_IDX.TAIL 1, 127, by decide +kernel⟩,
    ⟨{ ((routed 1535 127 up).setFld (Reg.EVQ_STAT 127) F.EVQ_STAT.ARMED 1).setFld (Reg.EVQ_IDX 127) F.EVQ_IDX.TAIL 1 with hif := { fns := [(0, { d3hot := true, pmeEn := true })] } }, 127, by decide +kernel⟩,
    ⟨{ up with kpr := [(3, { pending := [1] })] }, 3, 1, by decide +kernel⟩⟩

/-- What the hypotheses of SourceAsserts ask for is met. -/
theorem wit_SourceAsserts :
    (∃ (s : State) (n : Nat), ∃ m, (s.inReset = false) ∧ (n < 1536) ∧ (m < 1536) ∧ (s.sticky m = true)) ∧
    (∃ (s : State) (n : Nat) (payload : Nat), (s.inReset = false) ∧ (n < 1536) ∧ ((mget {} s.flt.faults n).broken = true) ∧
      (s.route n payload = none)) :=
  ⟨⟨up.putBit (Reg.FLT_STICKY 23) 63 true, 1535, 1535, by decide +kernel⟩,
    ⟨{ up with flt := { faults := [(1535, { broken := true })] } }, 1535, 0, by decide +kernel⟩⟩

/-- What the hypotheses of Resets ask for is met, part 1. -/
theorem wit_Resets_1 :
    (∃ (s : State), (s.inReset = false)) ∧
    (∃ (s : State), (s.pins.pwrOk = true) ∧ (s.boot.running = false)) ∧
    (∃ (s : State) (by_ : Agent) (v : Word64), (s.reaches by_ Reg.CFG_RESET = true) ∧
      (s.acts by_ Reg.CFG_RESET F.CFG_RESET.CHIP v.toNat = true)) ∧
    (∃ (s : State) (by_ : Agent) (v : Word64), (s.reaches by_ Reg.CFG_RESET = true) ∧
      (s.acts by_ Reg.CFG_RESET F.CFG_RESET.BLK v.toNat = true) ∧
      (let b := bits v.toNat F.CFG_RESET.BLOCK.hi F.CFG_RESET.BLOCK.lo; (b = 6 ∨ b = 9 ∨ b = 13 ∨ b = 17 ∨ b = 18 ∨ b = 19))) ∧
    (∃ (s : State) (by_ : Agent) (v : Word64), (s.reaches by_ Reg.CFG_RESET = true) ∧
      (s.acts by_ Reg.CFG_RESET F.CFG_RESET.BLK v.toNat = true) ∧
      (let b := bits v.toNat F.CFG_RESET.BLOCK.hi F.CFG_RESET.BLOCK.lo; (b = 9))) ∧
    (∃ (s : State) (by_ : Agent) (v : Word64), (s.reaches by_ Reg.CFG_RESET = true) ∧
      (s.acts by_ Reg.CFG_RESET F.CFG_RESET.BLK v.toNat = true) ∧
      (let b := bits v.toNat F.CFG_RESET.BLOCK.hi F.CFG_RESET.BLOCK.lo; (b = 17))) :=
  ⟨⟨up, by decide +kernel⟩,
    ⟨up, by decide +kernel⟩,
    ⟨ward, pf, 1#64, by decide +kernel⟩,
    ⟨ward, pf, 0xD00000100#64, by decide +kernel⟩,
    ⟨ward, pf, (BitVec.ofNat 64 (256 + 9 * 2 ^ 32)), by decide +kernel⟩,
    ⟨ward, pf, (BitVec.ofNat 64 (256 + 17 * 2 ^ 32)), by decide +kernel⟩⟩

/-- What the hypotheses of Resets ask for is met, part 2. -/
theorem wit_Resets_2 :
    (∃ (s : State) (by_ : Agent) (v : Word64), (s.reaches by_ Reg.CFG_RESET = true) ∧
      (s.acts by_ Reg.CFG_RESET F.CFG_RESET.BLK v.toNat = true) ∧
      (let b := bits v.toNat F.CFG_RESET.BLOCK.hi F.CFG_RESET.BLOCK.lo; (b = 18))) ∧
    (∃ (s : State) (b : Nat) (bs : List Nat), (s.inReset = false) ∧ (mfind s.boot.resetting b = some bs) ∧
      (s.boot.done = []) ∧ (s.inFerry = false) ∧ (b = 13)) :=
  ⟨⟨ward, pf, (BitVec.ofNat 64 (256 + 18 * 2 ^ 32)), by decide +kernel⟩,
    ⟨{ up with boot := { resetting := [(13, [9])] } }, 13, [9], by decide +kernel⟩⟩

/-- What the hypotheses of StartUp ask for is met, part 1. -/
theorem wit_StartUp_1 :
    (∃ (s : State), (s.inReset = false) ∧ (s.boot.running = true) ∧ (s.boot.loading = true) ∧ (s.boot.header = [])) ∧
    (∃ (s : State), (s.inReset = false) ∧ (s.boot.loading = true) ∧ (s.boot.header ≠ []) ∧ (s.stepDone 3 = false) ∧
      (s.secServing = some 3)) ∧
    (∃ (s : State) (i : Nat), (s.inReset = false) ∧ (i < s.imageN) ∧ (s.boot.header ≠ []) ∧
      (s.boot.done.contains i = false) ∧ (s.secType i = 0x01) ∧ (s.secReady = true) ∧ (s.stepOpen 8 = true)) ∧
    (∃ (s : State) (i : Nat), (s.inReset = false) ∧ (i < s.imageN) ∧ (s.boot.header ≠ []) ∧
      (s.boot.done.contains i = false) ∧ ((s.secType i = 0x10 ∨ s.secType i = 0x12 ∨ s.secType i = 0x13)) ∧
      (s.stepOpen (stepOf (s.secType i) (s.secBlock i)) = true)) ∧
    (∃ (s : State), (s.inReset = false) ∧ (s.boot.running = true) ∧ (s.ready 4 = false) ∧
      (s.flag Reg.CFG_BOOT_STAT F.CFG_BOOT_STAT.NO_IMAGE = true) ∧ (s.boot.loading = false) ∧ (s.inFerry = false)) ∧
    (∃ (s : State) (t : Stamp), (s.inReset = false) ∧ (s.boot.keeperAt = some t) ∧ (s.stepDone 8 = false)) :=
  ⟨⟨loadingWith [] up, by decide +kernel⟩,
    ⟨(loadingWith (zeros 64) ((up.setFld Reg.SEC_STATUS F.SEC_STATUS.READY 1))), by decide +kernel⟩,
    ⟨(fun s : State => { s with boot := { s.boot with steps := [3, 5, 7] } }) (loadingWith (patch (patch (zeros 128) 12 (le 2 1)) 64 [0x01]) (up.setFld Reg.SEC_STATUS F.SEC_STATUS.READY 1)), 0, by decide +kernel⟩,
    ⟨(fun s : State => { s with boot := { s.boot with steps := [3] } }) (loadingWith (patch (patch (zeros 128) 12 (le 2 1)) 64 [0x12]) up), 0, by decide +kernel⟩,
    ⟨{ up.setFld Reg.CFG_BOOT_STAT F.CFG_BOOT_STAT.NO_IMAGE 1 with boot := { running := true } }, by decide +kernel⟩,
    ⟨{ up with boot := { keeperAt := some 0 } }, 0, by decide +kernel⟩⟩

/-- What the hypotheses of StartUp ask for is met, part 2. -/
theorem wit_StartUp_2 :
    (∃ (s : State) (t : Stamp), (s.inReset = false) ∧ (s.boot.keeperAt = some t) ∧ (s.stepDone 8 = false) ∧
      (t + 100 * millisecond ≤ s.now)) ∧
    (∃ (s : State), (s.inReset = false) ∧ (s.boot.running = true) ∧ (s.boot.loading = true) ∧ (s.secReady = false) ∧
      (s.stepDone 3 = false) ∧ (s.boot.leftAt + second ≤ s.now)) ∧
    (∃ (s : State), (s.inReset = false) ∧ (s.stepOpen 13 = true) ∧ (s.boot.cmdFail = none) ∧ (s.tab.move = none) ∧
      (s.boot.cmds.length = (s.cmdSections.map (·.2)).sum) ∧ (s.cmdsOk s.cmdSections s.boot.cmds = none)) :=
  ⟨⟨atMs 100 { up with boot := { keeperAt := some 0 } }, 0, by decide +kernel⟩,
    ⟨atMs 1000 (loadingWith [] up), by decide +kernel⟩,
    ⟨(fun s : State => { s with boot := { s.boot with steps := [8, 9, 10, 11, 12] } }) (loadingWith [] up), by decide +kernel⟩⟩

/-- What the hypotheses of NvmInterface ask for is met, part 1. -/
theorem wit_NvmInterface_1 :
    (∃ (s : State) (by_ : Agent) (v : Word64) (op : Nat) (i : Instr), (s.reaches by_ Reg.CFG_NVM_CMD = true) ∧
      ((i = .nvmRead by_ v ∧ op = 1 ∨ i = .nvmErase by_ v ∧ op = 2 ∨ i = .nvmProgram by_ v ∧ op = 3))) ∧
    (∃ (s : State) (by_ : Agent) (v : Word64) (op : Nat) (i : Instr), (s.reaches by_ Reg.CFG_NVM_CMD = true) ∧
      ((i = .nvmRead by_ v ∧ op = 1 ∨ i = .nvmErase by_ v ∧ op = 2 ∨ i = .nvmProgram by_ v ∧ op = 3))) ∧
    (∃ (s : State) (by_ : Agent) (v : Word64) (op : Nat) (i : Instr), (s.reaches by_ Reg.CFG_NVM_CMD = true) ∧
      ((i = .nvmRead by_ v ∧ op = 1 ∨ i = .nvmErase by_ v ∧ op = 2 ∨ i = .nvmProgram by_ v ∧ op = 3))) ∧
    (∃ (s : State) (by_ : Agent) (v : Word64) (op : Nat) (i : Instr), (s.reaches by_ Reg.CFG_NVM_CMD = true) ∧
      ((i = .nvmRead by_ v ∧ op = 1 ∨ i = .nvmErase by_ v ∧ op = 2 ∨ i = .nvmProgram by_ v ∧ op = 3)) ∧
      (s.flag Reg.CFG_NVM_CTL F.CFG_NVM_CTL.BUSY = true)) ∧
    (∃ (s : State) (by_ : Agent) (v : Word64) (op : Nat) (i : Instr), (s.reaches by_ Reg.CFG_NVM_CMD = true) ∧
      ((i = .nvmRead by_ v ∧ op = 1 ∨ i = .nvmErase by_ v ∧ op = 2 ∨ i = .nvmProgram by_ v ∧ op = 3)) ∧
      (let a := s.fld Reg.CFG_NVM_ADDR F.CFG_NVM_ADDR.ADDR; let n := bits v.toNat F.CFG_NVM_CMD.LENGTH.hi F.CFG_NVM_CMD.LENGTH.lo; (s.flag Reg.CFG_NVM_CTL F.CFG_NVM_CTL.BUSY = false) ∧ (s.isWarden by_ = true) ∧ (s.nvmRefusal op a n = 0))) ∧
    (∃ (s : State) (by_ : Agent) (v : Word64) (op : Nat) (i : Instr), (s.reaches by_ Reg.CFG_NVM_CMD = true) ∧
      ((i = .nvmRead by_ v ∧ op = 1 ∨ i = .nvmErase by_ v ∧ op = 2 ∨ i = .nvmProgram by_ v ∧ op = 3)) ∧
      (let a := s.fld Reg.CFG_NVM_ADDR F.CFG_NVM_ADDR.ADDR; let n := bits v.toNat F.CFG_NVM_CMD.LENGTH.hi F.CFG_NVM_CMD.LENGTH.lo; (s.flag Reg.CFG_NVM_CTL F.CFG_NVM_CTL.BUSY = false) ∧ (s.isWarden by_ = true) ∧ (s.nvmRefusal op a n ≠ 0))) :=
  ⟨⟨up, kp, 1#64, 1, .nvmRead kp 1#64, by decide +kernel⟩,
    ⟨up, kp, 2#64, 2, .nvmErase kp 2#64, by decide +kernel⟩,
    ⟨up, kp, 3#64, 3, .nvmProgram kp 3#64, by decide +kernel⟩,
    ⟨up.setFld Reg.CFG_NVM_CTL F.CFG_NVM_CTL.BUSY 1, kp, 1#64, 1, .nvmRead kp 1#64, by decide +kernel⟩,
    ⟨ward, pf, 0x101#64, 1, .nvmRead pf 0x101#64, by decide +kernel⟩,
    ⟨ward, pf, 3#64, 3, .nvmProgram pf 3#64, by decide +kernel⟩⟩

/-- What the hypotheses of NvmInterface ask for is met, part 2. -/
theorem wit_NvmInterface_2 :
    (∃ (s : State) (by_ : Agent) (v : Word64), (s.reaches by_ Reg.CFG_NVM_CMD = true) ∧ (v.toNat % 8 = 0 ∨ 3 < v.toNat % 8) ∧
      (s.flag Reg.CFG_NVM_CTL F.CFG_NVM_CTL.BUSY = false) ∧ (s.isWarden by_ = true)) ∧
    (∃ (s : State) (by_ : Agent) (v : Word64), (s.reaches by_ Reg.CFG_NVM_CMD = true) ∧ (v.toNat % 8 = 0 ∨ 3 < v.toNat % 8) ∧
      (s.flag Reg.CFG_NVM_CTL F.CFG_NVM_CTL.BUSY = false) ∧ (s.isWarden by_ = true)) ∧
    (∃ (s : State) (status : Nat) (op : Nat) (a : Nat) (host : Nat) (n : Nat), (s.inReset = false) ∧
      (s.boot.nvmOp = some (op, a, host, n)) ∧ ((status = 1 ∨ status = 4 ∨ status = 5))) ∧
    (∃ (s : State) (by_ : Agent), (s.reaches by_ Reg.CFG_NVM_CTL = true) ∧ (s.isWarden by_ = true)) :=
  ⟨⟨ward, pf, 4#64, by decide +kernel⟩,
    ⟨ward, pf, 0#64, by decide +kernel⟩,
    ⟨{ up with boot := { nvmOp := some (1, 0, 0, 1) } }, 5, 1, 0, 0, 1, by decide +kernel⟩,
    ⟨ward, pf, by decide +kernel⟩⟩

/-- What the hypotheses of TimeServoWrites ask for is met, part 1. -/
theorem wit_TimeServoWrites_1 :
    (∃ (s : State) (by_ : Agent), (s.reaches by_ Reg.TIM_STEP = true) ∧ (s.servoOwner by_ = true) ∧ (s.tq ≤ 1)) ∧
    (∃ (s : State) (by_ : Agent), (s.reaches by_ Reg.TIM_STEP = true) ∧ (s.servoOwner by_ = true) ∧ (2 ≤ s.tq)) ∧
    (∃ (s : State) (by_ : Agent), (s.reaches by_ Reg.TIM_STEP = true) ∧ (s.servoOwner by_ = false)) ∧
    (∃ (s : State) (by_ : Agent), (s.reaches by_ Reg.TIM_SLEW = true)) ∧
    (∃ (s : State) (by_ : Agent), (s.reaches by_ Reg.TIM_INCR = true)) ∧
    (∃ (s : State) (by_ : Agent), (s.reaches by_ Reg.TIM_PTP_OFS = true) ∧ (s.servoOwner by_ = true)) :=
  ⟨⟨up, kp, by decide +kernel⟩,
    ⟨up.setFld Reg.TIM_STATE F.TIM_STATE.TQ 2, kp, by decide +kernel⟩,
    ⟨ward, pf, by decide +kernel⟩,
    ⟨up, kp, by decide +kernel⟩,
    ⟨up, kp, by decide +kernel⟩,
    ⟨up, kp, by decide +kernel⟩⟩

/-- What the hypotheses of TimeServoWrites ask for is met, part 2. -/
theorem wit_TimeServoWrites_2 :
    (∃ (s : State) (by_ : Agent), (s.reaches by_ Reg.TIM_PTP_OFS = true) ∧ (s.servoOwner by_ = false)) ∧
    (∃ (s : State) (by_ : Agent) (v : Word64), (s.reaches by_ Reg.TIM_CTRL = true) ∧
      (s.acts by_ Reg.TIM_CTRL F.TIM_CTRL.FREE_RUN v.toNat = true)) :=
  ⟨⟨ward, pf, by decide +kernel⟩,
    ⟨ward, pf, 0x8000000000#64, by decide +kernel⟩⟩

/-- What the hypotheses of TimeReferences ask for is met, part 1. -/
theorem wit_TimeReferences_1 :
    (∃ (s : State) (i : Nat), (s.inReset = false) ∧ (i < 2)) ∧
    (∃ (s : State) (i : Nat), (s.inReset = false) ∧ (i < 2) ∧ (s.refPrios.contains (i + 1) = true) ∧
      ((mget {} s.tim.pps i).since + 11 * second / 10 ≤ s.now) ∧ ((mget {} s.tim.pps i).missing = false)) ∧
    (∃ (s : State), (s.inReset = false) ∧ (s.tim.freqAt ≠ some (s.now / (100 * millisecond)))) ∧
    (∃ (s : State), (s.inReset = false) ∧ (s.refInUse ≠ 0) ∧ ((s.tq = 1 ∨ s.tq = 2 ∨ s.tq = 3)) ∧
      (s.tim.lastUpdate + s.cfgFld Reg.TIM_TRACK_CFG F.TIM_TRACK_CFG.LOSS_COUNT * s.updateInterval s.refInUse ≤ s.now)) ∧
    (∃ (s : State), (s.inReset = false) ∧ (s.tq = 4) ∧ (s.tim.holdEntry + second ≤ s.now)) ∧
    (∃ (s : State) (first : List Nat) (rest : List Nat) (c : Nat) (t : Stamp), (s.inReset = false) ∧
      (s.cfgFlag Reg.TIM_REF_CFG F.TIM_REF_CFG.REVERTIVE = true) ∧ (s.refInUse ≠ 0) ∧ (s.refNamed s.refInUse = true) ∧
      (s.refPrios = first ++ c :: rest) ∧ (c ≠ 0) ∧ (c ≠ s.refInUse) ∧ (s.refInUse ∉ first) ∧
      (mfind s.tim.refSince c = some t) ∧ (t + 10 * second ≤ s.now) ∧
      ((∀ r ∈ first, r = 0 ∨ ∀ x, mfind s.tim.refSince r = some x → s.now < x + 10 * second))) :=
  ⟨⟨up, 1, by decide +kernel⟩,
    ⟨atMs 1100 (up.setFld Reg.TIM_REF_CFG F.TIM_REF_CFG.PRIO0 2 |> forced Reg.TIM_REF_CFG 2), 1, by decide +kernel⟩,
    ⟨up, by decide +kernel⟩,
    ⟨atMs 100000000 ((up.setFld Reg.TIM_STATE F.TIM_STATE.REF_IN_USE 1).setFld Reg.TIM_STATE F.TIM_STATE.TQ 3), by decide +kernel⟩,
    ⟨atMs 1000 (up.setFld Reg.TIM_STATE F.TIM_STATE.TQ 4), by decide +kernel⟩,
    ⟨atMs 10000 { (forced Reg.TIM_REF_CFG (2 ^ 16 + 1 + 2 * 16) up).setFld Reg.TIM_STATE F.TIM_STATE.REF_IN_USE 2 with tim := { refSince := [(1, 0)] } }, [], [2, 0, 0], 1, 0, by decide +kernel⟩⟩

/-- What the hypotheses of TimeReferences ask for is met, part 2. -/
theorem wit_TimeReferences_2 :
    (∃ (s : State) (i : Nat), (s.inReset = false) ∧ (i < 2) ∧ (bitOf (s.rd (ppsOutReg i)) 0 = true) ∧
      (let ofs : Int := asInt 32 (bits (s.rd (ppsOutReg i)) 39 8) * 65536; let k := (((s.now : Int) - ofs) / (second : Int)).toNat; ((∀ w, mfind s.tim.ppsOutOn i = some w → w / second + 1 ≤ k)) ∧ (mfind s.tim.ppsOutLast i ≠ some k))) ∧
    (∃ (s : State) (i : Nat) (t : Stamp), (s.inReset = false) ∧ (i < 2) ∧ (mfind s.tim.ppsOutHigh i = some t) ∧ (t ≤ s.now)) :=
  ⟨⟨atMs 1000 (up.wr Reg.TIM_PPS_OUT1 1), 1, by decide +kernel⟩,
    ⟨{ up with tim := { ppsOutHigh := [(1, 0)] } }, 1, 0, by decide +kernel⟩⟩

/-- What the hypotheses of TimeLampsAndCalibration ask for is met, part 1. -/
theorem wit_TimeLampsAndCalibration_1 :
    (∃ (s : State), (s.inReset = false) ∧ (s.tim.lampNext ≤ s.tim.cycles)) ∧
    (∃ (s : State) (q : Nat) (v : Nat), (s.inReset = false) ∧ (q < 129) ∧ ((mget ({} : LampQuad) s.tim.lamps q).v = some v) ∧
      (let lq := mget ({} : LampQuad) s.tim.lamps q; (lq.reload = true))) ∧
    (∃ (s : State) (q : Nat) (v : Nat), (s.inReset = false) ∧ (q < 129) ∧ ((mget ({} : LampQuad) s.tim.lamps q).v = some v) ∧
      (let lq := mget ({} : LampQuad) s.tim.lamps q; (lq.reload = false))) ∧
    (∃ (s : State) (q : Nat), (s.inReset = false) ∧ (q < 129)) ∧
    (∃ (s : State) (l : Nat), (s.inReset = false) ∧ (l < 514) ∧
      (isDue ((mget ({} : LaneCal) s.tim.cals l).measured) (s.cfgFld Reg.TIM_CAL_CFG F.TIM_CAL_CFG.PERIOD_S * second) s.now = true)) ∧
    (∃ (s : State), (s.inReset = false) ∧ (s.tim.slewedAt ≠ some (s.now / (second / 64)))) :=
  ⟨⟨{ up with tim := { cycles := 819 } }, by decide +kernel⟩,
    ⟨{ up with tim := { lamps := [(128, { v := some 5, reload := true })] } }, 128, 5, by decide +kernel⟩,
    ⟨{ up with tim := { lamps := [(128, { v := some 5, reload := false })] } }, 128, 5, by decide +kernel⟩,
    ⟨up, 128, by decide +kernel⟩,
    ⟨up, 513, by decide +kernel⟩,
    ⟨up, by decide +kernel⟩⟩

/-- What the hypotheses of TimeLampsAndCalibration ask for is met, part 2. -/
theorem wit_TimeLampsAndCalibration_2 :
    (∃ (s : State) (l : Nat), (s.inReset = false) ∧ (l < 514) ∧ (s.calWorn l = true) ∧
      ((mget ({} : LaneCal) s.tim.cals l).stale = false)) :=
  ⟨atMs (604801 * 1000) up, 513, by decide +kernel⟩

/-- What the hypotheses of PortWrites ask for is met. -/
theorem wit_PortWrites :
    (∃ (s : State) (by_ : Agent) (p : Nat) (v : Word64), (p < 514) ∧ (s.portExists p = true) ∧
      (s.reaches by_ (Reg.PRT_CFG p) = true) ∧ (v.toNat % 2 = 1)) ∧
    (∃ (s : State) (by_ : Agent) (o : Nat), (o < 64) ∧ (s.reaches by_ (Reg.PRT_OCTET o) = true)) ∧
    (∃ (s : State) (by_ : Agent) (p : Nat), (p < 514) ∧ (s.portExists p = true) ∧ (s.reaches by_ (Reg.PRT_CFG p) = true) ∧
      (s.flag (Reg.PRT_CFG p) F.PRT_CFG.EN = true) ∧ ((s.portSt p).inFlight = 0)) ∧
    (∃ (s : State) (by_ : Agent) (p : Nat), (p < 514) ∧ (s.portExists p = true) ∧ (s.reaches by_ (Reg.PRT_CFG p) = true) ∧
      (s.flag (Reg.PRT_CFG p) F.PRT_CFG.EN = true) ∧ ((s.portSt p).inFlight ≠ 0)) ∧
    (∃ (s : State) (by_ : Agent) (p : Nat), (p < 514) ∧ (s.portExists p = true) ∧ (s.reaches by_ (Reg.PRT_CFG p) = true) ∧
      ((s.egress p).due = []) ∧ ((s.egress p).staging = [])) ∧
    (∃ (s : State) (p : Nat), (s.inReset = false) ∧ (p < 514) ∧ (s.portExists p = true)) :=
  ⟨⟨up, kp, 513, 1#64, by decide +kernel⟩,
    ⟨up, kp, 63, by decide +kernel⟩,
    ⟨enabled 513 up, kp, 513, by decide +kernel⟩,
    ⟨{ enabled 513 up with ports := [(513, { inFlight := 1 })] }, kp, 513, by decide +kernel⟩,
    ⟨up, kp, 513, by decide +kernel⟩,
    ⟨up, 513, by decide +kernel⟩⟩

/-- What the hypotheses of LinkChanges ask for is met. -/
theorem wit_LinkChanges :
    (∃ (s : State) (p : Nat), (s.inReset = false) ∧ (p < 514) ∧ (s.portExists p = true) ∧
      (s.flag (Reg.PRT_CFG p) F.PRT_CFG.EN = true) ∧ (s.flag (Reg.PRT_CFG p) F.PRT_CFG.AN_EN = true) ∧ (s.linkUp p = false)) ∧
    (∃ (s : State) (p : Nat), (s.inReset = false) ∧ (p < 514) ∧ (s.portExists p = true) ∧
      (s.flag (Reg.PRT_CFG p) F.PRT_CFG.EN = true) ∧ (s.phyOf p ≠ 0) ∧ (s.linkUp p = false) ∧
      ((s.flag (Reg.PRT_CFG p) F.PRT_CFG.AN_EN = true → s.flag (Reg.PRT_STATUS p) F.PRT_STATUS.AN_DONE = true ∧ s.flag (Reg.PRT_STATUS p) F.PRT_STATUS.TRAIN_DONE = true)) ∧
      (s.fecOf p ≠ 0)) ∧
    (∃ (s : State) (p : Nat), (s.inReset = false) ∧ (p < 514) ∧ (s.portExists p = true) ∧ (s.linkUp p = true)) ∧
    (∃ (s : State) (l : Nat), (s.inReset = false) ∧ (l < 514)) ∧
    (∃ (s : State) (p : Nat), (s.inReset = false) ∧ (p < 514) ∧ (s.portExists p = true)) :=
  ⟨⟨enabled 513 (up.setFld (Reg.PRT_CFG 513) F.PRT_CFG.AN_EN 1), 513, by decide +kernel⟩,
    ⟨enabled 0 ((up.setFld (Reg.PRT_CFG 0) F.PRT_CFG.PHY 1).setFld (Reg.PRT_CFG 0) F.PRT_CFG.FEC 1), 0, by decide +kernel⟩,
    ⟨linked 513 up, 513, by decide +kernel⟩,
    ⟨up, 513, by decide +kernel⟩,
    ⟨up, 513, by decide +kernel⟩⟩

/-- What the hypotheses of ReceivedFrames ask for is met, part 1. -/
theorem wit_ReceivedFrames_1 :
    (∃ (s : State) (port : Nat) (lane : Nat) (d : Nat) (phi : Int) (n : Nat), (s.inReset = false) ∧ (port < 514) ∧
      (lane < 514) ∧
      (let w := s.commitDue (s.rxStamp port lane d phi n); (w.portExists port = true) ∧ (w.portOfLane lane = port) ∧ (w.linkUp port = true) ∧ (w.portHalted port = false) ∧ ((w.portSt port).stopping = false) ∧ (w.deaf port = false) ∧ (w.inFerry = false) ∧ (w.receivingOf port = none))) ∧
    (∃ (s : State) (port : Nat) (bytes : Bytes) (err : Bool) (id : Nat) (p : Packet), (s.inReset = false) ∧ (port < 514) ∧
      (s.receivingOf port = some (id, p)) ∧ (s.loopback port = false) ∧
      (let l := bytes.length; let fcsBad := err || bytes.drop (l - 4) != fcs (bytes.take (l - 4)); let bad := decide (l < 64) || decide (s.cfgAtFld (Reg.PRT_CFG port) F.PRT_CFG.MTU p.ver p.stamp < l) || fcsBad; ((p.stage ≠ .receiving ∨ bad = false)) ∧ (p.stage ≠ .stored))) ∧
    (∃ (s : State) (port : Nat) (bytes : Bytes) (err : Bool) (id : Nat) (p : Packet), (s.inReset = false) ∧ (port < 514) ∧
      (s.receivingOf port = some (id, p)) ∧ (s.loopback port = false) ∧
      (let l := bytes.length; let fcsBad := err || bytes.drop (l - 4) != fcs (bytes.take (l - 4)); let bad := decide (l < 64) || decide (s.cfgAtFld (Reg.PRT_CFG port) F.PRT_CFG.MTU p.ver p.stamp < l) || fcsBad; (p.stage = .receiving) ∧ (bad = true) ∧ (p.refs = 0) ∧ (p.cpu = []))) ∧
    (∃ (s : State) (port : Nat) (head : Bytes) (id : Nat) (p : Packet), (s.inReset = false) ∧ (port < 514) ∧
      ((s.portFrames port).find? (fun e => e.2.stage == .receiving) = some (id, p)) ∧ (s.loopback port = false) ∧
      ((p.ended = true ∨ p.depth ≤ head.length))) ∧
    (∃ (s : State) (port : Nat) (head : Bytes) (id : Nat) (p : Packet), (s.inReset = false) ∧ (port < 514) ∧
      ((s.portFrames port).find? (fun e => e.2.stage == .receiving) = some (id, p)) ∧ (s.loopback port = false) ∧
      ((p.ended = true ∨ p.depth ≤ head.length))) ∧
    (∃ (s : State) (sl : Nat) (id : Nat) (rest : List Nat) (p : Packet), (s.inReset = false) ∧ (sl < 16) ∧
      (s.dispatchQ sl = id :: rest) ∧ (mfind s.pkts id = some p) ∧ ((∃ i, i < 96 ∧ s.bargeFree (96 * sl + i) = true))) :=
  ⟨⟨(linked 513 up), 513, 513, 0, 0, 0, by decide +kernel⟩,
    ⟨packet { port := 513, stage := .dispatch } up, 513, zeros 64, false, 0, { port := 513, stage := .dispatch }, by decide +kernel⟩,
    ⟨packet { port := 513 } up, 513, zeros 63, false, 0, { port := 513 }, by decide +kernel⟩,
    ⟨packet { port := 513, ended := true } up, 513, [], 0, { port := 513, ended := true }, by decide +kernel⟩,
    ⟨packet { port := 513, depth := 64 } up, 513, zeros 64, 0, { port := 513, depth := 64 }, by decide +kernel⟩,
    ⟨(fun s : State => { s with prs := { queues := [(15, [0])] } }) (packet { port := 500, stage := .dispatch } up), 15, 0, [], { port := 500, stage := .dispatch }, by decide +kernel⟩⟩

/-- What the hypotheses of ReceivedFrames ask for is met, part 2. -/
theorem wit_ReceivedFrames_2 :
    (∃ (s : State) (port : Nat) (id : Nat) (p : Packet) (rest : List (Nat × Packet)), (s.inReset = false) ∧ (port < 514) ∧
      (s.portFrames port = (id, p) :: rest) ∧ (p.stage ≠ .closed)) ∧
    (∃ (s : State) (port : Nat) (id : Nat) (p : Packet) (rest : List (Nat × Packet)), (s.inReset = false) ∧ (port < 514) ∧
      (s.portFrames port = (id, p) :: rest) ∧ (p.stage = .closed) ∧ (p.excAction = 1)) ∧
    (∃ (s : State) (port : Nat) (id : Nat) (p : Packet) (rest : List (Nat × Packet)), (s.inReset = false) ∧ (port < 514) ∧
      (s.portFrames port = (id, p) :: rest) ∧ (p.stage = .closed) ∧ (p.excAction = 2)) ∧
    (∃ (s : State) (port : Nat) (id : Nat) (p : Packet) (rest : List (Nat × Packet)), (s.inReset = false) ∧ (port < 514) ∧
      (s.portFrames port = (id, p) :: rest) ∧ (p.stage = .closed) ∧ (p.excAction = 0) ∧ (mfind s.pkts id = some p) ∧
      (p.ended = true) ∧ (p.refs = 0) ∧ (p.cpu = [])) ∧
    (∃ (s : State) (id : Nat) (p : Packet), (s.inReset = false) ∧ (mfind s.pkts id = some p) ∧ (p.stage = .lookup) ∧
      (s.inTurn id [] = true)) ∧
    (∃ (s : State) (port : Nat) (lane : Nat) (d : Nat) (phi : Int) (n : Nat), (s.inReset = false) ∧ (port < 514) ∧
      (lane < 514) ∧
      (let w := s.commitDue (s.rxStamp port lane d phi n); (w.portExists port = true) ∧ (w.portOfLane lane = port) ∧ (w.linkUp port = true) ∧ (w.portHalted port = false) ∧ ((w.portSt port).stopping = false) ∧ (w.deaf port = false) ∧ (w.inFerry = false) ∧ (w.receivingOf port = none) ∧ (w.exportPort port = false) ∧ (w.towPort port = false) ∧ (let t := w.rxStamp port lane d phi n; ((if w.ready (16 + parseSlice port) = false ∨ w.ready 13 = false then 0 else w.versionAt t) = 0)))) :=
  ⟨⟨packet { port := 513, stage := .receiving } up, 513, 0, { port := 513, stage := .receiving }, [], by decide +kernel⟩,
    ⟨packet { port := 513, stage := .closed } up, 513, 0, { port := 513, stage := .closed }, [], by decide +kernel⟩,
    ⟨packet { port := 513, stage := .closed, excAction := 2 } up, 513, 0, { port := 513, stage := .closed, excAction := 2 }, [], by decide +kernel⟩,
    ⟨packet { port := 513, stage := .closed, excAction := 0, ended := true } up, 513, 0, { port := 513, stage := .closed, excAction := 0, ended := true }, [], by decide +kernel⟩,
    ⟨packet { port := 513, stage := .lookup } up, 0, { port := 513, stage := .lookup }, by decide +kernel⟩,
    ⟨(linked 513 up), 513, 513, 0, 0, 0, by decide +kernel⟩⟩

/-- What the hypotheses of ReceivedFrames ask for is met, part 3. -/
theorem wit_ReceivedFrames_3 :
    (∃ (s : State) (port : Nat) (lane : Nat) (d : Nat) (phi : Int) (n : Nat), (s.inReset = false) ∧ (port < 514) ∧
      (lane < 514) ∧
      (let w := s.commitDue (s.rxStamp port lane d phi n); (w.portExists port = true) ∧ (w.portOfLane lane = port) ∧ (w.linkUp port = true) ∧ (w.portHalted port = false) ∧ ((w.portSt port).stopping = false) ∧ (w.deaf port = false) ∧ (w.inFerry = false) ∧ (w.receivingOf port = none) ∧ (w.exportPort port = false) ∧ (w.towPort port = false) ∧ (let t := w.rxStamp port lane d phi n; ((if w.ready (16 + parseSlice port) = false ∨ w.ready 13 = false then 0 else w.versionAt t) ≠ 0)))) :=
  ⟨(fun s : State => { s with ver := { s.ver with commits := [(5, 0)] } }) ((linked 513 up).wr Reg.CFG_READY (2 ^ 64 - 1)), 513, 513, 0, 0, 0, by decide +kernel⟩

/-- What the hypotheses of ArithmeticWords ask for is met, part 1. -/
theorem wit_ArithmeticWords_1 :
    (∃ (s : State) (n : Nat) (errs : Nat) (p : Packet) (b : Barge) (w : Microword), (s.runsNext n 0x09 p b w) ∧ (errs ≠ 2)) ∧
    (∃ (s : State) (n : Nat) (errs : Nat) (p : Packet) (b : Barge) (w : Microword), (s.runsNext n 0x0A p b w) ∧ (errs ≠ 2)) ∧
    (∃ (s : State) (n : Nat) (errs : Nat) (p : Packet) (b : Barge) (w : Microword), (s.runsNext n 0x01 p b w) ∧ (errs ≠ 2)) ∧
    (∃ (s : State) (n : Nat) (errs : Nat) (p : Packet) (b : Barge) (w : Microword), (s.runsNext n 0x00 p b w) ∧ (errs ≠ 2)) ∧
    (∃ (s : State) (n errs : Nat) (p : Packet) (b : Barge) (w : Microword) (i : Instr) (f : Word64 → Word64 → Word64) (carry : Word64 → Word64 → Bool), (s.runsNext n 0x02 p b w) ∧
      errs ≠ 2 ∧ i = .add n errs ∧ (∀ x y, f x y = x + y) ∧ (∀ x y, carry x y = decide (2 ^ 64 ≤ x.toNat + y.toNat))) ∧
    (∃ (s : State) (n errs : Nat) (p : Packet) (b : Barge) (w : Microword) (i : Instr) (f : Word64 → Word64 → Word64) (carry : Word64 → Word64 → Bool), (s.runsNext n 0x03 p b w) ∧
      errs ≠ 2 ∧ i = .sub n errs ∧ (∀ x y, f x y = x - y) ∧ (∀ x y, carry x y = decide (x.toNat < y.toNat))) :=
  ⟨⟨running 0x09, 0, 0, pktNow, bargeNow, wordOf 0x09, by simp only [State.runsNext]; decide +kernel⟩,
    ⟨running 0x0A, 0, 0, pktNow, bargeNow, wordOf 0x0A, by simp only [State.runsNext]; decide +kernel⟩,
    ⟨running 0x01, 0, 0, pktNow, bargeNow, wordOf 0x01, by simp only [State.runsNext]; decide +kernel⟩,
    ⟨running 0x00, 0, 0, pktNow, bargeNow, wordOf 0x00, by simp only [State.runsNext]; decide +kernel⟩,
    ⟨running 0x02, 0, 1, pktNow, bargeNow, wordOf 0x02, .add 0 1, fun x y => x + y, fun x y => decide (2 ^ 64 ≤ x.toNat + y.toNat), by simp only [State.runsNext]; decide +kernel, by decide, rfl, fun _ _ => rfl, fun _ _ => rfl⟩,
    ⟨running 0x03, 0, 1, pktNow, bargeNow, wordOf 0x03, .sub 0 1, fun x y => x - y, fun x y => decide (x.toNat < y.toNat), by simp only [State.runsNext]; decide +kernel, by decide, rfl, fun _ _ => rfl, fun _ _ => rfl⟩⟩

/-- What the hypotheses of ArithmeticWords ask for is met, part 2. -/
theorem wit_ArithmeticWords_2 :
    (∃ (s : State) (n errs : Nat) (p : Packet) (b : Barge) (w : Microword) (i : Instr) (f : Word64 → Word64 → Word64) (carry : Word64 → Word64 → Bool), (s.runsNext n 0x04 p b w) ∧
      errs ≠ 2 ∧ i = .and n errs ∧ (∀ x y, f x y = x &&& y) ∧ (∀ x y, carry x y = false)) ∧
    (∃ (s : State) (n errs : Nat) (p : Packet) (b : Barge) (w : Microword) (i : Instr) (f : Word64 → Word64 → Word64) (carry : Word64 → Word64 → Bool), (s.runsNext n 0x05 p b w) ∧
      errs ≠ 2 ∧ i = .or n errs ∧ (∀ x y, f x y = x ||| y) ∧ (∀ x y, carry x y = false)) ∧
    (∃ (s : State) (n errs : Nat) (p : Packet) (b : Barge) (w : Microword) (i : Instr) (f : Word64 → Word64 → Word64) (carry : Word64 → Word64 → Bool), (s.runsNext n 0x06 p b w) ∧
      errs ≠ 2 ∧ i = .xor n errs ∧ (∀ x y, f x y = x ^^^ y) ∧ (∀ x y, carry x y = false)) ∧
    (∃ (s : State) (n errs : Nat) (p : Packet) (b : Barge) (w : Microword) (i : Instr) (f : Word64 → Word64 → Word64) (carry : Word64 → Word64 → Bool), (s.runsNext n 0x07 p b w) ∧
      errs ≠ 2 ∧ i = .shl n errs ∧ (∀ x y, f x y = x <<< (y.toNat % 64)) ∧ (∀ x y, carry x y = false)) ∧
    (∃ (s : State) (n errs : Nat) (p : Packet) (b : Barge) (w : Microword) (i : Instr) (f : Word64 → Word64 → Word64) (carry : Word64 → Word64 → Bool), (s.runsNext n 0x08 p b w) ∧
      errs ≠ 2 ∧ i = .shr n errs ∧ (∀ x y, f x y = x >>> (y.toNat % 64)) ∧ (∀ x y, carry x y = false)) :=
  ⟨⟨running 0x04, 0, 1, pktNow, bargeNow, wordOf 0x04, .and 0 1, fun x y => x &&& y, fun _ _ => false, by simp only [State.runsNext]; decide +kernel, by decide, rfl, fun _ _ => rfl, fun _ _ => rfl⟩,
    ⟨running 0x05, 0, 1, pktNow, bargeNow, wordOf 0x05, .or 0 1, fun x y => x ||| y, fun _ _ => false, by simp only [State.runsNext]; decide +kernel, by decide, rfl, fun _ _ => rfl, fun _ _ => rfl⟩,
    ⟨running 0x06, 0, 1, pktNow, bargeNow, wordOf 0x06, .xor 0 1, fun x y => x ^^^ y, fun _ _ => false, by simp only [State.runsNext]; decide +kernel, by decide, rfl, fun _ _ => rfl, fun _ _ => rfl⟩,
    ⟨running 0x07, 0, 1, pktNow, bargeNow, wordOf 0x07, .shl 0 1, fun x y => x <<< (y.toNat % 64), fun _ _ => false, by simp only [State.runsNext]; decide +kernel, by decide, rfl, fun _ _ => rfl, fun _ _ => rfl⟩,
    ⟨running 0x08, 0, 1, pktNow, bargeNow, wordOf 0x08, .shr 0 1, fun x y => x >>> (y.toNat % 64), fun _ _ => false, by simp only [State.runsNext]; decide +kernel, by decide, rfl, fun _ _ => rfl, fun _ _ => rfl⟩⟩

/-- What the hypotheses of ManifestWords ask for is met. -/
theorem wit_ManifestWords :
    (∃ (s : State) (n : Nat) (errs : Nat) (p : Packet) (b : Barge) (w : Microword), (s.runsNext n 0x0B p b w) ∧ (errs ≠ 2) ∧
      (b.man.length = 64)) ∧
    (∃ (s : State) (n : Nat) (errs : Nat) (p : Packet) (b : Barge) (w : Microword), ∃ m, (s.runsNext n 0x0C p b w) ∧
      (errs ≠ 2) ∧ (b.msgs.getLast? = some m)) ∧
    (∃ (s : State) (n : Nat) (errs : Nat) (p : Packet) (b : Barge) (w : Microword), (s.runsNext n 0x0D p b w) ∧ (errs ≠ 2)) ∧
    (∃ (s : State) (n : Nat) (errs : Nat) (p : Packet) (b : Barge) (w : Microword), (s.runsNext n 0x0E p b w) ∧ (errs ≠ 2)) ∧
    (∃ (s : State) (n : Nat) (errs : Nat) (p : Packet) (b : Barge) (w : Microword), (s.runsNext n 0x12 p b w) ∧ (errs ≠ 2)) :=
  ⟨⟨running 0x0B, 0, 0, pktNow, bargeNow, wordOf 0x0B, by simp only [State.runsNext]; decide +kernel⟩,
    ⟨(fun s : State => { s with prs := { s.prs with barges := [(0, { bargeNow with cursor := 7, msgs := [(6, 0)] })] } }) (running 0x0C), 0, 0, pktNow, { bargeNow with cursor := 7, msgs := [(6, 0)] }, wordOf 0x0C, (6, 0), by simp only [State.runsNext]; decide +kernel⟩,
    ⟨running 0x0D, 0, 0, pktNow, bargeNow, wordOf 0x0D, by simp only [State.runsNext]; decide +kernel⟩,
    ⟨running 0x0E, 0, 0, pktNow, bargeNow, wordOf 0x0E, by simp only [State.runsNext]; decide +kernel⟩,
    ⟨running 0x12, 0, 0, pktNow, bargeNow, wordOf 0x12, by simp only [State.runsNext]; decide +kernel⟩⟩

/-- What the hypotheses of ScratchpadWords ask for is met, part 1. -/
theorem wit_ScratchpadWords_1 :
    (∃ (s : State) (n errs : Nat) (p : Packet) (b : Barge) (w : Microword) (i : Instr) (f : Nat → Nat → Nat) (held waits ecc : Nat), (s.runsNext n 0x0F p b w) ∧
      errs ≠ 2 ∧ b.cycles + s.wordCycles b w + min 8 held ≤ s.runLimit (n / 96) p ∧ i = .scprd n errs held waits ecc ∧
      (∀ x y, f x y = x)) ∧
    (∃ (s : State) (n errs : Nat) (p : Packet) (b : Barge) (w : Microword) (i : Instr) (f : Nat → Nat → Nat) (held waits ecc : Nat), (s.runsNext n 0x10 p b w) ∧
      errs ≠ 2 ∧ b.cycles + s.wordCycles b w + min 8 held ≤ s.runLimit (n / 96) p ∧ i = .scpadd n errs held waits ecc ∧
      (∀ x y, f x y = (x + y) % 2 ^ 64)) ∧
    (∃ (s : State) (n errs : Nat) (p : Packet) (b : Barge) (w : Microword) (i : Instr) (f : Nat → Nat → Nat) (held waits ecc : Nat), (s.runsNext n 0x11 p b w) ∧
      errs ≠ 2 ∧ b.cycles + s.wordCycles b w + min 8 held ≤ s.runLimit (n / 96) p ∧ i = .scpswp n errs held waits ecc ∧
      (∀ x y, f x y = y)) ∧
    (∃ (s : State) (n : Nat) (p : Packet) (b : Barge) (w : Microword) (held : Nat), (s.runsNext n 0x0F p b w) ∧
      b.cycles + s.wordCycles b w + min 8 held ≤ s.runLimit (n / 96) p ∧
      (let a := (greg b (Word.srcA w)).toNat; a % 8 ≠ 0 ∨ 0x200_0000 ≤ a)) ∧
    (∃ (s : State) (n : Nat) (p : Packet) (b : Barge) (w : Microword) (held : Nat), (s.runsNext n 0x0F p b w) ∧
      b.cycles + s.wordCycles b w + min 8 held ≤ s.runLimit (n / 96) p ∧
      (let a := (greg b (Word.srcA w)).toNat; let bank := scpBank a; a % 8 = 0 ∧ a < 0x200_0000 ∧ s.scpOwns (n / 96 + 1) bank = false)) ∧
    (∃ (s : State) (n : Nat) (p : Packet) (b : Barge) (w : Microword) (held : Nat), (s.runsNext n 0x0F p b w) ∧
      b.cycles + s.wordCycles b w + min 8 held ≤ s.runLimit (n / 96) p ∧
      (let a := (greg b (Word.srcA w)).toNat; let bank := scpBank a; a % 8 = 0 ∧ a < 0x200_0000 ∧ s.scpOwns (n / 96 + 1) bank = true ∧ 8 < held)) :=
  ⟨⟨running 0x0F, 0, 1, pktNow, bargeNow, wordOf 0x0F, .scprd 0 1 9 0 0, fun x _ => x, 9, 0, 0, by simp only [State.runsNext]; decide +kernel, by decide, by decide +kernel, rfl, fun _ _ => rfl⟩,
    ⟨running 0x10, 0, 1, pktNow, bargeNow, wordOf 0x10, .scpadd 0 1 9 0 0, fun x y => (x + y) % 2 ^ 64, 9, 0, 0, by simp only [State.runsNext]; decide +kernel, by decide, by decide +kernel, rfl, fun _ _ => rfl⟩,
    ⟨running 0x11, 0, 1, pktNow, bargeNow, wordOf 0x11, .scpswp 0 1 9 0 0, fun _ y => y, 9, 0, 0, by simp only [State.runsNext]; decide +kernel, by decide, by decide +kernel, rfl, fun _ _ => rfl⟩,
    ⟨(fun s : State => { s with prs := { s.prs with barges := [(0, { bargeNow with g := (List.replicate 16 0).set 0 1#64 })] } }) (running 0x0F), 0, pktNow, { bargeNow with g := (List.replicate 16 0).set 0 1#64 }, wordOf 0x0F, 0, by simp only [State.runsNext]; decide +kernel⟩,
    ⟨(fun s : State => s.setFld (Reg.SCP_OWNER 0) F.SCP_OWNER.OWNER 2) (running 0x0F), 0, pktNow, bargeNow, wordOf 0x0F, 0, by simp only [State.runsNext]; decide +kernel⟩,
    ⟨(fun s : State => s.setFld (Reg.SCP_OWNER 0) F.SCP_OWNER.OWNER 1) (running 0x0F), 0, pktNow, bargeNow, wordOf 0x0F, 9, by simp only [State.runsNext]; decide +kernel⟩⟩

/-- What the hypotheses of ScratchpadWords ask for is met, part 2. -/
theorem wit_ScratchpadWords_2 :
    (∃ (s : State) (n : Nat) (p : Packet) (b : Barge) (w : Microword) (held : Nat), (s.runsNext n 0x0F p b w) ∧
      b.cycles + s.wordCycles b w + min 8 held ≤ s.runLimit (n / 96) p ∧
      (let a := (greg b (Word.srcA w)).toNat; let bank := scpBank a; a % 8 = 0 ∧ a < 0x200_0000 ∧ s.scpOwns (n / 96 + 1) bank = true ∧ held ≤ 8 ∧ s.flag (Reg.SCP_OWNER bank) F.SCP_OWNER.BUSY = true)) ∧
    (∃ (s : State) (n : Nat) (p : Packet) (b : Barge) (w : Microword) (held ecc : Nat), (s.runsNext n 0x0F p b w) ∧
      b.cycles + s.wordCycles b w + min 8 held ≤ s.runLimit (n / 96) p ∧
      (let a := (greg b (Word.srcA w)).toNat; let bank := scpBank a; a % 8 = 0 ∧ a < 0x200_0000 ∧ s.scpOwns (n / 96 + 1) bank = true ∧ held ≤ 8 ∧ s.flag (Reg.SCP_OWNER bank) F.SCP_OWNER.BUSY = false ∧ ecc ≤ 1 ∧ s.scp.bad.contains (2048 * bank + bits a 16 0 / 64) = false)) ∧
    (∃ (s : State) (n : Nat) (p : Packet) (b : Barge) (w : Microword) (held ecc : Nat), (s.runsNext n 0x0F p b w) ∧
      b.cycles + s.wordCycles b w + min 8 held ≤ s.runLimit (n / 96) p ∧
      (let a := (greg b (Word.srcA w)).toNat; let bank := scpBank a; a % 8 = 0 ∧ a < 0x200_0000 ∧ s.scpOwns (n / 96 + 1) bank = true ∧ held ≤ 8 ∧ s.flag (Reg.SCP_OWNER bank) F.SCP_OWNER.BUSY = false ∧ (ecc = 2 ∨ s.scp.bad.contains (2048 * bank + bits a 16 0 / 64) = true))) :=
  ⟨⟨(fun s : State => s.setFld (Reg.SCP_OWNER 0) F.SCP_OWNER.BUSY 1) ((fun s : State => s.setFld (Reg.SCP_OWNER 0) F.SCP_OWNER.OWNER 1) (running 0x0F)), 0, pktNow, bargeNow, wordOf 0x0F, 8, by simp only [State.runsNext]; decide +kernel⟩,
    ⟨(fun s : State => s.setFld (Reg.SCP_OWNER 0) F.SCP_OWNER.OWNER 1) (running 0x0F), 0, pktNow, bargeNow, wordOf 0x0F, 8, 1, by simp only [State.runsNext]; decide +kernel⟩,
    ⟨(fun s : State => s.setFld (Reg.SCP_OWNER 0) F.SCP_OWNER.OWNER 1) (running 0x0F), 0, pktNow, bargeNow, wordOf 0x0F, 0, 2, by simp only [State.runsNext]; decide +kernel⟩⟩

/-- What the hypotheses of ControlWords ask for is met, part 1. -/
theorem wit_ControlWords_1 :
    (∃ (s : State) (n : Nat) (errs : Nat) (p : Packet) (b : Barge) (w : Microword), (s.runsNext n 0x13 p b w) ∧ (errs ≠ 2) ∧
      (b.stack.length < 4)) ∧
    (∃ (s : State) (n : Nat) (errs : Nat) (p : Packet) (b : Barge) (w : Microword), (s.runsNext n 0x13 p b w) ∧ (errs ≠ 2) ∧
      (4 ≤ b.stack.length)) ∧
    (∃ (s : State) (n : Nat) (errs : Nat) (p : Packet) (b : Barge) (w : Microword), (s.runsNext n 0x14 p b w) ∧ (errs ≠ 2) ∧
      (b.stack = [])) ∧
    (∃ (s : State) (n : Nat) (errs : Nat) (p : Packet) (b : Barge) (w : Microword), ∃ a, (s.runsNext n 0x14 p b w) ∧
      (errs ≠ 2) ∧ (b.stack.getLast? = some a)) ∧
    (∃ (s : State) (n : Nat) (errs : Nat) (p : Packet) (b : Barge) (w : Microword), (s.runsNext n 0x15 p b w) ∧ (errs ≠ 2)) ∧
    (∃ (s : State) (n : Nat) (errs : Nat) (p : Packet) (b : Barge) (w : Microword), (s.runsNext n 0x16 p b w) ∧ (errs ≠ 2)) :=
  ⟨⟨(fun s : State => { s with prs := { s.prs with barges := [(0, { bargeNow with stack := [5, 6, 7] })] } }) (running 0x13), 0, 0, pktNow, { bargeNow with stack := [5, 6, 7] }, wordOf 0x13, by simp only [State.runsNext]; decide +kernel⟩,
    ⟨(fun s : State => { s with prs := { s.prs with barges := [(0, { bargeNow with stack := [5, 6, 7, 8] })] } }) (running 0x13), 0, 0, pktNow, { bargeNow with stack := [5, 6, 7, 8] }, wordOf 0x13, by simp only [State.runsNext]; decide +kernel⟩,
    ⟨running 0x14, 0, 0, pktNow, bargeNow, wordOf 0x14, by simp only [State.runsNext]; decide +kernel⟩,
    ⟨(fun s : State => { s with prs := { s.prs with barges := [(0, { bargeNow with stack := [5] })] } }) (running 0x14), 0, 0, pktNow, { bargeNow with stack := [5] }, wordOf 0x14, 5, by simp only [State.runsNext]; decide +kernel⟩,
    ⟨running 0x15, 0, 0, pktNow, bargeNow, wordOf 0x15, by simp only [State.runsNext]; decide +kernel⟩,
    ⟨running 0x16, 0, 0, pktNow, bargeNow, wordOf 0x16, by simp only [State.runsNext]; decide +kernel⟩⟩

/-- What the hypotheses of ControlWords ask for is met, part 2. -/
theorem wit_ControlWords_2 :
    (∃ (s : State) (n : Nat) (errs : Nat) (p : Packet) (b : Barge) (w : Microword), (s.runsNext n 0x17 p b w) ∧ (errs ≠ 2)) ∧
    (∃ (s : State) (n : Nat) (errs : Nat) (p : Packet) (b : Barge) (w : Microword), (s.runsNext n 0x18 p b w) ∧ (errs ≠ 2)) ∧
    (∃ (s : State) (n : Nat) (errs : Nat) (p : Packet) (b : Barge) (w : Microword), (s.runsNext n 0x19 p b w) ∧ (errs ≠ 2)) ∧
    (∃ (s : State) (n : Nat) (o : Nat) (errs : Nat) (p : Packet) (b : Barge) (w : Microword), (s.runsNext n o p b w) ∧
      (errs ≠ 2) ∧ (0x1B ≤ o)) ∧
    (∃ (s : State) (n : Nat) (o : Nat) (errs : Nat) (p : Packet) (b : Barge) (w : Microword), (s.runsNext n o p b w) ∧
      (errs ≠ 2) ∧ (0x1B ≤ o)) :=
  ⟨⟨running 0x17, 0, 0, pktNow, bargeNow, wordOf 0x17, by simp only [State.runsNext]; decide +kernel⟩,
    ⟨running 0x18, 0, 0, pktNow, bargeNow, wordOf 0x18, by simp only [State.runsNext]; decide +kernel⟩,
    ⟨running 0x19, 0, 0, pktNow, bargeNow, wordOf 0x19, by simp only [State.runsNext]; decide +kernel⟩,
    ⟨running 0x1B, 0, 0x1B, 0, pktNow, bargeNow, wordOf 0x1B, by simp only [State.runsNext]; decide +kernel⟩,
    ⟨running 0x3F, 0, 0x3F, 0, pktNow, bargeNow, wordOf 0x3F, by simp only [State.runsNext]; decide +kernel⟩⟩

/-- What the hypotheses of BargeEvents ask for is met, part 1. -/
theorem wit_BargeEvents_1 :
    (∃ (s : State) (n : Nat) (reg : Nat) (b : Barge) (p : Packet) (l : PendLkup), (s.inReset = false) ∧
      (mfind s.prs.barges n = some b) ∧ (mfind s.pkts b.pkt = some p) ∧ (mfind b.lkups reg = some l) ∧ (reg < b.g.length)) ∧
    (∃ (s : State) (n : Nat) (o : Nat) (p : Packet) (b : Barge) (w : Microword), (s.runsNext n o p b w) ∧
      ((o = 0x0F ∨ o = 0x10 ∨ o = 0x11)) ∧ (b.cycles + s.wordCycles b w + 8 ≤ s.runLimit (n / 96) p)) ∧
    (∃ (s : State) (n : Nat) (o : Nat) (held : Nat) (waits : Nat) (ecc : Nat) (p : Packet) (b : Barge) (w : Microword) (i : Instr), (s.runsNext n o p b w) ∧
      ((o, i) ∈ [(0x00, Instr.nop n 2), (0x01, .mov n 2), (0x02, .add n 2), (0x03, .sub n 2), (0x04, .and n 2), (0x05, .or n 2), (0x06, .xor n 2), (0x07, .shl n 2), (0x08, .shr n 2), (0x09, .cmp n 2), (0x0A, .cmpm n 2), (0x0B, .mwr n 2), (0x0C, .msg n 2 held), (0x0D, .setlen n 2), (0x0E, .lkup n 2), (0x0F, .scprd n 2 held waits ecc), (0x10, .scpadd n 2 held waits ecc), (0x11, .scpswp n 2 held waits ecc), (0x12, .csum n 2), (0x13, .call n 2), (0x14, .ret n 2), (0x15, .loop n 2), (0x16, .djnz n 2), (0x17, .switch n 2), (0x18, .mwDone n 2), (0x19, .abort n 2)])) ∧
    (∃ (s : State) (n : Nat) (b : Barge), (s.inReset = false) ∧ (mfind s.prs.barges n = some b) ∧ (mfind b.traps 0 = none)) ∧
    (∃ (s : State) (n : Nat) (b : Barge), (s.inReset = false) ∧ (mfind s.prs.barges n = some b) ∧ (mfind b.traps 0 ≠ none)) ∧
    (∃ (s : State) (n : Nat) (counter : Nat) (i : Nat) (a : Sampler) (b : Barge), (s.inReset = false) ∧
      (mfind s.prs.barges n = some b) ∧
      (s.pmc.samplers.find? (fun (e : Nat × Sampler) => s.fld (Reg.PMC_SAMPLE_CFG e.1) F.PMC_SAMPLE_CFG.COUNTER == counter && e.2.want.isSome && !e.2.asked) = some (i, a)) ∧
      (counter / 2 ^ 19 = 5) ∧ (counter % 16 = n / 96) ∧ (mfind b.traps 3 = none)) :=
  ⟨⟨(fun s : State => { s with prs := { s.prs with barges := [(0, { bargeNow with lkups := [(15, ⟨0, 0, 0⟩)] })] } }) (packet pktNow up), 0, 15, { bargeNow with lkups := [(15, ⟨0, 0, 0⟩)] }, pktNow, ⟨0, 0, 0⟩, by decide +kernel⟩,
    ⟨running 0x0F, 0, 0x0F, pktNow, bargeNow, wordOf 0x0F, by simp only [State.runsNext]; decide +kernel⟩,
    ⟨running 0x0F, 0, 0x0F, 0, 0, 0, pktNow, bargeNow, wordOf 0x0F, .scprd 0 2 0 0 0, by simp only [State.runsNext]; decide +kernel⟩,
    ⟨running 0, 0, bargeNow, by decide +kernel⟩,
    ⟨(fun s : State => { s with prs := { s.prs with barges := [(0, { bargeNow with traps := [(0, 5)] })] } }) (packet pktNow up), 0, { bargeNow with traps := [(0, 5)] }, by decide +kernel⟩,
    ⟨{ (running 0).setFld (Reg.PMC_SAMPLE_CFG 7) F.PMC_SAMPLE_CFG.COUNTER (5 * 2 ^ 19) with pmc := { samplers := [(7, { want := some 7 })] } }, 0, 5 * 2 ^ 19, 7, { want := some 7 }, bargeNow, by decide +kernel⟩⟩

/-- What the hypotheses of BargeEvents ask for is met, part 2. -/
theorem wit_BargeEvents_2 :
    (∃ (s : State) (n : Nat) (b : Barge) (p : Packet), ∃ d rest, (s.inReset = false) ∧ (mfind s.prs.barges n = some b) ∧
      (mfind s.pkts b.pkt = some p) ∧ (b.serving = none) ∧ (b.wanted = true) ∧ (b.cycles + 66 ≤ s.runLimit (n / 96) p) ∧
      (b.traps = (0, d) :: rest)) ∧
    (∃ (s : State) (n : Nat) (wait : Nat) (b : Barge) (p : Packet), ∃ d rest, (s.inReset = false) ∧
      (mfind s.prs.barges n = some b) ∧ (mfind s.pkts b.pkt = some p) ∧ (b.serving = none) ∧ (b.wanted = true) ∧
      (b.cycles + 66 ≤ s.runLimit (n / 96) p) ∧ (b.traps = (1, d) :: rest) ∧ (32 < wait)) ∧
    (∃ (s : State) (n : Nat) (wait : Nat) (b : Barge) (p : Packet), ∃ d rest, (s.inReset = false) ∧
      (mfind s.prs.barges n = some b) ∧ (mfind s.pkts b.pkt = some p) ∧ (b.serving = none) ∧ (b.wanted = true) ∧
      (b.cycles + 66 ≤ s.runLimit (n / 96) p) ∧ (b.traps = (2, d) :: rest) ∧ (64 ≤ wait) ∧ (mfind b.lkups (d % 16) ≠ none)) ∧
    (∃ (s : State) (n : Nat) (wait : Nat) (b : Barge) (p : Packet), ∃ c d rest, (s.inReset = false) ∧
      (mfind s.prs.barges n = some b) ∧ (mfind s.pkts b.pkt = some p) ∧ (b.serving = none) ∧ (b.wanted = true) ∧
      (b.cycles + 66 ≤ s.runLimit (n / 96) p) ∧ (b.traps = (c, d) :: rest) ∧
      (c = 3 ∨ c = 1 ∧ wait ≤ 32 ∨ c = 2 ∧ (wait < 64 ∨ mfind b.lkups (d % 16) = none))) ∧
    (∃ (s : State) (n : Nat) (b : Barge) (p : Packet), ∃ d rest, (s.inReset = false) ∧ (mfind s.prs.barges n = some b) ∧
      (mfind s.pkts b.pkt = some p) ∧ (b.serving = none) ∧ (b.wanted = true) ∧ (b.cycles + 66 ≤ s.runLimit (n / 96) p) ∧
      (b.traps = (3, d) :: rest)) ∧
    (∃ (s : State) (n : Nat) (b : Barge) (p : Packet), (s.inReset = false) ∧ (mfind s.prs.barges n = some b) ∧
      (mfind s.pkts b.pkt = some p) ∧ (b.serving = none) ∧ (b.wanted = true) ∧ (b.cycles + 66 ≤ s.runLimit (n / 96) p) ∧
      (b.traps = [])) :=
  ⟨⟨(fun s : State => { s with prs := { s.prs with barges := [(0, { bargeNow with wanted := true, traps := [(0, 5)] })] } }) (packet pktNow up), 0, { bargeNow with wanted := true, traps := [(0, 5)] }, pktNow, 5, [], by decide +kernel⟩,
    ⟨(fun s : State => { s with prs := { s.prs with barges := [(0, { bargeNow with wanted := true, traps := [(1, 5)] })] } }) (packet pktNow up), 0, 33, { bargeNow with wanted := true, traps := [(1, 5)] }, pktNow, 5, [], by decide +kernel⟩,
    ⟨(fun s : State => { s with prs := { s.prs with barges := [(0, { bargeNow with wanted := true, traps := [(2, 5)], lkups := [(5, ⟨0, 0, 0⟩)] })] } }) (packet pktNow up), 0, 64, { bargeNow with wanted := true, traps := [(2, 5)], lkups := [(5, ⟨0, 0, 0⟩)] }, pktNow, 5, [], by decide +kernel⟩,
    ⟨(fun s : State => { s with prs := { s.prs with barges := [(0, { bargeNow with wanted := true, traps := [(1, 5)] })] } }) (packet pktNow up), 0, 32, { bargeNow with wanted := true, traps := [(1, 5)] }, pktNow, 1, 5, [], by decide +kernel⟩,
    ⟨(fun s : State => { s with prs := { s.prs with barges := [(0, { bargeNow with wanted := true, traps := [(3, 5)] })] } }) (packet pktNow up), 0, { bargeNow with wanted := true, traps := [(3, 5)] }, pktNow, 5, [], by decide +kernel⟩,
    ⟨(fun s : State => { s with prs := { s.prs with barges := [(0, { bargeNow with wanted := true, traps := [] })] } }) (packet pktNow up), 0, { bargeNow with wanted := true, traps := [] }, pktNow, by decide +kernel⟩⟩

/-- What the hypotheses of BargeEvents ask for is met, part 3. -/
theorem wit_BargeEvents_3 :
    (∃ (s : State) (n : Nat) (wait : Nat) (c : Nat) (d : Nat) (c' : Nat) (rest : SMap Nat) (b : Barge) (p : Packet), (s.inReset = false) ∧
      (mfind s.prs.barges n = some b) ∧ (mfind s.pkts b.pkt = some p) ∧ (b.serving = none) ∧ (b.wanted = true) ∧
      (b.cycles + 66 ≤ s.runLimit (n / 96) p) ∧ (b.traps = (c, d) :: rest) ∧ (c' < c) ∧ (mfind b.traps c' = none) ∧
      (wait ≤ 32) ∧ ((c' = 1 ∨ c' = 2))) ∧
    (∃ (s : State) (n : Nat) (c : Nat) (errs : Nat) (b : Barge) (p : Packet), (s.inReset = false) ∧
      (mfind s.prs.barges n = some b) ∧ (mfind s.pkts b.pkt = some p) ∧ (b.serving = some c) ∧ (State.awaits b = false) ∧
      (errs ≠ 2) ∧ (s.csBad (n / 96) p b = false) ∧ (b.cycles + 6 ≤ s.runLimit (n / 96) p)) ∧
    (∃ (s : State) (n : Nat) (c : Nat) (errs : Nat) (b : Barge) (p : Packet), (s.inReset = false) ∧
      (mfind s.prs.barges n = some b) ∧ (mfind s.pkts b.pkt = some p) ∧ (b.serving = some c) ∧ (State.awaits b = false) ∧
      (errs ≠ 2) ∧ (s.csBad (n / 96) p b = false) ∧ (b.cycles + 6 ≤ s.runLimit (n / 96) p)) ∧
    (∃ (s : State) (n : Nat) (b : Barge) (p : Packet), (s.inReset = false) ∧ (mfind s.prs.barges n = some b) ∧
      (mfind s.pkts b.pkt = some p) ∧ (s.runLimit (n / 96) p ≤ b.cycles)) ∧
    (∃ (s : State) (n : Nat) (b : Barge) (p : Packet), (s.inReset = false) ∧ (mfind s.prs.barges n = some b) ∧
      (mfind s.pkts b.pkt = some p) ∧ (b.cycles < s.runLimit (n / 96) p)) :=
  ⟨⟨(fun s : State => { s with prs := { s.prs with barges := [(0, { bargeNow with wanted := true, traps := [(3, 5)] })] } }) (packet pktNow up), 0, 32, 3, 5, 2, [], { bargeNow with wanted := true, traps := [(3, 5)] }, pktNow, by decide +kernel⟩,
    ⟨(fun s : State => { s with prs := { s.prs with barges := [(0, { bargeNow with serving := some 3, traps := [] })] } }) (packet pktNow up), 0, 3, 0, { bargeNow with serving := some 3, traps := [] }, pktNow, by decide +kernel⟩,
    ⟨(fun s : State => { s with prs := { s.prs with barges := [(0, { bargeNow with serving := some 3, traps := [(3, 9)] })] } }) (packet pktNow up), 0, 3, 1, { bargeNow with serving := some 3, traps := [(3, 9)] }, pktNow, by decide +kernel⟩,
    ⟨(fun s : State => { s with prs := { s.prs with barges := [(0, { bargeNow with cycles := 1024 })] } }) (packet pktNow up), 0, { bargeNow with cycles := 1024 }, pktNow, by decide +kernel⟩,
    ⟨running 0, 0, bargeNow, pktNow, by decide +kernel⟩⟩

/-- What the hypotheses of TrapRestores ask for is met. -/
theorem wit_TrapRestores :
    (∃ (s : State) (n : Nat) (counter : Nat) (b : Barge) (p : Packet), (mfind s.prs.barges n = some b) ∧
      (mfind s.pkts b.pkt = some p) ∧ (b.serving = none) ∧ (b.wanted = true) ∧ (b.cycles + 8 ≤ s.runLimit (n / 96) p) ∧
      (s.csBad (n / 96) p { b with pc := 12 } = false) ∧ (b.traps = [(3, counter)]) ∧ (b.pc < 2 ^ 14) ∧ (b.cursor ≤ 256) ∧
      (b.loopN < 16) ∧ (b.mt ≤ 255) ∧ (b.stack.length ≤ 4) ∧ ((∀ a ∈ b.stack, a < 2 ^ 14))) :=
  ⟨(fun s : State => { s with prs := { s.prs with barges := [(0, { bargeNow with wanted := true, traps := [(3, 9)], loopN := 15, cursor := 256, mt := 255, stack := [16383, 0, 1, 2] })] } }) (packet pktNow up), 0, 9, { bargeNow with wanted := true, traps := [(3, 9)], loopN := 15, cursor := 256, mt := 255, stack := [16383, 0, 1, 2] }, pktNow, by decide +kernel⟩

/-- What the hypotheses of MicrocodeLoads ask for is met, part 1. -/
theorem wit_MicrocodeLoads_1 :
    (∃ (s : State) (by_ : Agent) (sl : Nat) (i : Nat), (sl < 16) ∧ (i < 16) ∧ (s.reaches by_ (Reg.PRS_PROFILE sl i) = true) ∧
      (s.held 5 = false)) ∧
    (∃ (s : State) (by_ : Agent) (sl : Nat) (i : Nat), (sl < 16) ∧ (i < 16) ∧ (s.reaches by_ (Reg.PRS_PROFILE sl i) = true) ∧
      (s.held 5 = true)) ∧
    (∃ (s : State) (by_ : Agent) (v : Word64), (s.reaches by_ Reg.PRS_CS_BANK = true) ∧ (s.held 5 = false) ∧
      (let valid := s.flag Reg.PRS_CS_BANK (if v.toNat % 2 = 1 then F.PRS_CS_BANK.VALID1 else F.PRS_CS_BANK.VALID0); (s.isWarden by_ = true) ∧ (valid = true))) ∧
    (∃ (s : State) (by_ : Agent) (v : Word64), (s.reaches by_ Reg.PRS_CS_BANK = true) ∧ (s.held 5 = false) ∧
      (let valid := s.flag Reg.PRS_CS_BANK (if v.toNat % 2 = 1 then F.PRS_CS_BANK.VALID1 else F.PRS_CS_BANK.VALID0); (s.isWarden by_ = true) ∧ (valid = false))) ∧
    (∃ (s : State) (by_ : Agent), (s.reaches by_ Reg.PRS_CS_BANK = true) ∧ (s.held 5 = false) ∧ (s.isWarden by_ = false)) ∧
    (∃ (s : State), (s.inReset = false)) :=
  ⟨⟨up, kp, 15, 15, by decide +kernel⟩,
    ⟨{ up.setFld Reg.VER_STATE F.VER_STATE.ARMED 5 with ver := { armedMask := 2 ^ 5 } }, kp, 15, 15, by decide +kernel⟩,
    ⟨ward.setFld Reg.PRS_CS_BANK F.PRS_CS_BANK.VALID1 1, pf, 1#64, by decide +kernel⟩,
    ⟨ward, pf, 1#64, by decide +kernel⟩,
    ⟨up, kp, by decide +kernel⟩,
    ⟨up, by decide +kernel⟩⟩

/-- What the hypotheses of MicrocodeLoads ask for is met, part 2. -/
theorem wit_MicrocodeLoads_2 :
    (∃ (s : State) (by_ : Agent) (v : Word64), (s.reaches by_ Reg.PRS_CS_LOAD_CTL = true) ∧ (s.isWarden by_ = true) ∧
      (v.toNat % 2 = 1)) ∧
    (∃ (s : State), (s.inReset = false) ∧ (s.fld Reg.PRS_CS_LOAD_CTL F.PRS_CS_LOAD_CTL.STATUS = 1)) ∧
    (∃ (s : State) (pkg : Bytes), (s.inReset = false) ∧ (s.prs.package = some pkg) ∧ (s.secServing ≠ some 3)) ∧
    (∃ (s : State) (pkg : Bytes), (s.inReset = false) ∧ (s.prs.package = some pkg) ∧
      (let count := leAt pkg 12 2; let first := leAt pkg 14 2; let header := sub pkg 0 4 = ascii "DLUC" ∧ leAt pkg 4 2 = 1 ∧ leAt pkg 6 2 = 0 ∧ allZero (sub pkg 20 12) = true ∧ 1 ≤ count ∧ count ≤ 4096 ∧ first + count ≤ 4096; (s.secServing = some 3) ∧ (¬ header))) ∧
    (∃ (s : State) (sigOk : Bool) (pkg : Bytes), (s.inReset = false) ∧ (s.prs.package = some pkg) ∧
      (let count := leAt pkg 12 2; let first := leAt pkg 14 2; let header := sub pkg 0 4 = ascii "DLUC" ∧ leAt pkg 4 2 = 1 ∧ leAt pkg 6 2 = 0 ∧ allZero (sub pkg 20 12) = true ∧ 1 ≤ count ∧ count ≤ 4096 ∧ first + count ≤ 4096; let signed := s.sec.ownerKey ≠ [] ∧ sub pkg 80 16 = sub s.sec.ownerId 0 16 ∧ sub pkg 32 48 = sha384 (sub pkg 192 (24 * count)) ∧ sigOk = true; (s.secServing = some 3) ∧ (header) ∧ (¬ signed))) ∧
    (∃ (s : State) (sigOk : Bool) (pkg : Bytes), (s.inReset = false) ∧ (s.prs.package = some pkg) ∧
      (let count := leAt pkg 12 2; let first := leAt pkg 14 2; let header := sub pkg 0 4 = ascii "DLUC" ∧ leAt pkg 4 2 = 1 ∧ leAt pkg 6 2 = 0 ∧ allZero (sub pkg 20 12) = true ∧ 1 ≤ count ∧ count ≤ 4096 ∧ first + count ≤ 4096; let signed := s.sec.ownerKey ≠ [] ∧ sub pkg 80 16 = sub s.sec.ownerId 0 16 ∧ sub pkg 32 48 = sha384 (sub pkg 192 (24 * count)) ∧ sigOk = true; (s.secServing = some 3) ∧ (header) ∧ (signed) ∧ (s.fld Reg.PRS_UCODE_VENDOR_VER F.PRS_UCODE_VENDOR_VER.VER < leAt pkg 16 4))) :=
  ⟨⟨ward, pf, 1#64, by decide +kernel⟩,
    ⟨up.setFld Reg.PRS_CS_LOAD_CTL F.PRS_CS_LOAD_CTL.STATUS 1, by decide +kernel⟩,
    ⟨{ up with prs := { package := some [] } }, [], by decide +kernel⟩,
    ⟨{ up.setFld Reg.SEC_STATUS F.SEC_STATUS.READY 1 with prs := { package := some [], fetched := true }, sec := { ownerKey := [1], ownerId := zeros 16 } }, [], by decide +kernel⟩,
    ⟨{ up.setFld Reg.SEC_STATUS F.SEC_STATUS.READY 1 with prs := { package := some (patch (patch (patch (zeros 216) 0 (ascii "DLUC")) 4 [1, 0]) 12 [1, 0]), fetched := true }, sec := { ownerKey := [1], ownerId := zeros 16 } }, true, (patch (patch (patch (zeros 216) 0 (ascii "DLUC")) 4 [1, 0]) 12 [1, 0]), by decide +kernel⟩,
    ⟨{ up.setFld Reg.SEC_STATUS F.SEC_STATUS.READY 1 with prs := { package := some (signedPackage 1), fetched := true }, sec := { ownerKey := [1], ownerId := zeros 16 } }, true, (signedPackage 1), by decide +kernel⟩⟩

set_option maxRecDepth 100000 in
/-- What the hypotheses of MicrocodeLoads ask for is met, part 3. -/
theorem wit_MicrocodeLoads_3 :
    (∃ (s : State) (sigOk : Bool) (pkg : Bytes), (s.inReset = false) ∧ (s.prs.package = some pkg) ∧
      (let count := leAt pkg 12 2; let first := leAt pkg 14 2; let header := sub pkg 0 4 = ascii "DLUC" ∧ leAt pkg 4 2 = 1 ∧ leAt pkg 6 2 = 0 ∧ allZero (sub pkg 20 12) = true ∧ 1 ≤ count ∧ count ≤ 4096 ∧ first + count ≤ 4096; let signed := s.sec.ownerKey ≠ [] ∧ sub pkg 80 16 = sub s.sec.ownerId 0 16 ∧ sub pkg 32 48 = sha384 (sub pkg 192 (24 * count)) ∧ sigOk = true; (s.secServing = some 3) ∧ (header) ∧ (signed) ∧ (leAt pkg 16 4 ≤ s.fld Reg.PRS_UCODE_VENDOR_VER F.PRS_UCODE_VENDOR_VER.VER) ∧ (s.firstBad (packageWords pkg first count) first count = none))) ∧
    (∃ (s : State) (sl : Nat) (bank : Nat) (w : Nat) (errors : Nat), (s.inReset = false) ∧ (sl < 16) ∧ (bank < 3) ∧
      (w < 2 ^ 14) ∧ (errors = 1)) ∧
    (∃ (s : State) (sl : Nat) (bank : Nat) (w : Nat) (errors : Nat), (s.inReset = false) ∧ (sl < 16) ∧ (bank < 3) ∧
      (w < 2 ^ 14) ∧ (errors = 2)) ∧
    (∃ (s : State) (sl : Nat) (bank : Nat) (w : Nat) (errors : Nat), (s.inReset = false) ∧ (sl < 16) ∧ (bank < 3) ∧
      (w < 2 ^ 14) ∧ (errors = 0)) ∧
    (∃ (s : State) (sl : Nat) (bank : Nat) (w : Nat), (s.inReset = false) ∧ (sl < 16) ∧ (bank < 3) ∧ (w < 2 ^ 14)) ∧
    (∃ s : State, s.inReset = false ∧ ∀ e ∈ s.pkts, e.2.stage ≠ .receiving ∧ e.2.stage ≠ .dispatch ∧
      ∀ n, e.2.stage ≠ .barge n) :=
  ⟨⟨{ up.setFld Reg.SEC_STATUS F.SEC_STATUS.READY 1 with prs := { package := some (signedPackage 0), fetched := true }, sec := { ownerKey := [1], ownerId := zeros 16 } }, true, (signedPackage 0), by decide +kernel⟩,
    ⟨up, 15, 2, 16383, 1, by decide +kernel⟩,
    ⟨up, 15, 2, 16383, 2, by decide +kernel⟩,
    ⟨up, 15, 2, 16383, 0, by decide +kernel⟩,
    ⟨up, 15, 2, 16383, by decide +kernel⟩,
    ⟨up, by decide +kernel, fun _ h => nomatch h⟩⟩

/-- What the hypotheses of MicrocodeLoads ask for is met, part 4. -/
theorem wit_MicrocodeLoads_4 :
    (∃ s : State, s.inReset = false ∧ ∃ e ∈ s.pkts, ∃ n, e.2.stage = .barge n ∧
      e.2.bank ≠ s.cfgFld Reg.PRS_CS_BANK F.PRS_CS_BANK.ACTIVE) :=
  ⟨packet { pktNow with bank := 1 } up, by decide +kernel, (0, { pktNow with bank := 1 }), by decide +kernel, 0, by decide +kernel⟩

/-- What the hypotheses of ExactMatchCommands ask for is met, part 1. -/
theorem wit_ExactMatchCommands_1 :
    (∃ (s : State) (keeper : Bool) (cmd : Bytes), (s.cmdNext keeper 0x01 cmd) ∧ (cmdTarget cmd < 16) ∧
      (s.cmdMay keeper (cmdTarget cmd)) ∧
      (let i := cmdTarget cmd; let ok := s.partOn i = true ∧ byteAt cmd 44 % 2 = 1 ∧ byteAt cmd 44 / 8 = 0 ∧ allZero (sub cmd 45 3) = true; (¬ ok))) ∧
    (∃ (s : State) (keeper : Bool) (cmd : Bytes), (s.cmdNext keeper 0x01 cmd) ∧ (cmdTarget cmd < 16) ∧
      (s.cmdMay keeper (cmdTarget cmd)) ∧
      (let i := cmdTarget cmd; let imm := bitOf (byteAt cmd 44) 1; let e : EmEntry := { key := leAt cmd 16 16, action := leAt cmd 32 8, vfrom := leAt cmd 40 2, vuntil := leAt cmd 42 2, valid := true, immediate := imm }; let ok := s.partOn i = true ∧ byteAt cmd 44 % 2 = 1 ∧ byteAt cmd 44 / 8 = 0 ∧ allZero (sub cmd 45 3) = true; let may := if imm then e.vfrom = 0 ∧ e.vuntil = 0 else s.openVer ≠ 0 ∧ e.vfrom = s.openVer ∧ e.vuntil = 0; (ok) ∧ (¬ may))) ∧
    (∃ (s : State) (keeper : Bool) (cmd : Bytes), (s.cmdNext keeper 0x01 cmd) ∧ (cmdTarget cmd < 16) ∧
      (s.cmdMay keeper (cmdTarget cmd)) ∧
      (let i := cmdTarget cmd; let imm := bitOf (byteAt cmd 44) 1; let e : EmEntry := { key := leAt cmd 16 16, action := leAt cmd 32 8, vfrom := leAt cmd 40 2, vuntil := leAt cmd 42 2, valid := true, immediate := imm }; let ok := s.partOn i = true ∧ byteAt cmd 44 % 2 = 1 ∧ byteAt cmd 44 / 8 = 0 ∧ allZero (sub cmd 45 3) = true; let may := if imm then e.vfrom = 0 ∧ e.vuntil = 0 else s.openVer ≠ 0 ∧ e.vfrom = s.openVer ∧ e.vuntil = 0; (ok) ∧ (may) ∧ (s.conflicts i e = true))) ∧
    (∃ (s : State) (keeper : Bool) (cmd : Bytes), (s.cmdNext keeper 0x02 cmd) ∧ (cmdTarget cmd < 16) ∧
      (s.cmdMay keeper (cmdTarget cmd))) ∧
    (∃ (s : State) (keeper : Bool) (cmd : Bytes), (s.cmdNext keeper 0x03 cmd) ∧ (cmdTarget cmd < 16) ∧
      (s.cmdMay keeper (cmdTarget cmd)) ∧ (s.partOn (cmdTarget cmd) = true)) ∧
    (∃ (s : State) (keeper : Bool) (cmd : Bytes), (s.cmdNext keeper 0x04 cmd) ∧ (cmdTarget cmd < 16) ∧
      ((keeper = true ∨ s.permits (s.roleOf (.host 0)) 4 (cmdTarget cmd) 2 = true))) :=
  ⟨⟨claimedUp, true, cmdOf 0x01 15 0 [], by simp only [State.cmdNext, State.cmdMay]; decide +kernel⟩,
    ⟨(forced (Reg.XMT_PART 15) 1 claimedUp), true, cmdOf 0x01 15 0 (zeros 28 ++ [1]), by simp only [State.cmdNext, State.cmdMay]; decide +kernel⟩,
    ⟨(fun s : State => { s with tab := { stash := [(256 * 15, { valid := true, immediate := true })] } }) (forced (Reg.XMT_PART 15) 1 claimedUp), true, cmdOf 0x01 15 0 (zeros 28 ++ [3]), by simp only [State.cmdNext, State.cmdMay]; decide +kernel⟩,
    ⟨claimedUp, true, cmdOf 0x02 15 0 [], by simp only [State.cmdNext, State.cmdMay]; decide +kernel⟩,
    ⟨forced (Reg.XMT_PART 15) 1 claimedUp, true, cmdOf 0x03 15 0 [], by simp only [State.cmdNext, State.cmdMay]; decide +kernel⟩,
    ⟨claimedUp, true, cmdOf 0x04 15 0 [], by simp only [State.cmdNext]; decide +kernel⟩⟩

/-- What the hypotheses of ExactMatchCommands ask for is met, part 2. -/
theorem wit_ExactMatchCommands_2 :
    (∃ (s : State) (keeper : Bool) (cmd : Bytes) (i : Instr) (op : Nat), (s.cmdNext keeper op cmd) ∧ (cmdTarget cmd < 16) ∧
      ((keeper = true ∨ s.permits (s.roleOf (.host 0)) 4 (cmdTarget cmd) 2 = true)) ∧
      (s.holder (cmdTarget cmd) ≠ s.ringAgent keeper) ∧
      ((i = .emInsert keeper cmd ∧ op = 0x01 ∨ i = .emDelete keeper cmd ∧ op = 0x02 ∨ i = .emUpdate keeper cmd ∧ op = 0x03))) ∧
    (∃ (s : State) (keeper : Bool) (cmd : Bytes) (i : Instr) (op : Nat), (s.cmdNext keeper op cmd) ∧ (cmdTarget cmd < 16) ∧
      ((keeper = true ∨ s.permits (s.roleOf (.host 0)) 4 (cmdTarget cmd) 2 = true)) ∧
      (s.holder (cmdTarget cmd) ≠ s.ringAgent keeper) ∧
      ((i = .emInsert keeper cmd ∧ op = 0x01 ∨ i = .emDelete keeper cmd ∧ op = 0x02 ∨ i = .emUpdate keeper cmd ∧ op = 0x03))) ∧
    (∃ (s : State) (keeper : Bool) (cmd : Bytes), (s.cmdNext keeper 0x03 cmd) ∧ (cmdTarget cmd < 16) ∧
      (s.cmdMay keeper (cmdTarget cmd)) ∧ (s.partOn (cmdTarget cmd) = true) ∧
      ∃ l, s.emNamed (cmdTarget cmd) (leAt cmd 16 16) (leAt cmd 40 2) = some l ∧ (s.emAt l).immediate = true ∧
      leAt cmd 42 2 = 0) ∧
    (∃ (s : State) (keeper : Bool) (cmd : Bytes), (s.cmdNext keeper 0x03 cmd) ∧ (cmdTarget cmd < 16) ∧
      (s.cmdMay keeper (cmdTarget cmd)) ∧ (s.partOn (cmdTarget cmd) = true) ∧
      ∃ l, s.emNamed (cmdTarget cmd) (leAt cmd 16 16) (leAt cmd 40 2) = some l ∧ (s.emAt l).immediate = true ∧
      leAt cmd 42 2 ≠ 0) ∧
    (∃ (s : State) (keeper : Bool) (cmd : Bytes), (s.cmdNext keeper 0x03 cmd) ∧ (cmdTarget cmd < 16) ∧
      (s.cmdMay keeper (cmdTarget cmd)) ∧ (s.partOn (cmdTarget cmd) = true) ∧
      ∃ l, s.emNamed (cmdTarget cmd) (leAt cmd 16 16) (leAt cmd 40 2) = some l ∧ (s.emAt l).immediate = false ∧
      s.openVer = 0) :=
  ⟨⟨up, true, cmdOf 0x01 0 0 [], .emInsert true (cmdOf 0x01 0 0 []), 0x01, by simp only [State.cmdNext]; decide +kernel⟩,
    ⟨up, true, cmdOf 0x03 15 0 [], .emUpdate true (cmdOf 0x03 15 0 []), 0x03, by simp only [State.cmdNext]; decide +kernel⟩,
    ⟨(fun s : State => { s with tab := { stash := [(256 * 15, { valid := true, immediate := true })] } }) (forced (Reg.XMT_PART 15) 1 claimedUp), true, cmdOf 0x03 15 0 (zeros 26 ++ [0]), by simp only [State.cmdNext]; decide +kernel, by decide +kernel, by simp only [State.cmdMay]; decide +kernel, by decide +kernel, .stash 3840, by decide +kernel⟩,
    ⟨(fun s : State => { s with tab := { stash := [(256 * 15, { valid := true, immediate := true })] } }) (forced (Reg.XMT_PART 15) 1 claimedUp), true, cmdOf 0x03 15 0 (zeros 26 ++ [1]), by simp only [State.cmdNext]; decide +kernel, by decide +kernel, by simp only [State.cmdMay]; decide +kernel, by decide +kernel, .stash 3840, by decide +kernel⟩,
    ⟨(fun s : State => { s with tab := { stash := [(256 * 15, { valid := true, immediate := false, vfrom := 5 })] } }) (forced (Reg.XMT_PART 15) 1 claimedUp), true, cmdOf 0x03 15 0 (zeros 24 ++ [5]), by simp only [State.cmdNext]; decide +kernel, by decide +kernel, by simp only [State.cmdMay]; decide +kernel, by decide +kernel, .stash 3840, by decide +kernel⟩⟩

/-- What the hypotheses of TernaryCommands ask for is met, part 1. -/
theorem wit_TernaryCommands_1 :
    (∃ (s : State) (keeper : Bool) (cmd : Bytes) (gi : Nat) (g : Group), (s.cmdNext keeper 0x10 cmd) ∧
      (s.rowGroup (cmdTarget cmd) = some (gi, g)) ∧ (s.cmdMay keeper (16 + gi)) ∧ ((g.wide = true → 4 ≤ g.count)) ∧
      (let e := cmdTarget cmd; (s.underMove e = true))) ∧
    (∃ (s : State) (keeper : Bool) (cmd : Bytes) (gi : Nat) (g : Group), (s.cmdNext keeper 0x10 cmd) ∧
      (s.rowGroup (cmdTarget cmd) = some (gi, g)) ∧ (s.cmdMay keeper (16 + gi)) ∧ ((g.wide = true → 4 ≤ g.count)) ∧
      (let e := cmdTarget cmd; (s.underMove e = false) ∧ (cmdRowOk g cmd = false))) ∧
    (∃ (s : State) (keeper : Bool) (cmd : Bytes) (gi : Nat) (g : Group), (s.cmdNext keeper 0x10 cmd) ∧
      (s.rowGroup (cmdTarget cmd) = some (gi, g)) ∧ (s.cmdMay keeper (16 + gi)) ∧ ((g.wide = true → 4 ≤ g.count)) ∧
      (let e := cmdTarget cmd; (s.underMove e = false) ∧ (cmdRowOk g cmd = true) ∧ (s.rowChangeOk (s.tcGet g e) (cmdRow g cmd) = false))) ∧
    (∃ (s : State) (keeper : Bool) (cmd : Bytes) (gi : Nat) (g : Group), (s.cmdNext keeper 0x11 cmd) ∧
      (s.rowGroup (cmdTarget cmd) = some (gi, g)) ∧ (s.cmdMay keeper (16 + gi)) ∧ ((g.wide = true → 4 ≤ g.count))) ∧
    (∃ (s : State) (keeper : Bool) (cmd : Bytes) (gi : Nat) (g : Group), (s.cmdNext keeper 0x12 cmd) ∧
      (s.rowGroup (cmdTarget cmd) = some (gi, g)) ∧ (s.cmdMay keeper (16 + gi)) ∧ (s.tab.move = none) ∧
      (cmdTarget cmd ≤ cmdAux cmd) ∧ (cmdAux cmd - cmdTarget cmd < 8192) ∧ (s.rowGroup (cmdAux cmd) = some (gi, g)) ∧
      (cmdRowOk g cmd = true)) ∧
    (∃ (s : State) (m : Move) (r : Nat), (s.inReset = false) ∧ (s.tab.move = some m) ∧ (m.next = some r) ∧
      (((s.groupOf m.group).wide = true → 4 ≤ (s.groupOf m.group).count))) :=
  ⟨⟨(fun s : State => { s with tab := { s.tab with move := some ⟨0, 0, 8, some 8, [], false⟩ } }) grouped, true, cmdOf 0x10 4 0 [], 0, grouped.groupOf 0, by simp only [State.cmdNext, State.cmdMay]; decide +kernel⟩,
    ⟨grouped, true, cmdOf 0x10 0 0 (zeros 20 ++ [255]), 0, grouped.groupOf 0, by simp only [State.cmdNext, State.cmdMay]; decide +kernel⟩,
    ⟨grouped, true, cmdOf 0x10 0 0 (zeros 92 ++ [1]), 0, grouped.groupOf 0, by simp only [State.cmdNext, State.cmdMay]; decide +kernel⟩,
    ⟨grouped, true, cmdOf 0x11 4095 0 [], 0, grouped.groupOf 0, by simp only [State.cmdNext, State.cmdMay]; decide +kernel⟩,
    ⟨grouped, true, cmdOf 0x12 0 8 [], 0, grouped.groupOf 0, by simp only [State.cmdNext, State.cmdMay]; decide +kernel⟩,
    ⟨(fun s : State => { s with tab := { s.tab with move := some ⟨0, 0, 8, some 8, [], true⟩ } }) grouped, ⟨0, 0, 8, some 8, [], true⟩, 8, by decide +kernel⟩⟩

/-- What the hypotheses of TernaryCommands ask for is met, part 2. -/
theorem wit_TernaryCommands_2 :
    (∃ (s : State) (m : Move), (s.inReset = false) ∧ (s.tab.move = some m) ∧ (m.next = none) ∧
      (((s.groupOf m.group).wide = true → 4 ≤ (s.groupOf m.group).count))) :=
  ⟨(fun s : State => { s with tab := { s.tab with move := some ⟨0, 0, 8, none, [], true⟩ } }) grouped, ⟨0, 0, 8, none, [], true⟩, by decide +kernel⟩

/-- What the hypotheses of SmallTableCommands ask for is met, part 1. -/
theorem wit_SmallTableCommands_1 :
    (∃ (s : State) (keeper : Bool) (cmd : Bytes) (op : Nat), (s.cmdNext keeper op cmd) ∧
      (op ∉ [0x01, 0x02, 0x03, 0x04, 0x10, 0x11, 0x12, 0x20, 0x21, 0x22, 0x23, 0x24, 0x30, 0x31, 0x32, 0x40, 0x41, 0x42])) ∧
    (∃ (s : State) (keeper : Bool) (cmd : Bytes) (op : Nat), (s.cmdNext keeper op cmd) ∧
      (op ∉ [0x01, 0x02, 0x03, 0x04, 0x10, 0x11, 0x12, 0x20, 0x21, 0x22, 0x23, 0x24, 0x30, 0x31, 0x32, 0x40, 0x41, 0x42])) ∧
    (∃ (s : State) (keeper : Bool) (cmd : Bytes) (i : Instr) (n r v : Nat) (table : State → SMap Nat), (s.cmdNext keeper 0x20 cmd) ∧
      i = .nhWrite keeper cmd ∧ n = 262144 ∧ r = 32 ∧ v = leAt cmd 16 16 ∧ (∀ t, table t = t.tab.nh) ∧ cmdTarget cmd < n ∧
      s.cmdMay keeper r) ∧
    (∃ (s : State) (keeper : Bool) (cmd : Bytes) (i : Instr) (n r v : Nat) (table : State → SMap Nat), (s.cmdNext keeper 0x21 cmd) ∧
      i = .selWrite keeper cmd ∧ n = 65536 ∧ r = 16 + cmdTarget cmd / 4096 ∧ v = leAt cmd 16 2 ∧ (∀ t, table t = t.tab.sel) ∧
      cmdTarget cmd < n ∧ s.cmdMay keeper r) ∧
    (∃ (s : State) (keeper : Bool) (cmd : Bytes) (i : Instr) (n r v : Nat) (table : State → SMap Nat), (s.cmdNext keeper 0x22 cmd) ∧
      i = .vlanWrite keeper cmd ∧ n = 4096 ∧ r = 35 ∧ v = leAt cmd 16 4 % 2 ^ 17 ∧ (∀ t, table t = t.tab.vlan) ∧
      cmdTarget cmd < n ∧ s.cmdMay keeper r) ∧
    (∃ (s : State) (keeper : Bool) (cmd : Bytes) (i : Instr) (n r v : Nat) (table : State → SMap Nat), (s.cmdNext keeper 0x23 cmd) ∧
      i = .smacWrite keeper cmd ∧ n = 256 ∧ r = 32 ∧ v = leAt cmd 16 6 ∧ (∀ t, table t = t.tab.smac) ∧ cmdTarget cmd < n ∧
      s.cmdMay keeper r) :=
  ⟨⟨claimedUp, true, cmdOf 0x05 0 0 [], 0x05, by simp only [State.cmdNext]; decide +kernel⟩,
    ⟨claimedUp, true, cmdOf 0x43 0 0 [], 0x43, by simp only [State.cmdNext]; decide +kernel⟩,
    ⟨claimedUp, true, cmdOf 0x20 262143 0 [], .nhWrite true (cmdOf 0x20 262143 0 []), 262144, 32, 0, fun t => t.tab.nh, by simp only [State.cmdNext]; decide +kernel, rfl, rfl, by decide +kernel, by decide +kernel, fun _ => rfl, by decide +kernel, by simp only [State.cmdMay]; decide +kernel⟩,
    ⟨claimedUp, true, cmdOf 0x21 65535 0 [], .selWrite true (cmdOf 0x21 65535 0 []), 65536, 31, 0, fun t => t.tab.sel, by simp only [State.cmdNext]; decide +kernel, rfl, rfl, by decide +kernel, by decide +kernel, fun _ => rfl, by decide +kernel, by simp only [State.cmdMay]; decide +kernel⟩,
    ⟨claimedUp, true, cmdOf 0x22 4095 0 [], .vlanWrite true (cmdOf 0x22 4095 0 []), 4096, 35, 0, fun t => t.tab.vlan, by simp only [State.cmdNext]; decide +kernel, rfl, rfl, by decide +kernel, by decide +kernel, fun _ => rfl, by decide +kernel, by simp only [State.cmdMay]; decide +kernel⟩,
    ⟨claimedUp, true, cmdOf 0x23 255 0 [], .smacWrite true (cmdOf 0x23 255 0 []), 256, 32, 0, fun t => t.tab.smac, by simp only [State.cmdNext]; decide +kernel, rfl, rfl, by decide +kernel, by decide +kernel, fun _ => rfl, by decide +kernel, by simp only [State.cmdMay]; decide +kernel⟩⟩

/-- What the hypotheses of SmallTableCommands ask for is met, part 2. -/
theorem wit_SmallTableCommands_2 :
    (∃ (s : State) (keeper : Bool) (cmd : Bytes) (i : Instr) (n r v : Nat) (table : State → SMap Nat), (s.cmdNext keeper 0x24 cmd) ∧
      i = .tunWrite keeper cmd ∧ n = 256 ∧ r = 32 ∧ v = leAt cmd 16 64 ∧ (∀ t, table t = t.tab.tun) ∧ cmdTarget cmd < n ∧
      s.cmdMay keeper r) ∧
    (∃ (s : State) (cmd : Bytes), s.cmdNext true 0x20 cmd ∧ 262144 ≤ cmdTarget cmd) ∧
    (∃ (s : State) (cmd : Bytes), s.cmdNext true 0x20 cmd ∧ cmdTarget cmd < 262144 ∧ ¬ s.cmdMay true 32) :=
  ⟨⟨claimedUp, true, cmdOf 0x24 255 0 [], .tunWrite true (cmdOf 0x24 255 0 []), 256, 32, 0, fun t => t.tab.tun, by simp only [State.cmdNext]; decide +kernel, rfl, rfl, by decide +kernel, by decide +kernel, fun _ => rfl, by decide +kernel, by simp only [State.cmdMay]; decide +kernel⟩,
    ⟨claimedUp, cmdOf 0x20 262144 0 [], by simp only [State.cmdNext]; decide +kernel⟩,
    ⟨up, cmdOf 0x20 0 0 [], by simp only [State.cmdNext, State.cmdMay]; decide +kernel⟩⟩

/-- What the hypotheses of ReplicationAndMeterCommands ask for is met, part 1. -/
theorem wit_ReplicationAndMeterCommands_1 :
    (∃ (s : State) (keeper : Bool) (cmd : Bytes), (s.cmdNext keeper 0x30 cmd) ∧ (s.cmdMay keeper 33) ∧ (1 ≤ cmdAux cmd) ∧
      (cmdAux cmd ≤ 28) ∧ (cmdTarget cmd + cmdAux cmd ≤ 2097152) ∧
      ((∀ i, i < cmdAux cmd → bits (leAt cmd (16 + 4 * i) 4) 31 29 = 0 ∧ bits (leAt cmd (16 + 4 * i) 4) 9 0 ≤ 513))) ∧
    (∃ (s : State) (keeper : Bool) (cmd : Bytes), (s.cmdNext keeper 0x31 cmd) ∧ (s.cmdMay keeper 33) ∧
      (let i := cmdTarget cmd; (131072 ≤ i ∨ s.slotRangeOk (sub cmd 16 16) = false))) ∧
    (∃ (s : State) (keeper : Bool) (cmd : Bytes), (s.cmdNext keeper 0x31 cmd) ∧ (s.cmdMay keeper 33) ∧
      (let i := cmdTarget cmd; let new : GroupSlot := { slotOf (sub cmd 16 16) with mask := s.listMask (slotOf (sub cmd 16 16)) }; (i < 131072) ∧ (s.slotRangeOk (sub cmd 16 16) = true) ∧ (s.slotChangeOk (s.slotAt i) new = false))) ∧
    (∃ (s : State) (keeper : Bool) (cmd : Bytes), (s.cmdNext keeper 0x32 cmd) ∧
      ((keeper = true ∨ s.permits (s.roleOf (.host 0)) 4 33 2 = true))) ∧
    (∃ (s : State) (keeper : Bool) (cmd : Bytes), (s.cmdNext keeper 0x40 cmd) ∧ (s.cmdMay keeper 34)) ∧
    (∃ (s : State) (keeper : Bool) (cmd : Bytes), (s.cmdNext keeper 0x41 cmd) ∧ (s.cmdMay keeper 34) ∧
      (cmdTarget cmd < 1048576)) :=
  ⟨⟨claimedUp, true, cmdOf 0x30 2097150 2 [], by simp only [State.cmdNext, State.cmdMay]; decide +kernel⟩,
    ⟨claimedUp, true, cmdOf 0x31 0 0 [], by simp only [State.cmdNext, State.cmdMay]; decide +kernel⟩,
    ⟨claimedUp, true, cmdOf 0x31 131071 0 [0, 0, 0x20, 0, 0, 0, 0, 0, 0, 0, 0, 0, 1], by simp only [State.cmdNext, State.cmdMay]; decide +kernel⟩,
    ⟨up, true, cmdOf 0x32 0 0 [], by simp only [State.cmdNext]; decide +kernel⟩,
    ⟨claimedUp, true, cmdOf 0x40 4095 0 [], by simp only [State.cmdNext, State.cmdMay]; decide +kernel⟩,
    ⟨claimedUp, true, cmdOf 0x41 1048575 0 [], by simp only [State.cmdNext, State.cmdMay]; decide +kernel⟩⟩

/-- What the hypotheses of ReplicationAndMeterCommands ask for is met, part 2. -/
theorem wit_ReplicationAndMeterCommands_2 :
    (∃ (s : State) (keeper : Bool) (cmd : Bytes), (s.cmdNext keeper 0x42 cmd) ∧
      ((keeper = true ∨ s.permits (s.roleOf (.host 0)) 4 34 2 = true))) :=
  ⟨up, true, cmdOf 0x42 1048575 0 [], by simp only [State.cmdNext]; decide +kernel⟩

/-- What the hypotheses of RingClaimsAndRepair ask for is met, part 1. -/
theorem wit_RingClaimsAndRepair_1 :
    (∃ (s : State) (by_ : Agent), (s.reaches by_ Reg.FWD_RING_CTL = true)) ∧
    (∃ (s : State) (by_ : Agent) (r : Nat), (r < 64) ∧ (s.reaches by_ (Reg.FWD_CLAIM r) = true) ∧ (r < 36)) ∧
    (∃ (s : State) (by_ : Agent) (r : Nat), ∃ fn, (r < 64) ∧ (s.reaches by_ (Reg.FWD_CLAIM r) = true) ∧ (by_ = .host fn)) ∧
    (∃ (s : State) (by_ : Agent) (r : Nat), (r < 64) ∧ (s.reaches by_ (Reg.FWD_CLAIM r) = true)) ∧
    (∃ (s : State) (by_ : Agent) (v : Word64), (s.reaches by_ Reg.FWD_CLAIM_FORCE = true) ∧
      (let r := v.toNat % 64; (s.isWarden by_ = true) ∧ (r < 36) ∧ (s.holder r ≠ 0))) ∧
    (∃ (s : State) (by_ : Agent) (v : Word64), (s.reaches by_ Reg.FWD_CLAIM_FORCE = true) ∧
      (let r := v.toNat % 64; (s.isWarden by_ = true) ∧ (36 ≤ r ∨ s.holder r = 0))) :=
  ⟨⟨up, kp, by decide +kernel⟩,
    ⟨up, kp, 35, by decide +kernel⟩,
    ⟨ward, pf, 63, 0, by decide +kernel⟩,
    ⟨up, kp, 63, by decide +kernel⟩,
    ⟨ward.setFld (Reg.FWD_CLAIM 35) F.FWD_CLAIM.HOLDER 2, pf, 35#64, by decide +kernel⟩,
    ⟨ward, pf, 36#64, by decide +kernel⟩⟩

/-- What the hypotheses of RingClaimsAndRepair ask for is met, part 2. -/
theorem wit_RingClaimsAndRepair_2 :
    (∃ (s : State) (by_ : Agent), (s.reaches by_ Reg.FWD_CLAIM_FORCE = true) ∧ (s.isWarden by_ = false)) ∧
    (∃ (s : State), (s.inReset = false)) ∧
    (∃ (s : State) (e : Nat), (s.inReset = false) ∧ (e < 524288)) ∧
    (∃ (s : State) (mem index : Nat), s.inReset = false ∧ mem = 2 ∧ ∃ c ∈ s.tab.bad, c.mem = mem ∧
      (if mem = 0 then c.index / 4 else c.index) = index) ∧
    (∃ (s : State) (e : Nat), s.inReset = false ∧ e < 524288 ∧ isDue (mfind s.tab.scrubbed e) s.scrubPeriod s.now = false) ∧
    (∃ (s : State) (e gi : Nat) (g : Group), s.inReset = false ∧ e < 524288 ∧ s.bankGroup e = some (gi, g) ∧
      s.underMove (logicalRow g e) = true) :=
  ⟨⟨up, kp, by decide +kernel⟩,
    ⟨up, by decide +kernel⟩,
    ⟨up, 524287, by decide +kernel⟩,
    ⟨{ up with tab := { bad := [⟨2, 7⟩] } }, 2, 7, by decide +kernel, rfl, ⟨2, 7⟩, by decide +kernel, by decide +kernel⟩,
    ⟨{ up with tab := { scrubbed := [(524287, 0)] } }, 524287, by decide +kernel⟩,
    ⟨(fun s : State => { s with tab := { s.tab with move := some ⟨0, 0, 8, some 8, [], false⟩ } }) grouped, 4, 0, grouped.groupOf 0, by decide +kernel⟩⟩

/-- What the hypotheses of RingClaimsAndRepair ask for is met, part 3. -/
theorem wit_RingClaimsAndRepair_3 :
    (∃ (s : State) (e : Nat), s.inReset = false ∧ e < 524288 ∧ isDue (mfind s.tab.scrubbed e) s.scrubPeriod s.now = true ∧
      s.bankGroup e = none ∧ (∃ result, result = 2 ∨ s.tab.copyBad.contains e = true) ∧ e = 524287) ∧
    (∃ (s : State) (e result : Nat), s.inReset = false ∧ e < 524288 ∧
      isDue (mfind s.tab.scrubbed e) s.scrubPeriod s.now = true ∧ s.bankGroup e = none ∧
      ¬ (result = 2 ∨ s.tab.copyBad.contains e = true) ∧ ¬ (result = 1 ∨ mget {} s.tab.tc e ≠ mget {} s.tab.tcDram e)) :=
  ⟨⟨up, 524287, by decide +kernel, by decide, by decide +kernel, by decide +kernel, ⟨2, .inl rfl⟩, rfl⟩,
    ⟨up, 0, 0, by decide +kernel⟩⟩

/-- What the hypotheses of MetersAndAdmission ask for is met. -/
theorem wit_MetersAndAdmission :
    (∃ (s : State) (id : Nat) (p : Packet), (s.inReset = false) ∧ (mfind s.pkts id = some p) ∧ (p.stage = .meter) ∧
      (s.inTurn id [] = true) ∧ ((∀ c ∈ p.cpu, s.flag (Reg.FWD_REASON c.reason) F.FWD_REASON.METER_EN = false)) ∧
      (p.meter = none ∨ p.kind = 0 ∨ p.tow = true)) ∧
    (∃ (s : State) (id : Nat) (p : Packet), ∃ i, (s.inReset = false) ∧ (mfind s.pkts id = some p) ∧ (p.stage = .meter) ∧
      (s.inTurn id [] = true) ∧ ((∀ c ∈ p.cpu, s.flag (Reg.FWD_REASON c.reason) F.FWD_REASON.METER_EN = false)) ∧
      (p.meter = some i) ∧ (p.kind ≠ 0) ∧ (p.tow = false)) ∧
    (∃ (s : State), (s.inReset = false) ∧ (mwf s.mtr.meters = true)) ∧
    (∃ (s : State) (id : Nat) (p : Packet), (s.inReset = false) ∧ (parseSlice p.port < 16) ∧ (mfind s.pkts id = some p) ∧
      (p.stage = .accept) ∧ (s.inTurn id [id] = true) ∧ (p.kind = 0) ∧ (p.mirror = none) ∧ (p.cpu = []) ∧ (p.ended = true) ∧
      (p.refs = 0)) ∧
    (∃ (s : State) (id : Nat) (p : Packet), (s.inReset = false) ∧ (parseSlice p.port < 16) ∧ (mfind s.pkts id = some p) ∧
      (p.stage = .accept) ∧ (s.inTurn id [id] = true) ∧ (p.kind = 0) ∧ (p.mirror = none) ∧ (p.cpu = []) ∧ (p.ended = false)) ∧
    (∃ (s : State) (id : Nat) (p : Packet), (s.inReset = false) ∧ (parseSlice p.port < 16) ∧ (mfind s.pkts id = some p) ∧
      (p.stage = .accept) ∧ (s.inTurn id [id] = true) ∧ (p.kind = 1) ∧ (p.foreign = none) ∧ (p.mirror = none) ∧
      (p.cpu = []) ∧ (p.dropped = false) ∧ (p.bad = false) ∧ (s.ready (16 + sliceOf p.outPort) = true) ∧
      (s.takesCopies p.outPort = true) ∧ (s.que.stopped = false) ∧
      ((s.store (parseSlice p.port) (s.poolFor (s.bufferLen p))).cache ≠ []) ∧
      (p.bytes.length ≤ 256 * poolSize (s.poolFor (s.bufferLen p))) ∧
      ((let rd := fun o f => s.cfgAtFld o f p.ver p.stamp; let g := poolSize (s.poolFor (s.bufferLen p)); s.admitRef rd (parseSlice p.port) (s.poolFor (s.bufferLen p)) (voq (parseSlice p.port) p.outPort p.cls) g (bitOf (rd (Reg.QUE_PFC p.port) F.QUE_PFC.EN) p.cls) [0, 0, 0, 0] = .ok))) :=
  ⟨⟨packet { port := 0, stage := .meter } up, 0, { port := 0, stage := .meter }, by decide +kernel⟩,
    ⟨packet { port := 0, stage := .meter, meter := some 1048575, kind := 1 } up, 0, { port := 0, stage := .meter, meter := some 1048575, kind := 1 }, 1048575, by decide +kernel⟩,
    ⟨up, by decide +kernel⟩,
    ⟨packet { port := 0, stage := .accept, ended := true } up, 0, { port := 0, stage := .accept, ended := true }, by decide +kernel⟩,
    ⟨packet { port := 0, stage := .accept } up, 0, { port := 0, stage := .accept }, by decide +kernel⟩,
    ⟨(fun s : State => { s with que := { s.que with stopped := false, stores := [(2, { size := 100000, cache := [5] })] } }) (packet { port := 0, stage := .accept, kind := 1, outPort := 8, cls := 7, ended := true, bytes := zeros 64, ver := 1 } ((up.putBit Reg.CFG_READY 16 true).setFld Reg.QUE_CTL F.QUE_CTL.HALTED 0)), 0, { port := 0, stage := .accept, kind := 1, outPort := 8, cls := 7, ended := true, bytes := zeros 64, ver := 1 }, by decide +kernel⟩⟩

/-- What the hypotheses of BufferStores ask for is met, part 1. -/
theorem wit_BufferStores_1 :
    (∃ (s : State) (sl : Nat) (k : Nat), (s.inReset = false) ∧ (sl < 16) ∧ (k < 4)) ∧
    (∃ (s : State) (sl : Nat) (k : Nat) (i : Nat), (s.inReset = false) ∧ (sl < 16) ∧ (k < 4) ∧
      ((s.store sl k).cache.length < 128) ∧
      (i < min 128 (((s.store sl k).size - (s.store sl k).fresh) + (s.store sl k).ring.length))) ∧
    (∃ (s : State) (sl : Nat) (ptr : Nat) (pool : Nat), (s.inReset = false) ∧ (sl < 16) ∧ (pool < 4) ∧
      (s.ptrOk pool ptr = false)) ∧
    (∃ (s : State) (sl : Nat) (ptr : Nat) (pool : Nat) (tag : Nat), (s.inReset = false) ∧ (sl < 16) ∧ (pool < 4) ∧
      (s.ptrOk pool ptr = true) ∧ ((∀ b, mfind s.que.bufs ptr = some b → b.tag ≠ tag))) ∧
    (∃ (s : State) (sl : Nat) (ptr : Nat) (pool : Nat) (tag : Nat), ∃ b, (s.inReset = false) ∧ (sl < 16) ∧ (pool < 4) ∧
      (s.ptrOk pool ptr = true) ∧ (mfind s.que.bufs ptr = some b) ∧ (b.tag = tag)) ∧
    (∃ (s : State), (s.inReset = false) ∧
      (let waits := s.que.auditAt ≤ s.now ∧ s.now < s.que.auditAt + s.auditPeriod; (s.flag Reg.QUE_AUDIT_CFG F.QUE_AUDIT_CFG.EN = false ∨ waits))) :=
  ⟨⟨up, 15, 3, by decide +kernel⟩,
    ⟨{ up with que := { stores := [(63, { size := 10 })] } }, 15, 3, 9, by decide +kernel⟩,
    ⟨up, 15, 0, 3, by decide +kernel⟩,
    ⟨{ up with que := { bufs := [(655360, ⟨3, 0, 9, 1⟩)] } }, 0, 655360, 3, 8, by decide +kernel⟩,
    ⟨{ up with que := { bufs := [(655360, ⟨3, 0, 9, 1⟩)] } }, 0, 655360, 3, 9, ⟨3, 0, 9, 1⟩, by decide +kernel⟩,
    ⟨up.setFld Reg.QUE_AUDIT_CFG F.QUE_AUDIT_CFG.EN 0, by decide +kernel⟩⟩

/-- What the hypotheses of BufferStores ask for is met, part 2. -/
theorem wit_BufferStores_2 :
    (∃ (s : State), (s.inReset = false) ∧
      (let waits := s.que.auditAt ≤ s.now ∧ s.now < s.que.auditAt + s.auditPeriod; (s.flag Reg.QUE_AUDIT_CFG F.QUE_AUDIT_CFG.EN = true) ∧ (¬ waits))) ∧
    (∃ (s : State) (by_ : Agent) (v : Word64), (s.reaches by_ Reg.QUE_CTL = true) ∧ (v.toNat % 2 = 1)) ∧
    (∃ (s : State) (by_ : Agent) (v : Word64), (s.reaches by_ Reg.QUE_CTL = true) ∧
      (let c := Reg.QUE_CTL; (v.toNat % 2 = 0) ∧ (s.flag c F.QUE_CTL.HALT = false))) ∧
    (∃ (s : State) (by_ : Agent) (v : Word64), (s.reaches by_ Reg.QUE_CTL = true) ∧
      (let c := Reg.QUE_CTL; (v.toNat % 2 = 0) ∧ (s.flag c F.QUE_CTL.HALT = true) ∧ (s.layoutOk = false))) ∧
    (∃ (s : State) (by_ : Agent) (v : Word64), (s.reaches by_ Reg.QUE_CTL = true) ∧
      (let c := Reg.QUE_CTL; (v.toNat % 2 = 0) ∧ (s.flag c F.QUE_CTL.HALT = true) ∧ (s.layoutOk = true))) :=
  ⟨⟨atMs 10000 up, by decide +kernel⟩,
    ⟨up, kp, 1#64, by decide +kernel⟩,
    ⟨up.setFld Reg.QUE_CTL F.QUE_CTL.HALT 0, kp, 0#64, by decide +kernel⟩,
    ⟨(up.setFld Reg.QUE_CTL F.QUE_CTL.HALT 1).wr (Reg.QUE_POOL 3) 0, kp, 0#64, by decide +kernel⟩,
    ⟨up.setFld Reg.QUE_CTL F.QUE_CTL.HALT 1, kp, 0#64, by decide +kernel⟩⟩

/-- What the hypotheses of FlowControl ask for is met, part 1. -/
theorem wit_FlowControl_1 :
    (∃ (s : State) (p : Nat) (lane : Nat) (d : Nat) (n : Nat), (s.inReset = false) ∧ (p < 514) ∧ (lane < 514) ∧
      (s.inFerry = false) ∧ (s.maySend p = true) ∧ (s.portOfLane lane = p) ∧ ((s.egress p).sending = none) ∧
      ((s.egress p).ahead = []) ∧ ((∃ c, c < 8 ∧ (mget {} s.que.pfc (8 * p + c)).owed = true)) ∧
      (s.now ≤ s.txStamp p lane d n) ∧ ((s.egress p).freeAt ≤ s.txStamp p lane d n)) ∧
    (∃ (s : State) (p : Nat) (c : Nat), (s.inReset = false) ∧ (p < 514) ∧ (c < 8)) ∧
    (∃ (s : State) (p : Nat) (c : Nat) (t : Stamp), (s.inReset = false) ∧ (p < 514) ∧ (c < 8) ∧
      ((mget {} s.que.pfc (8 * p + c)).emptyAt = some t) ∧ ((∀ k, k < 4 → (s.store (sliceOf p) k).level = 0))) ∧
    (∃ (s : State) (p : Nat) (opcode : Nat), (s.inReset = false) ∧ (p < 514) ∧ (s.portExists p = true) ∧
      (s.linkUp p = true) ∧ (s.portHalted p = false) ∧ (s.deaf p = false) ∧ (s.inFerry = false) ∧ (opcode = 0x0001)) ∧
    (∃ (s : State) (p : Nat) (opcode : Nat), (s.inReset = false) ∧ (p < 514) ∧ (s.portExists p = true) ∧
      (s.linkUp p = true) ∧ (s.portHalted p = false) ∧ (s.deaf p = false) ∧ (s.inFerry = false) ∧ (opcode ≠ 0x0001) ∧
      (opcode ≠ 0x0101)) ∧
    (∃ (s : State) (p : Nat) (opcode : Nat), (s.inReset = false) ∧ (p < 514) ∧ (s.portExists p = true) ∧
      (s.linkUp p = true) ∧ (s.portHalted p = false) ∧ (s.deaf p = false) ∧ (s.inFerry = false) ∧ (opcode = 0x0101)) :=
  ⟨⟨{ linked 513 up with que := { pfc := [(8 * 513 + 7, { owed := true })] } }, 513, 513, 0, 0, by decide +kernel⟩,
    ⟨up, 513, 7, by decide +kernel⟩,
    ⟨{ up with que := { pfc := [(8 * 513 + 7, { emptyAt := some 0 })] } }, 513, 7, 0, by decide +kernel⟩,
    ⟨linked 513 up, 513, 1, by decide +kernel⟩,
    ⟨linked 513 up, 513, 2, by decide +kernel⟩,
    ⟨linked 513 up, 513, 0x0101, by decide +kernel⟩⟩

/-- What the hypotheses of FlowControl ask for is met, part 2. -/
theorem wit_FlowControl_2 :
    (∃ (s : State) (p : Nat) (c : Nat) (t : Stamp) (t0 : Stamp) (seen : Bool), (s.inReset = false) ∧ (p < 514) ∧ (c < 8) ∧
      (mfind (s.egress p).pauses c = some (t, t0, seen))) :=
  ⟨egressed 513 { pauses := [(7, (1, 0, false))] } (up), 513, 7, 1, 0, false, by decide +kernel⟩

/-- What the hypotheses of SchedulingAndReplication ask for is met, part 1. -/
theorem wit_SchedulingAndReplication_1 :
    (∃ (s : State) (q : Nat) (d : Desc) (rest : List Desc) (p : Packet), (s.inReset = false) ∧ (q < 67840) ∧
      (s.queue q = d :: rest) ∧ (mfind s.pkts d.pkt = some p) ∧ (q ∉ s.que.offered) ∧
      ((p.ended = true ∨ p.cut = true ∧ d.kind = .unicast)) ∧ (q < 65792)) ∧
    (∃ (s : State) (q : Nat) (d : Desc) (rest : List Desc) (p : Packet), (s.inReset = false) ∧ (q < 67840) ∧
      (s.queue q = d :: rest) ∧ (mfind s.pkts d.pkt = some p) ∧ (q ∉ s.que.offered) ∧
      ((p.ended = true ∨ p.cut = true ∧ d.kind = .unicast)) ∧ (65792 ≤ q)) ∧
    (∃ (s : State) (p : Nat) (locked : Bool) (c : Copy), (s.inReset = false) ∧ (p < 514) ∧ (s.egressDown p = false) ∧
      ((s.egress p).offers = [c]) ∧ (c.port = p) ∧ (c.cls < 8) ∧ (c.source < 17) ∧ (c.kind = .unicast) ∧
      (s.stillLocked c = locked) ∧ (s.fitsNowhere p c.cls c.lsel = true)) ∧
    (∃ (s : State) (p : Nat) (locked : Bool) (c : Copy), (s.inReset = false) ∧ (p < 514) ∧ (s.egressDown p = false) ∧
      ((s.egress p).offers = [c]) ∧ (c.port = p) ∧ (c.cls < 8) ∧ (c.source < 17) ∧ (c.kind = .unicast) ∧
      (s.stillLocked c = locked) ∧ (s.fitsNowhere p c.cls c.lsel = false) ∧ (s.roomFor p locked = false)) ∧
    (∃ (s : State) (p : Nat) (locked : Bool) (slot : Stamp) (c : Copy), (s.inReset = false) ∧ (p < 514) ∧
      (s.egressDown p = false) ∧ ((s.egress p).offers = [c]) ∧ (c.port = p) ∧ (c.cls < 8) ∧ (c.source < 17) ∧
      (c.kind = .unicast) ∧ (s.stillLocked c = locked) ∧
      (let t := s.accrue p; (s.fitsNowhere p c.cls c.lsel = false) ∧ (s.roomFor p locked = true) ∧ (s.paused p c.cls = false) ∧ (t.portCredit p = true) ∧ (s.xbarRoom (sliceOf p) c.lsel = true) ∧ ((locked = false → s.gateAdmits p c.cls c.lsel slot = true ∧ t.classCreditOk p c.cls = true)))) ∧
    (∃ (s : State) (e : Nat) (q : Nat) (d : Desc) (rest : List Desc) (p : Packet), (s.inReset = false) ∧ (e < 16) ∧
      (65792 ≤ q) ∧ (q < 67840) ∧ ((q - 65792) % 128 / 8 = e) ∧ (s.que.offered = [q]) ∧ (s.queue q = d :: rest) ∧
      (mfind s.pkts d.pkt = some p) ∧ (s.xbarRoom e (s.bufferLen p) = true)) :=
  ⟨⟨(fun s : State => { s with que := { queues := [(65791, [⟨0, .unicast, 8, 2⟩])] } }) (packet pktNow up), 65791, ⟨0, .unicast, 8, 2⟩, [], pktNow, by decide +kernel⟩,
    ⟨(fun s : State => { s with que := { queues := [(67839, [⟨0, .unicast, 8, 2⟩])] } }) (packet pktNow up), 67839, ⟨0, .unicast, 8, 2⟩, [], pktNow, by decide +kernel⟩,
    ⟨(fun s : State => { s with egr := { s.egr with gates := [(512 * 513, 1000)] } }) (egressed 513 { offers := [{ ucopy 513 with lsel := 64 }], sched := some ⟨0, 1, 1000, 0⟩ } (packet pktNow (linked 513 (enabled 513 up)))), 513, false, { ucopy 513 with lsel := 64 }, by decide +kernel⟩,
    ⟨forced (Reg.SCH_PORT_CFG 513) 0 (egressed 513 { offers := [ucopy 513] } (packet pktNow (linked 513 up))), 513, false, ucopy 513, by decide +kernel⟩,
    ⟨egressed 513 { offers := [ucopy 513], creditAt := 0 } (packet pktNow (linked 513 (enabled 513 up))), 513, false, 0, ucopy 513, by decide +kernel⟩,
    ⟨(fun s : State => { s with que := { queues := [(67839, [⟨0, .multicast, 8, 2⟩])], offered := [67839] } }) (packet pktNow up), 15, 67839, ⟨0, .multicast, 8, 2⟩, [], pktNow, by decide +kernel⟩⟩

/-- What the hypotheses of SchedulingAndReplication ask for is met, part 2. -/
theorem wit_SchedulingAndReplication_2 :
    (∃ (s : State) (e : Nat) (r : Replica) (p : Packet), (s.inReset = false) ∧ (e < 16) ∧
      (s.egr.replicas.find? (fun x => x.slice == e && !x.made) = some r) ∧ (mfind s.pkts r.pkt = some p) ∧
      (s.groupSlot p.group p.ver = none)) ∧
    (∃ (s : State) (e : Nat) (r : Replica) (p : Packet), ∃ g port, (s.inReset = false) ∧ (e < 16) ∧
      (s.egr.replicas.find? (fun x => x.slice == e && !x.made) = some r) ∧ (mfind s.pkts r.pkt = some p) ∧
      (s.groupSlot p.group p.ver = some g) ∧ ((s.copyEntries g).filter (fun x => sliceOf x.1 == e) = [(port, none)]) ∧
      (s.portExists port = true) ∧ (s.exportPort port = false) ∧ (s.towPort port = false) ∧
      (((g.exclude || p.flood || p.tow) && port == p.port) = false)) :=
  ⟨⟨(fun s : State => { s with egr := { replicas := [{ pkt := 0, slice := 15, queue := 67839, gran := 2 }] } }) (packet pktNow up), 15, { pkt := 0, slice := 15, queue := 67839, gran := 2 }, pktNow, by decide +kernel⟩,
    ⟨(fun s : State => { s with egr := { s.egr with replicas := [{ pkt := 0, slice := 15, queue := 67839, gran := 2 }], groups := [(131071, { count := 1, valid := true, immediate := true, mask := 2 ^ 15 })], lists := [(0, 504)] } }) (packet { pktNow with group := 65535, ver := 1 } up), 15, { pkt := 0, slice := 15, queue := 67839, gran := 2 }, { pktNow with group := 65535, ver := 1 }, { count := 1, valid := true, immediate := true, mask := 2 ^ 15 }, 504, by decide +kernel⟩⟩

/-- What the hypotheses of LockAndTransmission ask for is met, part 1. -/
theorem wit_LockAndTransmission_1 :
    (∃ (s : State) (p : Nat) (c : Copy) (rest : List Copy), (s.inReset = false) ∧ (p < 514) ∧
      ((s.egress p).crossing = c :: rest) ∧ (s.stillLocked c = false) ∧ (s.egressDown p = false)) ∧
    (∃ (s : State) (p : Nat) (c : Copy) (rest : List Copy), (s.inReset = false) ∧ (p < 514) ∧
      ((s.egress p).crossing = c :: rest) ∧ (s.stillLocked c = true) ∧ (c.late = false) ∧ (s.now ≤ c.release.getD 0)) ∧
    (∃ (s : State) (p : Nat) (c : Copy) (rest : List Copy), (s.inReset = false) ∧ (p < 514) ∧
      ((s.egress p).crossing = c :: rest) ∧ (s.stillLocked c = true) ∧ (c.late = false) ∧ (c.release.getD 0 < s.now) ∧
      (s.lateDrop c = false)) ∧
    (∃ (s : State) (p : Nat) (c : Copy) (rest : List Copy), (s.inReset = false) ∧ (p < 514) ∧
      ((s.egress p).fifo = c :: rest) ∧ (c.port = p) ∧ (s.now < c.release.getD 0)) ∧
    (∃ (s : State) (p : Nat) (c : Copy) (rest : List Copy), (s.inReset = false) ∧ (p < 514) ∧
      ((s.egress p).fifo = c :: rest) ∧ (c.port = p) ∧ (c.release.getD 0 ≤ s.now)) ∧
    (∃ (s : State) (p : Nat) (parity : Bool) (c : Copy) (rest : List Copy), (s.inReset = false) ∧ (p < 514) ∧
      ((s.egress p).fifo = c :: rest) ∧ (c.port = p) ∧ (c.release.getD 0 ≤ s.now) ∧ (parity = true)) :=
  ⟨⟨egressed 513 { crossing := [ucopy 513] } (packet pktNow (linked 513 up)), 513, ucopy 513, [], by decide +kernel⟩,
    ⟨atMs 0 ((egressed 513 { crossing := [{ ucopy 513 with release := some 0 }] } (packet pktNow (linked 513 up))).setFld Reg.TIM_STATE F.TIM_STATE.LOCK_ACTIVE 1), 513, { ucopy 513 with release := some 0 }, [], by decide +kernel⟩,
    ⟨atMs 1 ((egressed 513 { crossing := [{ ucopy 513 with release := some 0 }] } (packet pktNow (linked 513 up))).setFld Reg.TIM_STATE F.TIM_STATE.LOCK_ACTIVE 1), 513, { ucopy 513 with release := some 0 }, [], by decide +kernel⟩,
    ⟨egressed 513 { fifo := [{ ucopy 513 with release := some 1 }] } (packet pktNow (linked 513 up)), 513, { ucopy 513 with release := some 1 }, [], by decide +kernel⟩,
    ⟨egressed 513 { fifo := [{ ucopy 513 with release := some 0 }] } (packet pktNow (linked 513 up)), 513, { ucopy 513 with release := some 0 }, [], by decide +kernel⟩,
    ⟨egressed 513 { fifo := [{ ucopy 513 with release := some 0 }] } (packet pktNow (linked 513 up)), 513, true, { ucopy 513 with release := some 0 }, [], by decide +kernel⟩⟩

/-- What the hypotheses of LockAndTransmission ask for is met, part 2. -/
theorem wit_LockAndTransmission_2 :
    (∃ (s : State) (p : Nat) (slot : Stamp) (parity : Bool) (c : Copy) (rest : List Copy), (s.inReset = false) ∧ (p < 514) ∧
      ((s.egress p).fifo = c :: rest) ∧ (c.port = p) ∧ (c.release.getD 0 ≤ s.now) ∧ (parity = false) ∧
      (s.egressDown p = false) ∧ (c.late = false) ∧ (s.gateAdmits p c.cls c.lsel slot = true) ∧ (s.paused p c.cls = false) ∧
      ((s.accrue p).portCredit p = true)) ∧
    (∃ (s : State) (p : Nat) (lane : Nat) (d : Nat) (n : Nat) (first : Stamp) (x : Copy), (s.inReset = false) ∧ (p < 514) ∧
      (lane < 514) ∧ (s.maySend p = true) ∧ (s.portOfLane lane = p) ∧ ((s.egress p).sending = none) ∧
      (s.now ≤ s.txStamp p lane d n) ∧ ((s.egress p).freeAt ≤ s.txStamp p lane d n) ∧
      ((∀ k, k < 8 → (mget {} s.que.pfc (8 * p + k)).owed = false)) ∧ (x.port = p) ∧
      (let t := s.txStamp p lane d n; ((s.egress p).due = [x]) ∧ (s.slotOk x t first (s.stillLocked x) = true) ∧ ((s.accrue p).heldAt x t (s.stillLocked x) = false))) ∧
    (∃ (s : State) (p : Nat) (lane : Nat) (d : Nat) (n : Nat) (x : Copy), (s.inReset = false) ∧ (p < 514) ∧ (lane < 514) ∧
      (s.maySend p = true) ∧ (s.portOfLane lane = p) ∧ ((s.egress p).sending = none) ∧ (s.now ≤ s.txStamp p lane d n) ∧
      ((s.egress p).freeAt ≤ s.txStamp p lane d n) ∧ ((∀ k, k < 8 → (mget {} s.que.pfc (8 * p + k)).owed = false)) ∧
      (x.port = p) ∧
      (let t := s.txStamp p lane d n; ((s.egress p).due = []) ∧ ((s.egress p).staging = [x]) ∧ (s.stillLocked x = false) ∧ ((s.accrue p).heldAt x t false = false) ∧ (s.gateAdmits p x.cls x.lsel t = true) ∧ (s.guardOk x t = true))) ∧
    (∃ (s : State) (p : Nat) (lane : Nat) (d : Nat) (n : Nat) (x : Copy), (s.inReset = false) ∧ (p < 514) ∧ (lane < 514) ∧
      (s.maySend p = true) ∧ (s.portOfLane lane = p) ∧ ((s.egress p).sending = none) ∧ (s.now ≤ s.txStamp p lane d n) ∧
      ((s.egress p).freeAt ≤ s.txStamp p lane d n) ∧ ((∀ k, k < 8 → (mget {} s.que.pfc (8 * p + k)).owed = false)) ∧
      (x.port = p) ∧ ((s.egress p).due = []) ∧ ((s.egress p).staging = [])) ∧
    (∃ (s : State) (p : Nat) (t : Stamp) (x : Sending) (pk : Packet), (s.inReset = false) ∧ (p < 514) ∧
      ((s.egress p).sending = some x) ∧ (mfind s.pkts x.copy.pkt = some pk) ∧
      (let f := (s.outFrame x.copy pk x.stamp).1; let ends := pk.ended = true ∧ x.stamp + s.leastSpan p f.length ≤ t ∧ t ≤ x.stamp + s.tNeed p f.length; (¬ ends))) ∧
    (∃ (s : State) (p : Nat) (t : Stamp) (x : Sending) (pk : Packet), (s.inReset = false) ∧ (p < 514) ∧
      ((s.egress p).sending = some x) ∧ (mfind s.pkts x.copy.pkt = some pk) ∧
      (let f := (s.outFrame x.copy pk x.stamp).1; let ends := pk.ended = true ∧ x.stamp + s.leastSpan p f.length ≤ t ∧ t ≤ x.stamp + s.tNeed p f.length; (ends))) :=
  ⟨⟨egressed 513 { fifo := [{ ucopy 513 with release := some 0 }] } (packet pktNow (linked 513 up)), 513, 0, false, { ucopy 513 with release := some 0 }, [], by decide +kernel⟩,
    ⟨egressed 513 { due := [ucopy 513] } (packet pktNow (linked 513 up)), 513, 513, 0, 0, 0, ucopy 513, by decide +kernel⟩,
    ⟨egressed 513 { staging := [ucopy 513] } (packet pktNow (linked 513 up)), 513, 513, 0, 0, ucopy 513, by decide +kernel⟩,
    ⟨egressed 513 {} (packet pktNow (linked 513 up)), 513, 513, 0, 0, ucopy 513, by decide +kernel⟩,
    ⟨egressed 513 { sending := some ⟨ucopy 513, 0, 0, 0, false, none⟩ } (packet pktNow (linked 513 up)), 513, 0, ⟨ucopy 513, 0, 0, 0, false, none⟩, pktNow, by decide +kernel⟩,
    ⟨egressed 513 { sending := some ⟨ucopy 513, 0, 0, 0, false, none⟩ } (packet pktNow (linked 513 up)), 513, 3355444, ⟨ucopy 513, 0, 0, 0, false, none⟩, pktNow, by decide +kernel⟩⟩

/-- What the hypotheses of LockAndTransmission ask for is met, part 3. -/
theorem wit_LockAndTransmission_3 :
    (∃ (s : State) (p : Nat) (t : Stamp) (x : Sending) (pk : Packet), (s.inReset = false) ∧ (p < 514) ∧
      ((s.egress p).sending = some x) ∧ (mfind s.pkts x.copy.pkt = some pk) ∧
      (let f := (s.outFrame x.copy pk x.stamp).1; let ends := pk.ended = true ∧ x.stamp + s.leastSpan p f.length ≤ t ∧ t ≤ x.stamp + s.tNeed p f.length; (ends) ∧ ((s.egress p).ahead = []))) :=
  ⟨egressed 513 { sending := some ⟨ucopy 513, 0, 0, 0, false, none⟩ } (packet pktNow (linked 513 up)), 513, 3355444, ⟨ucopy 513, 0, 0, 0, false, none⟩, pktNow, by decide +kernel⟩

/-- What the hypotheses of GatesAndShapers ask for is met. -/
theorem wit_GatesAndShapers :
    (∃ (s : State) (p : Nat), (s.inReset = false) ∧ (p < 514)) ∧
    (∃ (s : State) (p : Nat) (k : Stamp) (g : Sched), (s.inReset = false) ∧ (p < 514) ∧ ((s.egress p).pending = some (k, g))) ∧
    (∃ (s : State) (by_ : Agent) (i : Nat), (i < 256) ∧ (s.reaches by_ (Reg.SCH_GL i) = true) ∧
      (s.fld Reg.SCH_GL_SEL F.SCH_GL_SEL.PORT ≤ 513) ∧
      (let p := s.fld Reg.SCH_GL_SEL F.SCH_GL_SEL.PORT; let b := s.fld Reg.SCH_GL_SEL F.SCH_GL_SEL.BANK; let used := (s.egress p).sched.map (·.bank) = some b ∨ (s.egress p).pending.map (·.2.bank) = some b; (used))) :=
  ⟨⟨up, 513, by decide +kernel⟩,
    ⟨egressed 513 { pending := some (0, ⟨1, 1, 10, 0⟩) } (up), 513, 0, ⟨1, 1, 10, 0⟩, by decide +kernel⟩,
    ⟨egressed 513 { sched := some ⟨1, 1, 10, 0⟩ } ((up.setFld Reg.SCH_GL_SEL F.SCH_GL_SEL.PORT 513).setFld Reg.SCH_GL_SEL F.SCH_GL_SEL.BANK 1), kp, 255, by decide +kernel⟩⟩

/-- What the hypotheses of WitnessLog ask for is met, part 1. -/
theorem wit_WitnessLog_1 :
    (∃ (s : State), (s.inReset = false) ∧ (s.witOn = false ∨ s.now < s.wit.epochEnd)) ∧
    (∃ (s : State), (s.inReset = false) ∧ (s.witOn = true) ∧ (s.wit.epochEnd ≤ s.now)) ∧
    (∃ (s : State) (ok : Bool) (b : SealBody) (rest : List SealBody), (s.inReset = false) ∧ (s.wit.bodies = b :: rest) ∧
      (s.secServing = some 1) ∧ (ok = false)) ∧
    (∃ (s : State) (by_ : Agent), (s.reaches by_ Reg.WIT_CTL = true) ∧ (s.isWarden by_ = true)) ∧
    (∃ (s : State) (by_ : Agent), (s.reaches by_ Reg.WIT_CTL = true) ∧ (s.isWarden by_ = true) ∧ (s.witOn = true)) ∧
    (∃ (s : State) (by_ : Agent), (s.reaches by_ Reg.WIT_CTL = true) ∧ (s.isWarden by_ = true) ∧ (s.witOn = true) ∧
      (s.flag Reg.SEC_STATUS F.SEC_STATUS.READY = true)) :=
  ⟨⟨up, by decide +kernel⟩,
    ⟨((up.putBit Reg.CFG_READY 7 true).setFld Reg.WIT_CTL F.WIT_CTL.EN 1), by decide +kernel⟩,
    ⟨{ up.setFld Reg.SEC_STATUS F.SEC_STATUS.READY 1 with wit := { bodies := [⟨0, zeros 64, false⟩] } }, false, ⟨0, zeros 64, false⟩, [], by decide +kernel⟩,
    ⟨ward, pf, by decide +kernel⟩,
    ⟨((ward.putBit Reg.CFG_READY 7 true).setFld Reg.WIT_CTL F.WIT_CTL.EN 1), pf, by decide +kernel⟩,
    ⟨((ward.putBit Reg.CFG_READY 7 true).setFld Reg.WIT_CTL F.WIT_CTL.EN 1).setFld Reg.SEC_STATUS F.SEC_STATUS.READY 1, pf, by decide +kernel⟩⟩

/-- What the hypotheses of WitnessLog ask for is met, part 2. -/
theorem wit_WitnessLog_2 :
    (∃ (s : State) (by_ : Agent), (s.reaches by_ Reg.WIT_CTL = true) ∧ (s.isWarden by_ = false)) ∧
    (∃ (s : State) (x : WUnit) (rest : List WUnit), (s.inReset = false) ∧ (s.wit.staged = x :: rest) ∧
      (let wr := s.rd Reg.WIT_RING_WR; let size := s.fld Reg.WIT_RING_CFG F.WIT_RING_CFG.SIZE; (wr - s.rd Reg.WIT_RING_REL < size))) ∧
    (∃ (s : State) (x : WUnit) (rest : List WUnit), (s.inReset = false) ∧ (s.wit.staged = x :: rest) ∧
      (let wr := s.rd Reg.WIT_RING_WR; let size := s.fld Reg.WIT_RING_CFG F.WIT_RING_CFG.SIZE; (size ≤ wr - s.rd Reg.WIT_RING_REL) ∧ (s.wit.full = true))) ∧
    (∃ (s : State) (x : WUnit) (rest : List WUnit), (s.inReset = false) ∧ (s.wit.staged = x :: rest) ∧
      (let wr := s.rd Reg.WIT_RING_WR; let size := s.fld Reg.WIT_RING_CFG F.WIT_RING_CFG.SIZE; (size ≤ wr - s.rd Reg.WIT_RING_REL) ∧ (s.wit.full = false))) :=
  ⟨⟨up, kp, by decide +kernel⟩,
    ⟨{ up.setFld Reg.WIT_RING_CFG F.WIT_RING_CFG.SIZE 16 with wit := { staged := [⟨16, zeros 64⟩] } }, ⟨16, zeros 64⟩, [], by decide +kernel⟩,
    ⟨{ (up.setFld Reg.WIT_RING_CFG F.WIT_RING_CFG.SIZE 16).wr Reg.WIT_RING_WR 16 with wit := { staged := [⟨0, zeros 64⟩], full := true } }, ⟨0, zeros 64⟩, [], by decide +kernel⟩,
    ⟨{ (up.setFld Reg.WIT_RING_CFG F.WIT_RING_CFG.SIZE 16).wr Reg.WIT_RING_WR 16 with wit := { staged := [⟨0, zeros 64⟩], full := false } }, ⟨0, zeros 64⟩, [], by decide +kernel⟩⟩

/-- What the hypotheses of WitnessExport ask for is met. -/
theorem wit_WitnessExport :
    (∃ (s : State), (s.inReset = false) ∧ (s.flag Reg.WIT_EXP_CTL F.WIT_EXP_CTL.PUSH_EN = true) ∧ (s.ready 14 = true) ∧
      (s.wit.pushNextX < s.rd Reg.WIT_RING_WR) ∧ ((s.fnSt 1).d3hot = false) ∧ ((∃ c, c < 16 ∧ s.chanOn c 3 = true)) ∧
      ((∀ c, c < 16 → s.dmaMay c 1 = true))) ∧
    (∃ (s : State) (by_ : Agent) (i : Nat), (i < 8) ∧ (s.reaches by_ (Reg.WIT_EXP_RING_HEAD i) = true)) ∧
    (∃ (s : State) (by_ : Agent), (s.reaches by_ Reg.WIT_PULL_HEAD = true) ∧
      (s.flag Reg.WIT_EXP_CTL F.WIT_EXP_CTL.PULL_EN = true)) ∧
    (∃ (s : State) (j : Nat) (errs : List (Nat × Nat)), (s.inReset = false) ∧
      (s.flag Reg.WIT_EXP_CTL F.WIT_EXP_CTL.PORTS_EN = true) ∧ (s.ready 14 = true) ∧ (j < s.exportPorts) ∧
      (mget 0 s.wit.portRel j < s.rd Reg.WIT_RING_WR) ∧ ((∃ e ∈ errs, e.2 = 2))) ∧
    (∃ (s : State) (j : Nat) (errs : List (Nat × Nat)), (s.inReset = false) ∧
      (s.flag Reg.WIT_EXP_CTL F.WIT_EXP_CTL.PORTS_EN = true) ∧ (s.ready 14 = true) ∧ (j < s.exportPorts) ∧
      (mget 0 s.wit.portRel j < s.rd Reg.WIT_RING_WR) ∧ ((∀ e ∈ errs, e.2 ≠ 2))) :=
  ⟨⟨((((((channed 15 3 up).putBit Reg.CFG_READY 14 true)).wr (Reg.SEC_PROT_ACTIVE 0 0) (5 + 255 * 16)).wr (Reg.SEC_PROT_ACTIVE 0 1) 15).setFld Reg.WIT_EXP_CTL F.WIT_EXP_CTL.PUSH_EN 1).wr Reg.WIT_RING_WR 1, by decide +kernel⟩,
    ⟨up, kp, 7, by decide +kernel⟩,
    ⟨up.setFld Reg.WIT_EXP_CTL F.WIT_EXP_CTL.PULL_EN 1, kp, by decide +kernel⟩,
    ⟨(linked 0 (((channed 15 3 up).putBit Reg.CFG_READY 14 true).setFld Reg.WIT_EXP_CTL F.WIT_EXP_CTL.PORTS_EN 1)).wr Reg.WIT_RING_WR 1, 0, [(0, 2)], by decide +kernel⟩,
    ⟨(linked 0 (((channed 15 3 up).putBit Reg.CFG_READY 14 true).setFld Reg.WIT_EXP_CTL F.WIT_EXP_CTL.PORTS_EN 1)).wr Reg.WIT_RING_WR 1, 0, [(0, 1)], by decide +kernel⟩⟩

/-- What the hypotheses of TowpathMembership ask for is met, part 1. -/
theorem wit_TowpathMembership_1 :
    (∃ (s : State), (s.inReset = false)) ∧
    (∃ (s : State) (p : Nat) (bytes : Bytes), (s.inReset = false) ∧ (p < 512) ∧ (s.towReceives p = true) ∧
      (towW2 bytes 63 62 = 1) ∧ (byteAt bytes 32 = 0) ∧ ((s.towFrameOk p bytes).1 = true) ∧
      (s.cfgFlag Reg.TOW_CFG F.TOW_CFG.EN = true)) ∧
    (∃ (s : State) (i : Nat), (s.inReset = false) ∧ (i < 512) ∧ (s.isMember = false ∨ s.reachable i = true)) ∧
    (∃ (s : State) (i : Nat), (s.inReset = false) ∧ (i < 512) ∧ (s.towSt = 2) ∧ (s.reachable i = false) ∧
      (s.cfgFlag Reg.TOW_CFG F.TOW_CFG.EN = true) ∧ (s.inFerry = false) ∧ (s.tow.masterHash = none) ∧ (s.majority = false)) ∧
    (∃ (s : State) (by_ : Agent), (s.reaches by_ Reg.TOW_CTL = true)) ∧
    (∃ (s : State), (s.inReset = false) ∧ (s.mayRejoin = false)) :=
  ⟨⟨up, by decide +kernel⟩,
    ⟨forced Reg.TOW_CFG (2 ^ F.TOW_CFG.EN.lo) member, 0, towFrame 1 0, by decide +kernel⟩,
    ⟨up, 511, by decide +kernel⟩,
    ⟨(member.setFld Reg.TOW_STATE F.TOW_STATE.STATE 2 |> forced Reg.TOW_CFG (2^63)), 5, by decide +kernel⟩,
    ⟨up, kp, by decide +kernel⟩,
    ⟨up, by decide +kernel⟩⟩

/-- What the hypotheses of TowpathMembership ask for is met, part 2. -/
theorem wit_TowpathMembership_2 :
    (∃ (s : State), ∃ p, (s.inReset = false) ∧ (s.parentPort = some p) ∧ (s.mayRejoin = true)) ∧
    (∃ (s : State) (p : Nat) (bytes : Bytes), (s.inReset = false) ∧ (p < 512) ∧ (s.towReceives p = true) ∧
      (towW2 bytes 63 62 = 1) ∧ (byteAt bytes 32 = 1) ∧ ((s.towFrameOk p bytes).1 = true)) ∧
    (∃ (s : State) (p : Nat), (s.inReset = false) ∧ (p < 512)) ∧
    (∃ (s : State) (by_ : Agent) (p : Nat) (v : Word64), (p < 512) ∧ (s.reaches by_ (Reg.TOW_PORT_CFG p) = true) ∧
      (let want := bits v.toNat 63 63 == 1; let bad := s.towPort p = false ∧ want = true ∧ (s.phyOf p < 4 ∨ s.exportPort p = true); (bad))) ∧
    (∃ (s : State) (by_ : Agent) (p : Nat) (v : Word64), (p < 512) ∧ (s.reaches by_ (Reg.TOW_PORT_CFG p) = true) ∧
      (let want := bits v.toNat 63 63 == 1; let bad := s.towPort p = false ∧ want = true ∧ (s.phyOf p < 4 ∨ s.exportPort p = true); (¬ bad))) ∧
    (∃ (s : State) (p : Nat) (bytes : Bytes), s.inReset = false ∧ p < 512 ∧ s.towReceives p = true ∧ towW2 bytes 63 62 = 1 ∧
      byteAt bytes 32 = 1 ∧ (s.towFrameOk p bytes).1 = true ∧ p ∉ s.tow.anchorDue ∧ s.sendsAtOnce p) :=
  ⟨⟨{ (atMs 1000 (linked 0 (((forced (Reg.TOW_WEIGHT 0) 1 (up.setFld Reg.TOW_STATE F.TOW_STATE.STATE 4))).setFld (Reg.TOW_PORT_CFG 0) F.TOW_PORT_CFG.EN 1))) with tow := { master := some 9, ports := [(0, { heard := some second, peer := { master := 9, hops := 0 } })] }, tim := { inTrack := 1000 } }, 0, by decide +kernel⟩,
    ⟨member, 0, towFrame 1 1, by decide +kernel⟩,
    ⟨up, 511, by decide +kernel⟩,
    ⟨up, kp, 511, 0x8000000000000000#64, by decide +kernel⟩,
    ⟨up, kp, 511, 0#64, by decide +kernel⟩,
    ⟨member.setFld (Reg.PRT_CFG 0) F.PRT_CFG.EN 1, 0, towFrame 1 1, by simp only [State.sendsAtOnce]; decide +kernel⟩⟩

/-- What the hypotheses of TowpathMembership ask for is met, part 3. -/
theorem wit_TowpathMembership_3 :
    (∃ (s : State) (p : Nat) (diff : Int), p < 512 ∧ s.towPort p = true ∧ s.linkUp p = true ∧
      isDue (s.towPeer p).freqAt (100 * millisecond) s.now = true ∧ 50000 < diff.natAbs) :=
  ⟨member, 0, -50001, by decide +kernel⟩

/-- What the hypotheses of TowpathTimeAndData ask for is met. -/
theorem wit_TowpathTimeAndData :
    (∃ (s : State) (p : Nat) (lane : Nat), (s.inReset = false) ∧ (p < 512) ∧ (lane < 514)) ∧
    (∃ (s : State) (p : Nat) (bytes : Bytes) (lane : Nat), ∃ t1 t2 t3 t4 m, (s.inReset = false) ∧ (p < 512) ∧ (lane < 514) ∧
      (s.towReceives p = true) ∧ (s.portOfLane lane = p) ∧ (towW2 bytes 63 62 = 2) ∧ ((s.towFrameOk p bytes).1 = true) ∧
      (mfind (s.towPeer p).sent (leAt (sub bytes 32 48) 16 4) = some t1) ∧ (ofD96 (leAt (sub bytes 32 48) 20 12) = some t2) ∧
      (ofD96 (leAt (sub bytes 32 48) 4 12) = some t3) ∧ ((s.towPeer p).rx = some (m, t4)) ∧
      ((m + 1) % 2 ^ 32 = leAt (sub bytes 32 48) 0 4) ∧ ((s.towPeer p).accepted < 16)) ∧
    (∃ (s : State) (p : Nat) (bytes : Bytes), (s.inReset = false) ∧ (p < 512) ∧ (s.towReceives p = true) ∧
      (towW2 bytes 63 62 = 0) ∧ ((s.towFrameOk p bytes).1 = true) ∧ (towW3 bytes 9 8 = 0) ∧
      (bits (towW3 bytes 28 10) 18 10 = s.ownSys) ∧ (s.portExists (bits (towW3 bytes 28 10) 9 0) = true) ∧
      (s.towPort (bits (towW3 bytes 28 10) 9 0) = false)) ∧
    (∃ (s : State) (p : Nat) (bytes : Bytes), (s.inReset = false) ∧ (p < 512) ∧ (s.towReceives p = true) ∧
      (towW2 bytes 63 62 = 0) ∧ ((s.towFrameOk p bytes).1 = true) ∧ (towW3 bytes 9 8 = 0) ∧
      (bits (towW3 bytes 28 10) 18 10 ≠ s.ownSys) ∧ (towW3 bytes 63 60 = 0)) ∧
    (∃ (s : State) (p : Nat) (bytes : Bytes), (s.inReset = false) ∧ (p < 512) ∧ (s.towReceives p = true) ∧
      (towW2 bytes 63 62 = 0) ∧ ((s.towFrameOk p bytes).1 = true) ∧ (towW3 bytes 9 8 = 3)) ∧
    (∃ (s : State) (p lane d n : Nat), s.isMember = true ∧ s.inFerry = false ∧ p ∈ s.towPorts ∧ s.maySend p = true ∧
      s.portOfLane lane = p ∧ isDue (s.towPeer p).lastSent (s.updateInterval 4) s.now = true ∧ (s.egress p).sending = none ∧
      (∀ k, k < 8 → (mget {} s.que.pfc (8 * p + k)).owed = false) ∧ s.now ≤ s.txStamp p lane d n ∧
      (s.egress p).freeAt ≤ s.txStamp p lane d n) :=
  ⟨⟨member.setFld (Reg.PRT_CFG 0) F.PRT_CFG.EN 1, 0, 0, by decide +kernel⟩,
    ⟨{ member with tow := { ports := [(0, { sent := [(0, 5)], rx := some (2 ^ 32 - 1, 7) })] } }, 0, towFrame 2 0, 0, 5, 0, 0, 7, 2 ^ 32 - 1, by decide +kernel⟩,
    ⟨member, 0, towData (8 * 2 ^ 10), by decide +kernel⟩,
    ⟨member, 0, towData (2 ^ 20), by decide +kernel⟩,
    ⟨member, 0, towData (3 * 2 ^ 8), by decide +kernel⟩,
    ⟨member.setFld (Reg.PRT_CFG 0) F.PRT_CFG.EN 1, 0, 0, 0, 0, by decide +kernel⟩⟩

/-- What the hypotheses of MemoryCommands ask for is met, part 1. -/
theorem wit_MemoryCommands_1 :
    (∃ (s : State) (pc : Nat), (s.inReset = false) ∧ (pc < 64)) ∧
    (∃ (s : State) (k : Nat), (s.inReset = false) ∧ (k < 2) ∧
      (s.cfgFlag Reg.HBM_CTL F.HBM_CTL.SR_EN = false ∨ s.hbmRuns k = false ∨ s.wit.staged ≠ [] ∨ s.wit.panic ≠ none)) ∧
    (∃ (s : State) (k : Nat), (s.inReset = false) ∧ (k < 2) ∧ (s.cfgFlag Reg.HBM_CTL F.HBM_CTL.SR_EN = true) ∧
      (s.hbmRuns k = true) ∧ (s.wit.staged = []) ∧ (s.wit.panic = none) ∧
      (mget 0 s.hbm.lastReq k + max 1 (s.cfgFld Reg.HBM_CTL F.HBM_CTL.SR_IDLE_US) * microsecond ≤ s.now)) ∧
    (∃ (s : State) (k : Nat), (s.inReset = false) ∧ (k < 2)) ∧
    (∃ (s : State) (line : Nat), (s.inReset = false) ∧ (line < 805306368) ∧
      (s.flag (Reg.HBM_STAT (hbmStack (64 * line))) F.HBM_STAT.TRAINED = true)) ∧
    (∃ (s : State), (s.inReset = false) ∧ (s.flag Reg.HBM_CAP_CFG F.HBM_CAP_CFG.FREEZE = true)) :=
  ⟨⟨up, 63, by decide +kernel⟩,
    ⟨up, 1, by decide +kernel⟩,
    ⟨atMs 1000 (forced Reg.HBM_CTL (2^F.HBM_CTL.SR_EN.lo) (up.setFld (Reg.HBM_STAT 1) F.HBM_STAT.TRAINED 1)), 1, by decide +kernel⟩,
    ⟨up, 1, by decide +kernel⟩,
    ⟨(up.setFld (Reg.HBM_STAT 1) F.HBM_STAT.TRAINED 1).setFld (Reg.HBM_STAT 0) F.HBM_STAT.TRAINED 1, 805306367, by decide +kernel⟩,
    ⟨up.setFld Reg.HBM_CAP_CFG F.HBM_CAP_CFG.FREEZE 1, by decide +kernel⟩⟩

/-- What the hypotheses of MemoryCommands ask for is met, part 2. -/
theorem wit_MemoryCommands_2 :
    (∃ (s : State) (e : CapEntry) (rest : List CapEntry), (s.inReset = false) ∧
      (s.flag Reg.HBM_CAP_CFG F.HBM_CAP_CFG.FREEZE = false) ∧ (s.hbm.capStaging = e :: rest) ∧
      (s.captureSize < e.data.length)) ∧
    (∃ (s : State) (e : CapEntry) (rest : List CapEntry), (s.inReset = false) ∧
      (s.flag Reg.HBM_CAP_CFG F.HBM_CAP_CFG.FREEZE = false) ∧ (s.hbm.capStaging = e :: rest) ∧
      (let off := s.fld Reg.HBM_CAP_STAT F.HBM_CAP_STAT.WR_OFF; (off < s.captureSize) ∧ (off + e.data.length ≤ s.captureSize))) ∧
    (∃ (s : State) (fn : Nat) (a : Nat), (s.inReset = false) ∧ (fn < 2) ∧ (s.fnOn fn = true) ∧ (a % 8 = 0) ∧
      (a < 0x2000000) ∧ (s.permits (s.roleOf (.host fn)) 2 ((0x10000000 + a) / 8) 1 = true) ∧
      (s.scpOwns 21 (scpBank a) = false)) ∧
    (∃ (s : State) (fn : Nat) (a : Nat), (s.inReset = false) ∧ (fn < 2) ∧ (s.fnOn fn = true) ∧ (a % 8 = 0) ∧
      (a < 0x2000000) ∧ (s.permits (s.roleOf (.host fn)) 2 ((0x10000000 + a) / 8) 1 = true) ∧
      (s.scpOwns 21 (scpBank a) = true) ∧ (s.flag (Reg.SCP_OWNER (scpBank a)) F.SCP_OWNER.BUSY = true)) ∧
    (∃ (s : State) (by_ : Agent) (b : Nat), (b < 256) ∧ (s.reaches by_ (Reg.SCP_OWNER b) = true)) ∧
    (∃ (s : State) (b : Nat) (t : Stamp) (clear : Bool), (s.inReset = false) ∧ (b < 256) ∧
      (mfind s.scp.handing b = some (t, clear)) ∧ ((∀ x ∈ s.scp.waiting, scpBank x.1 ≠ b))) :=
  ⟨⟨{ up.setFld Reg.HBM_CAP_RING F.HBM_CAP_RING.SIZE 0 with hbm := { capStaging := [⟨0, 0, zeros 64⟩] } }, ⟨0, 0, zeros 64⟩, [], by decide +kernel⟩,
    ⟨{ up.setFld Reg.HBM_CAP_RING F.HBM_CAP_RING.SIZE 1 with hbm := { capStaging := [⟨0, 0, zeros 64⟩] } }, ⟨0, 0, zeros 64⟩, [], by decide +kernel⟩,
    ⟨((ward.setFld (Reg.SCP_OWNER 255) F.SCP_OWNER.OWNER 3).setFld (Reg.SCP_OWNER 255) F.SCP_OWNER.OWNER_B 3), 0, 0x1FFFFF8, by decide +kernel⟩,
    ⟨(((ward.setFld (Reg.SCP_OWNER 255) F.SCP_OWNER.OWNER 3).setFld (Reg.SCP_OWNER 255) F.SCP_OWNER.OWNER_B 21).setFld (Reg.SCP_OWNER 255) F.SCP_OWNER.BUSY 1), 0, 0x1FFFFF8, by decide +kernel⟩,
    ⟨up, kp, 255, by decide +kernel⟩,
    ⟨{ up with scp := { handing := [(255, (0, true))], waiting := [(0, 5)] } }, 255, 0, true, by decide +kernel⟩⟩

/-- What the hypotheses of MemoryCommands ask for is met, part 3. -/
theorem wit_MemoryCommands_3 :
    (∃ (s : State), (s.inReset = false) ∧
      (let tests := isDue s.scp.marchAt microsecond s.now = true ∧ s.flag Reg.SCP_MARCH_CFG F.SCP_MARCH_CFG.EN = true; (¬ tests))) :=
  ⟨up.setFld Reg.SCP_MARCH_CFG F.SCP_MARCH_CFG.EN 0, by decide +kernel⟩

/-- What the hypotheses of VersionControl ask for is met. -/
theorem wit_VersionControl :
    (∃ (s : State) (by_ : Agent), (s.reaches by_ Reg.VER_CTL = true)) ∧
    (∃ (s : State) (by_ : Agent), ∃ st, (s.reaches by_ Reg.VER_CTL = true) ∧ (s.armRefusal = some st)) ∧
    (∃ (s : State) (by_ : Agent), (s.reaches by_ Reg.VER_CTL = true) ∧ (s.armRefusal = none)) :=
  ⟨⟨up, kp, by decide +kernel⟩,
    ⟨up, kp, 7, by decide +kernel⟩,
    ⟨(((atMs 1 up).setFld Reg.VER_STATE F.VER_STATE.OPEN 5 |>.setFld Reg.SEC_STATUS F.SEC_STATUS.READY 1).setFld Reg.TIM_STATE F.TIM_STATE.TQ 3).wr Reg.VER_COMMIT_TIME (d96 (10 * second) % 2 ^ 64), kp, by decide +kernel⟩⟩

/-- What the hypotheses of VersionCommit ask for is met. -/
theorem wit_VersionCommit :
    (∃ (s : State), (s.inReset = false)) ∧
    (∃ (s : State), (s.inReset = false) ∧ (s.armedV = 0 ∨ s.now < s.ver.armedT)) ∧
    (∃ (s : State), (s.inReset = false) ∧ (s.armedV ≠ 0) ∧ (s.ver.armedT ≤ s.now) ∧ (s.commitRefusal = none)) :=
  ⟨⟨up, by decide +kernel⟩,
    ⟨up, by decide +kernel⟩,
    ⟨{ (up.setFld Reg.VER_STATE F.VER_STATE.ARMED 5).setFld Reg.TIM_STATE F.TIM_STATE.TQ 3 with ver := { agreed := true } }, by decide +kernel⟩⟩

/-- What the hypotheses of SecurityModule ask for is met, part 1. -/
theorem wit_SecurityModule_1 :
    (∃ (s : State), (s.inReset = false)) ∧
    (∃ (s : State), (s.inReset = false) ∧ (s.sec.testing = false)) ∧
    (∃ (s : State) (failed : Option Nat), (s.inReset = false) ∧ (s.sec.testing = true) ∧ (failed = none)) ∧
    (∃ (s : State) (failed : Option Nat), ∃ id, (s.inReset = false) ∧ (s.sec.testing = true) ∧ (failed = some id)) ∧
    (∃ (s : State) (t : Stamp), (s.inReset = false) ∧ (s.sec.failedAt = some t)) ∧
    (∃ (s : State) (t : Stamp), (s.inReset = false) ∧ (s.sec.nonce = some t)) :=
  ⟨⟨up, by decide +kernel⟩,
    ⟨{ up with sec := { testing := false } }, by decide +kernel⟩,
    ⟨up, none, by decide +kernel⟩,
    ⟨up, some 3, 3, by decide +kernel⟩,
    ⟨{ up with sec := { failedAt := some 0 } }, 0, by decide +kernel⟩,
    ⟨{ up with sec := { nonce := some 0 } }, 0, by decide +kernel⟩⟩

/-- What the hypotheses of SecurityModule ask for is met, part 2. -/
theorem wit_SecurityModule_2 :
    (∃ (s : State) (t : Stamp), (s.inReset = false) ∧ (s.sec.lockedUntil = some t)) ∧
    (∃ (s : State) (by_ : Agent), (s.reaches by_ Reg.SEC_ATTEST_CTL = true) ∧
      (let status := s.fld Reg.SEC_ATTEST_CTL F.SEC_ATTEST_CTL.STATUS; (status = 1))) ∧
    (∃ (s : State) (by_ : Agent), (s.reaches by_ Reg.SEC_ATTEST_CTL = true) ∧
      (let status := s.fld Reg.SEC_ATTEST_CTL F.SEC_ATTEST_CTL.STATUS; (status ≠ 1) ∧ (s.secReady = false))) ∧
    (∃ (s : State) (by_ : Agent), (s.reaches by_ Reg.SEC_ATTEST_CTL = true) ∧
      (let status := s.fld Reg.SEC_ATTEST_CTL F.SEC_ATTEST_CTL.STATUS; let lacks := s.flag Reg.SEC_CFG F.SEC_CFG.ATTEST_LDEV = true ∧ s.flag Reg.SEC_STATUS F.SEC_STATUS.LDEV = false; (status ≠ 1) ∧ (s.secReady = true) ∧ (lacks))) ∧
    (∃ (s : State) (by_ : Agent), (s.reaches by_ Reg.SEC_ATTEST_CTL = true) ∧
      (let status := s.fld Reg.SEC_ATTEST_CTL F.SEC_ATTEST_CTL.STATUS; let lacks := s.flag Reg.SEC_CFG F.SEC_CFG.ATTEST_LDEV = true ∧ s.flag Reg.SEC_STATUS F.SEC_STATUS.LDEV = false; (status ≠ 1) ∧ (s.secReady = true) ∧ (¬ lacks))) ∧
    (∃ (s : State), (s.inReset = false) ∧ (s.secServing = some 5) ∧ (s.sec.attestDue.length = 832)) :=
  ⟨⟨{ up with sec := { lockedUntil := some 0 } }, 0, by decide +kernel⟩,
    ⟨ward.setFld Reg.SEC_ATTEST_CTL F.SEC_ATTEST_CTL.STATUS 1, pf, by decide +kernel⟩,
    ⟨ward, pf, by decide +kernel⟩,
    ⟨(ward.setFld Reg.SEC_STATUS F.SEC_STATUS.READY 1).setFld Reg.SEC_CFG F.SEC_CFG.ATTEST_LDEV 1, pf, by decide +kernel⟩,
    ⟨(ward.setFld Reg.SEC_STATUS F.SEC_STATUS.READY 1), pf, by decide +kernel⟩,
    ⟨{ (up.setFld Reg.SEC_ATTEST_CTL F.SEC_ATTEST_CTL.STATUS 1).setFld Reg.SEC_STATUS F.SEC_STATUS.READY 1 with sec := { attestDue := zeros 832 } }, by decide +kernel⟩⟩

/-- What the hypotheses of SecurityOperations ask for is met, part 1. -/
theorem wit_SecurityOperations_1 :
    (∃ (s : State) (by_ : Agent), (s.reaches by_ Reg.SEC_OP = true) ∧ (s.flag Reg.SEC_OP F.SEC_OP.BUSY = true)) ∧
    (∃ (s : State) (by_ : Agent), (s.reaches by_ Reg.SEC_OP = true) ∧ (s.flag Reg.SEC_OP F.SEC_OP.BUSY = false) ∧
      (by_ ≠ .host 0)) ∧
    (∃ (s : State) (by_ : Agent), (s.reaches by_ Reg.SEC_OP = true) ∧ (s.flag Reg.SEC_OP F.SEC_OP.BUSY = false) ∧
      (by_ = .host 0) ∧ (s.secReady = false)) ∧
    (∃ (s : State) (by_ : Agent), (s.reaches by_ Reg.SEC_OP = true) ∧ (s.flag Reg.SEC_OP F.SEC_OP.BUSY = false) ∧
      (by_ = .host 0) ∧ (s.secReady = true)) ∧
    (∃ (s : State) (by_ : Agent), ∃ t, (s.reaches by_ Reg.SEC_OP = true) ∧ (s.flag Reg.SEC_OP F.SEC_OP.BUSY = false) ∧
      (by_ = .host 0) ∧ (s.secReady = true) ∧ (s.sec.lockedUntil = some t) ∧ (s.now < t)) ∧
    (∃ (s : State) (by_ : Agent), (s.reaches by_ Reg.SEC_OP = true) ∧ (s.flag Reg.SEC_OP F.SEC_OP.BUSY = false) ∧
      (by_ = .host 0) ∧ (s.secReady = true) ∧ (s.sec.lockedUntil = none) ∧ (s.sec.owner = [] ∨ s.session = true)) :=
  ⟨⟨ward.setFld Reg.SEC_OP F.SEC_OP.BUSY 1, pf, by decide +kernel⟩,
    ⟨up, kp, by decide +kernel⟩,
    ⟨ward, pf, by decide +kernel⟩,
    ⟨(ward.setFld Reg.SEC_STATUS F.SEC_STATUS.READY 1), pf, by decide +kernel⟩,
    ⟨{ ward.setFld Reg.SEC_STATUS F.SEC_STATUS.READY 1 with sec := { lockedUntil := some 1 } }, pf, 1, by decide +kernel⟩,
    ⟨(ward.setFld Reg.SEC_STATUS F.SEC_STATUS.READY 1), pf, by decide +kernel⟩⟩

/-- What the hypotheses of SecurityOperations ask for is met, part 2. -/
theorem wit_SecurityOperations_2 :
    (∃ (s : State) (by_ : Agent), (s.reaches by_ Reg.SEC_OP = true) ∧ (s.flag Reg.SEC_OP F.SEC_OP.BUSY = false) ∧
      (by_ = .host 0) ∧ (s.secReady = true) ∧ (s.sec.lockedUntil = none) ∧ (s.sec.owner ≠ []) ∧ (s.session = false) ∧
      (s.nonceLive = false)) ∧
    (∃ (s : State) (by_ : Agent), (s.reaches by_ Reg.SEC_OP = true) ∧ (s.flag Reg.SEC_OP F.SEC_OP.BUSY = false) ∧
      (by_ = .host 0) ∧ (s.secReady = true) ∧ (s.sec.lockedUntil = none) ∧ (s.sec.owner ≠ []) ∧ (s.session = false) ∧
      (s.nonceLive = true)) ∧
    (∃ (s : State) (by_ : Agent), (s.reaches by_ Reg.SEC_OP = true) ∧ (s.flag Reg.SEC_OP F.SEC_OP.BUSY = false)) ∧
    (∃ (s : State) (by_ : Agent), (s.reaches by_ Reg.SEC_OP = true) ∧ (s.flag Reg.SEC_OP F.SEC_OP.BUSY = false) ∧
      (s.roleOf by_ ≠ 1)) ∧
    (∃ (s : State) (by_ : Agent), (s.reaches by_ Reg.SEC_OP = true) ∧ (s.flag Reg.SEC_OP F.SEC_OP.BUSY = false) ∧
      (s.roleOf by_ = 1) ∧ (s.secReady = false)) ∧
    (∃ (s : State) (by_ : Agent), (s.reaches by_ Reg.SEC_OP = true) ∧ (s.flag Reg.SEC_OP F.SEC_OP.BUSY = false) ∧
      (s.roleOf by_ = 1) ∧ (s.secReady = true) ∧ (s.sec.owner = [])) :=
  ⟨⟨{ (up.setFld Reg.SEC_STATUS F.SEC_STATUS.READY 1 |>.putBit Reg.CFG_READY 15 true) with sec := { owner := [1] } }, pf, by decide +kernel⟩,
    ⟨{ (up.setFld Reg.SEC_STATUS F.SEC_STATUS.READY 1 |>.putBit Reg.CFG_READY 15 true) with sec := { owner := [1], nonce := some 0, stepsLeft := 3 } }, pf, by decide +kernel⟩,
    ⟨ward, pf, by decide +kernel⟩,
    ⟨{ (up.setFld Reg.SEC_STATUS F.SEC_STATUS.READY 1 |>.putBit Reg.CFG_READY 15 true) with sec := { owner := [1], nonce := some 0, stepsLeft := 3 } }, pf, by decide +kernel⟩,
    ⟨ward, pf, by decide +kernel⟩,
    ⟨(ward.setFld Reg.SEC_STATUS F.SEC_STATUS.READY 1), pf, by decide +kernel⟩⟩

/-- What the hypotheses of SecurityOperations ask for is met, part 3. -/
theorem wit_SecurityOperations_3 :
    (∃ (s : State) (by_ : Agent), (s.reaches by_ Reg.SEC_OP = true) ∧ (s.flag Reg.SEC_OP F.SEC_OP.BUSY = false) ∧
      (s.roleOf by_ = 1) ∧ (s.secReady = true) ∧ (s.sec.owner ≠ []) ∧ (s.sec.stepsLeft = 0)) ∧
    (∃ (s : State) (by_ : Agent), (s.reaches by_ Reg.SEC_OP = true) ∧ (s.flag Reg.SEC_OP F.SEC_OP.BUSY = false) ∧
      (s.roleOf by_ = 1) ∧ (s.secReady = true) ∧ (s.sec.owner ≠ []) ∧ (s.sec.stepsLeft ≠ 0)) ∧
    (∃ (s : State) (by_ : Agent) (arg : Nat) (certOk : Bool), (s.reaches by_ Reg.SEC_OP = true) ∧
      (s.flag Reg.SEC_OP F.SEC_OP.BUSY = false) ∧ (s.roleOf by_ = 1) ∧ (s.secReady = true) ∧
      (certOk = false ∨ arg % 4096 = 0)) ∧
    (∃ (s : State) (by_ : Agent) (arg : Nat) (certOk : Bool), (s.reaches by_ Reg.SEC_OP = true) ∧
      (s.flag Reg.SEC_OP F.SEC_OP.BUSY = false) ∧ (s.roleOf by_ = 1) ∧ (s.secReady = true) ∧ (certOk = true) ∧
      (arg % 4096 ≠ 0)) ∧
    (∃ (s : State) (by_ : Agent), (s.reaches by_ Reg.SEC_OP = true) ∧ (s.flag Reg.SEC_OP F.SEC_OP.BUSY = false) ∧
      (s.roleOf by_ = 1) ∧ (s.secReady = true)) ∧
    (∃ (s : State) (by_ : Agent), (s.reaches by_ Reg.SEC_OP = true) ∧ (s.flag Reg.SEC_OP F.SEC_OP.BUSY = false) ∧
      (s.roleOf by_ ≠ 1)) :=
  ⟨⟨{ ward.setFld Reg.SEC_STATUS F.SEC_STATUS.READY 1 with sec := { owner := [1], stepsLeft := 0 } }, pf, by decide +kernel⟩,
    ⟨{ (ward.setFld Reg.SEC_STATUS F.SEC_STATUS.READY 1) with sec := { owner := [1], nonce := some 0, stepsLeft := 3 } }, pf, by decide +kernel⟩,
    ⟨ward.setFld Reg.SEC_STATUS F.SEC_STATUS.READY 1, pf, 4096, true, by decide +kernel⟩,
    ⟨(ward.setFld Reg.SEC_STATUS F.SEC_STATUS.READY 1), pf, 5, true, by decide +kernel⟩,
    ⟨(ward.setFld Reg.SEC_STATUS F.SEC_STATUS.READY 1), pf, by decide +kernel⟩,
    ⟨up, kp, by decide +kernel⟩⟩

/-- What the hypotheses of SecurityOperations ask for is met, part 4. -/
theorem wit_SecurityOperations_4 :
    (∃ (s : State) (by_ : Agent), (s.reaches by_ Reg.SEC_OP = true) ∧ (s.flag Reg.SEC_OP F.SEC_OP.BUSY = true)) ∧
    (∃ (s : State), (s.inReset = false) ∧ (s.secServing ≠ some 4)) ∧
    (∃ (s : State), (s.inReset = false) ∧ (s.secServing = some 4)) ∧
    (∃ (s : State) (by_ : Agent) (arg : Nat), (s.reaches by_ Reg.SEC_OP = true) ∧ (s.flag Reg.SEC_OP F.SEC_OP.BUSY = false) ∧
      (let first := bits arg 7 0; let n := bits arg 16 8; s.roleOf by_ = 1 ∧ 1 ≤ n ∧ 256 < first + n)) :=
  ⟨⟨up.setFld Reg.SEC_OP F.SEC_OP.BUSY 1, kp, by decide +kernel⟩,
    ⟨up.setFld Reg.SEC_OP F.SEC_OP.BUSY 1, by decide +kernel⟩,
    ⟨((up.setFld Reg.SEC_OP F.SEC_OP.BUSY 1).setFld Reg.SEC_STATUS F.SEC_STATUS.READY 1), by decide +kernel⟩,
    ⟨ward, pf, 255 + 256 * 2, by decide +kernel⟩⟩

/-- What the hypotheses of FaultCommands ask for is met, part 1. -/
theorem wit_FaultCommands_1 :
    (∃ (s : State) (by_ : Agent) (k : Nat), (k < 4) ∧ (s.reaches by_ (Reg.KPR_CMD_DATA k) = true)) ∧
    (∃ (s : State) (k : Nat), (s.inReset = false) ∧ (k < 4)) ∧
    (∃ (s : State), (s.inReset = false) ∧ (s.flt.chipDue = none)) ∧
    (∃ (s : State), ∃ n t, (s.inReset = false) ∧ (s.flt.chipDue = some (n, t)) ∧ (s.now < t + 20 * microsecond)) ∧
    (∃ (s : State), ∃ n t, (s.inReset = false) ∧ (s.flt.chipDue = some (n, t)) ∧ (t + 20 * microsecond ≤ s.now)) ∧
    (∃ (s : State) (n : Nat), (s.inReset = false) ∧ (n < 1536)) :=
  ⟨⟨up, kp, 3, by decide +kernel⟩,
    ⟨up, 3, by decide +kernel⟩,
    ⟨up, by decide +kernel⟩,
    ⟨{ up with flt := { chipDue := some (5, 0) } }, 5, 0, by decide +kernel⟩,
    ⟨atMs 1 { up with flt := { chipDue := some (5, 0) } }, 5, 0, by decide +kernel⟩,
    ⟨up, 1535, by decide +kernel⟩⟩

/-- What the hypotheses of FaultCommands ask for is met, part 2. -/
theorem wit_FaultCommands_2 :
    (∃ (s : State) (by_ : Agent) (j : Nat) (v : Word64), (j < 24) ∧ (s.reaches by_ (Reg.FLT_STICKY j) = true) ∧
      (let own := Src.PMC_SAMPLE; let again := own / 64 = j ∧ bitOf v.toNat (own % 64) = true ∧ s.sticky own = true ∧ s.samplesHeld ≠ 0; (again))) ∧
    (∃ (s : State) (by_ : Agent) (j : Nat) (v : Word64), (j < 24) ∧ (s.reaches by_ (Reg.FLT_STICKY j) = true) ∧
      (let own := Src.PMC_SAMPLE; let again := own / 64 = j ∧ bitOf v.toNat (own % 64) = true ∧ s.sticky own = true ∧ s.samplesHeld ≠ 0; (¬ again))) ∧
    (∃ (s : State) (by_ : Agent) (j : Nat) (v : Word64), ∃ i c, (j < 24) ∧ (s.reaches by_ (Reg.FLT_STICKY j) = true) ∧
      (let own := Src.PMC_SAMPLE; let again := own / 64 = j ∧ bitOf v.toNat (own % 64) = true ∧ s.sticky own = true ∧ s.samplesHeld ≠ 0; (¬ again) ∧ (i < 64) ∧ (bitOf v.toNat i = true) ∧ (s.sticky (64 * j + i) = true) ∧ (mfind s.hif.conds (64 * j + i) = some c) ∧ (c.phase ≠ .active))) ∧
    (∃ (s : State), (s.inReset = false)) ∧
    (∃ (s : State) (by_ : Agent), (s.reaches by_ Reg.FLT_CTL = true)) ∧
    (∃ (s : State) (t : Stamp), (s.inReset = false) ∧ (s.flt.testUntil = some t)) :=
  ⟨⟨(up.putBit (Reg.FLT_STICKY (Src.PMC_SAMPLE / 64)) (Src.PMC_SAMPLE % 64) true).setFld Reg.PMC_SAMPLE_IDX F.PMC_SAMPLE_IDX.TAIL 1, kp, Src.PMC_SAMPLE / 64, (BitVec.ofNat 64 (2 ^ (Src.PMC_SAMPLE % 64))), by decide +kernel⟩,
    ⟨(up.putBit (Reg.FLT_STICKY (Src.PMC_SAMPLE / 64)) (Src.PMC_SAMPLE % 64) true), kp, Src.PMC_SAMPLE / 64, (BitVec.ofNat 64 (2 ^ (Src.PMC_SAMPLE % 64))), by decide +kernel⟩,
    ⟨{ up.putBit (Reg.FLT_STICKY 23) 63 true with hif := { conds := [(1535, ⟨.pending, 0, 0, false⟩)] } }, kp, 23, (BitVec.ofNat 64 (2 ^ 63)), 63, ⟨.pending, 0, 0, false⟩, by decide +kernel⟩,
    ⟨up, by decide +kernel⟩,
    ⟨ward, pf, by decide +kernel⟩,
    ⟨{ up with flt := { testUntil := some 0 } }, 0, by decide +kernel⟩⟩

/-- What the hypotheses of FaultCommands ask for is met, part 3. -/
theorem wit_FaultCommands_3 :
    (∃ (s : State) (by_ : Agent), (s.reaches by_ Reg.FLT_INJECT = true) ∧ (s.boot.factoryTest = false)) ∧
    (∃ (s : State) (by_ : Agent) (v : Word64), (s.reaches by_ Reg.FLT_INJECT = true) ∧ (s.boot.factoryTest = true) ∧
      (bits v.toNat 12 12 = 1) ∧ (bits v.toNat 11 0 < 1536)) ∧
    (∃ (s : State) (enter : Bool) (unlock : Bool), (s.inReset = false) ∧
      (let may := enter = false ∨ (unlock = true ∧ s.flag Reg.SEC_STATUS F.SEC_STATUS.APPROVED = false); (enter ≠ s.boot.factoryTest) ∧ (may))) ∧
    (∃ (s : State) (enter : Bool) (unlock : Bool), (s.inReset = false) ∧
      (let may := enter = false ∨ (unlock = true ∧ s.flag Reg.SEC_STATUS F.SEC_STATUS.APPROVED = false); (¬ (enter ≠ s.boot.factoryTest ∧ may)))) ∧
    (∃ (s : State), (s.pins.resetN = false)) ∧
    (∃ (s : State) (i : TapInstr), s.inReset = false ∧ ∀ n, i ≠ .other n) :=
  ⟨⟨ward, pf, by decide +kernel⟩,
    ⟨{ ward with boot := { factoryTest := true } }, pf, (BitVec.ofNat 64 (4096 + 1535)), by decide +kernel⟩,
    ⟨up, true, true, by decide +kernel⟩,
    ⟨up.setFld Reg.SEC_STATUS F.SEC_STATUS.APPROVED 1, true, true, by decide +kernel⟩,
    ⟨{ up with pins := ⟨true, false⟩ }, by decide +kernel⟩,
    ⟨up, .bypass, by decide +kernel, fun _ => nofun⟩⟩

/-- What the hypotheses of FerryMode ask for is met, part 1. -/
theorem wit_FerryMode_1 :
    (∃ (s : State) (by_ : Agent) (v : Word64), (s.reaches by_ Reg.FLT_FERRY_CTL = true) ∧
      (s.acts by_ Reg.FLT_FERRY_CTL F.FLT_FERRY_CTL.ENTER v.toNat = true) ∧
      ((mget {} s.flt.faults Src.FLT_FERRY_REQ).broken = false)) ∧
    (∃ (s : State) (port : Nat) (lane : Nat), (s.inReset = false) ∧ (port < 514) ∧ (lane < 514) ∧
      (s.portOfLane lane = port) ∧ (s.inFerry = false)) ∧
    (∃ (s : State) (port : Nat) (lane : Nat) (d : Nat) (phi : Int) (n : Nat) (bytes : Bytes), (s.inReset = false) ∧
      (port < 514) ∧ (lane < 514) ∧ (s.portOfLane lane = port) ∧ (s.inFerry = true) ∧ (s.portExists port = true) ∧
      (s.linkUp port = true) ∧ (s.portHalted port = false) ∧ ((s.portSt port).stopping = false) ∧ (s.loopback port = false) ∧
      (s.exportPort port = false) ∧ (s.towPort port = false) ∧ (64 ≤ bytes.length) ∧
      (bytes.length ≤ s.cfgAtFld (Reg.PRT_CFG port) F.PRT_CFG.MTU s.flt.ferry.version (s.rxStamp port lane d phi n)) ∧
      (bytes.drop (bytes.length - 4) = fcs (bytes.take (bytes.length - 4)))) ∧
    (∃ (s : State), (s.inReset = false) ∧
      (let due := s.fld Reg.FLT_STATUS F.FLT_STATUS.FERRY = 1 ∧ s.flt.ferry.lastDeg + s.quietSpan ≤ s.now ∧ s.flag Reg.FLT_FERRY_CFG F.FLT_FERRY_CFG.AUTO_EXIT = true; (¬ due))) ∧
    (∃ (s : State), (s.inReset = false) ∧
      (let due := s.fld Reg.FLT_STATUS F.FLT_STATUS.FERRY = 1 ∧ s.flt.ferry.lastDeg + s.quietSpan ≤ s.now ∧ s.flag Reg.FLT_FERRY_CFG F.FLT_FERRY_CFG.AUTO_EXIT = true; let room := s.recentExits.length < s.fld Reg.FLT_FERRY_CFG F.FLT_FERRY_CFG.MAX_PER_HOUR; (due) ∧ (room))) ∧
    (∃ (s : State), (s.inReset = false) ∧
      (let due := s.fld Reg.FLT_STATUS F.FLT_STATUS.FERRY = 1 ∧ s.flt.ferry.lastDeg + s.quietSpan ≤ s.now ∧ s.flag Reg.FLT_FERRY_CFG F.FLT_FERRY_CFG.AUTO_EXIT = true; let room := s.recentExits.length < s.fld Reg.FLT_FERRY_CFG F.FLT_FERRY_CFG.MAX_PER_HOUR; (due) ∧ (¬ room))) :=
  ⟨⟨ward, pf, 1#64, by decide +kernel⟩,
    ⟨(linked 513 up), 513, 513, by decide +kernel⟩,
    ⟨(linked 513 ((up.setFld Reg.FLT_STATUS F.FLT_STATUS.FERRY 1).setFld Reg.QUE_CTL F.QUE_CTL.HALTED 0)), 513, 513, 0, 0, 0, (zeros 60 ++ fcs (zeros 60)), by decide +kernel⟩,
    ⟨up, by decide +kernel⟩,
    ⟨atMs 100000000 ((linked 513 ((up.setFld Reg.FLT_STATUS F.FLT_STATUS.FERRY 1).setFld Reg.QUE_CTL F.QUE_CTL.HALTED 0)).setFld Reg.FLT_FERRY_CFG F.FLT_FERRY_CFG.AUTO_EXIT 1), by decide +kernel⟩,
    ⟨atMs 100000000 ((up.setFld Reg.FLT_STATUS F.FLT_STATUS.FERRY 1).setFld Reg.FLT_FERRY_CFG F.FLT_FERRY_CFG.AUTO_EXIT 1 |>.setFld Reg.FLT_FERRY_CFG F.FLT_FERRY_CFG.MAX_PER_HOUR 0), by decide +kernel⟩⟩

/-- What the hypotheses of FerryMode ask for is met, part 2. -/
theorem wit_FerryMode_2 :
    (∃ (s : State) (port : Nat) (lane : Nat), (s.inReset = false) ∧ (port < 514) ∧ (lane < 514) ∧
      (s.portOfLane lane = port) ∧ (s.inFerry = true) ∧ (bitOf (mget 0 s.flt.ferry.map port) 16 = true) ∧
      (s.portExists (bits (mget 0 s.flt.ferry.map port) 9 0) = true) ∧
      (s.egressDown (bits (mget 0 s.flt.ferry.map port) 9 0) = false) ∧ (s.que.stopped = false) ∧ (parseSlice port < 16) ∧
      ((s.store (parseSlice port) 3).cache ≠ [])) :=
  ⟨{ linked 512 (linked 513 ((up.setFld Reg.FLT_STATUS F.FLT_STATUS.FERRY 1).setFld Reg.QUE_CTL F.QUE_CTL.HALTED 0)) with flt := { ferry := { map := [(513, 65536 + 512)] } }, que := { stopped := false, stores := [(4 * parseSlice 513 + 3, { cache := [7] })] } }, 513, 513, by decide +kernel⟩

/-- What the hypotheses of Ageing ask for is met, part 1. -/
theorem wit_Ageing_1 :
    (∃ (s : State) (readings : List (Nat × Nat × Nat × Nat)), ∃ i cs cu factory temp, (s.inReset = false) ∧
      (isDue s.cnd.measAt (min (s.fld Reg.CND_CFG F.CND_CFG.MEAS_S) (s.cfgFld Reg.TIM_CAL_CFG F.TIM_CAL_CFG.PERIOD_S) * second) s.now = true) ∧
      (i < 96) ∧ (readings[i]? = some (cs, cu, factory, temp))) ∧
    (∃ (s : State) (replicas : List Nat), ∃ o d, (s.inReset = false) ∧
      (isDue s.cnd.measAt (min (s.fld Reg.CND_CFG F.CND_CFG.MEAS_S) (s.cfgFld Reg.TIM_CAL_CFG F.TIM_CAL_CFG.PERIOD_S) * second) s.now = true) ∧
      (o < 64) ∧ (replicas[o]? = some d)) ∧
    (∃ (s : State) (l : Nat), (s.inReset = false) ∧ (l < 514)) ∧
    (∃ (s : State), (s.inReset = false)) ∧
    (∃ (s : State) (by_ : Agent), (s.reaches by_ Reg.CND_CTL = true)) ∧
    (∃ (s : State) (ack : Bool), (s.inReset = false) ∧ (s.boot.running = true) ∧
      ((∀ t, s.cnd.avsAt = some t → t + 10 * millisecond ≤ s.now)) ∧
      (s.cnd.avsPoint ≠ s.cnd.avsEnd ∨ s.fld Reg.CND_PLAN F.CND_PLAN.V_TARGET ≠ s.cnd.avsEnd) ∧
      (let next := if s.cnd.avsPoint < s.cnd.avsEnd then min s.cnd.avsEnd (s.cnd.avsPoint + 25) else max s.cnd.avsEnd (s.cnd.avsPoint - 25); (ack = true) ∧ (next = s.cnd.avsEnd))) :=
  ⟨⟨up, [(1, 1, 1, 1)], 0, 1, 1, 1, 1, by decide +kernel⟩,
    ⟨up, [7], 0, 7, by decide +kernel⟩,
    ⟨up, 513, by decide +kernel⟩,
    ⟨up, by decide +kernel⟩,
    ⟨ward, pf, by decide +kernel⟩,
    ⟨{ up with boot := { running := true }, cnd := { avsPoint := 7500, avsEnd := 7510 } }, true, by decide +kernel⟩⟩

/-- What the hypotheses of Ageing ask for is met, part 2. -/
theorem wit_Ageing_2 :
    (∃ (s : State) (ack : Bool), (s.inReset = false) ∧ (s.boot.running = true) ∧
      ((∀ t, s.cnd.avsAt = some t → t + 10 * millisecond ≤ s.now)) ∧
      (s.cnd.avsPoint ≠ s.cnd.avsEnd ∨ s.fld Reg.CND_PLAN F.CND_PLAN.V_TARGET ≠ s.cnd.avsEnd) ∧ (ack = false)) ∧
    (∃ (s : State) (i : Nat), (s.inReset = false) ∧ (i < 96)) ∧
    (∃ (s : State) (i : Nat) (temp : Nat), (s.inReset = false) ∧ (i < 96) ∧ (temp ≤ 105)) ∧
    (∃ (s : State) (i : Nat) (temp : Nat), (s.inReset = false) ∧ (i < 96) ∧ (105 < temp) ∧
      (isDue (mfind s.cnd.hot i) second s.now = true)) ∧
    (∃ (s : State) (i : Nat) (temp : Nat), (s.inReset = false) ∧ (i < 96) ∧ (105 < temp) ∧
      (isDue (mfind s.cnd.hot i) second s.now = false)) :=
  ⟨⟨{ up with boot := { running := true }, cnd := { avsPoint := 7500, avsEnd := 7510 } }, false, by decide +kernel⟩,
    ⟨up, 95, by decide +kernel⟩,
    ⟨up, 95, 105, by decide +kernel⟩,
    ⟨atMs 1000 { up with cnd := { hot := [(95, 0)] } }, 95, 106, by decide +kernel⟩,
    ⟨atMs 999 { up with cnd := { hot := [(95, 0)] } }, 95, 106, by decide +kernel⟩⟩

/-- What the hypotheses of SnapshotsAndSamples ask for is met, part 1. -/
theorem wit_SnapshotsAndSamples_1 :
    (∃ (s : State) (by_ : Agent) (v : Word64), (s.reaches by_ Reg.PMC_SNAP_CTL = true) ∧
      (bits v.toNat F.PMC_SNAP_CTL.CANCEL.hi F.PMC_SNAP_CTL.CANCEL.lo = 0)) ∧
    (∃ (s : State) (by_ : Agent), ∃ t, (s.reaches by_ Reg.PMC_SNAP_CTL = true) ∧
      (let time := ofD96 (s.rd Reg.PMC_SNAP_TIME + 2 ^ 64 * s.fld Reg.PMC_SNAP_TIME_HI F.PMC_SNAP_TIME_HI.T_HI); (time = some t) ∧ (t < s.now + 10 * microsecond))) ∧
    (∃ (s : State) (by_ : Agent), ∃ t, (s.reaches by_ Reg.PMC_SNAP_CTL = true) ∧
      (let time := ofD96 (s.rd Reg.PMC_SNAP_TIME + 2 ^ 64 * s.fld Reg.PMC_SNAP_TIME_HI F.PMC_SNAP_TIME_HI.T_HI); (time = some t) ∧ (s.now + 10 * microsecond ≤ t) ∧ (s.pmc.snap ≠ none))) ∧
    (∃ (s : State) (by_ : Agent) (v : Word64), ∃ t, (s.reaches by_ Reg.PMC_SNAP_CTL = true) ∧
      (let time := ofD96 (s.rd Reg.PMC_SNAP_TIME + 2 ^ 64 * s.fld Reg.PMC_SNAP_TIME_HI F.PMC_SNAP_TIME_HI.T_HI); let chan := bits v.toNat 57 54; let chanOk := s.flag (Reg.HIF_DMA_CFG chan) F.HIF_DMA_CFG.EN = true ∧ s.fld (Reg.HIF_DMA_CFG chan) F.HIF_DMA_CFG.USE = 4; (time = some t) ∧ (s.now + 10 * microsecond ≤ t) ∧ (s.pmc.snap = none) ∧ (¬ chanOk))) ∧
    (∃ (s : State) (by_ : Agent) (v : Word64), ∃ t, (s.reaches by_ Reg.PMC_SNAP_CTL = true) ∧
      (let time := ofD96 (s.rd Reg.PMC_SNAP_TIME + 2 ^ 64 * s.fld Reg.PMC_SNAP_TIME_HI F.PMC_SNAP_TIME_HI.T_HI); let chan := bits v.toNat 57 54; let chanOk := s.flag (Reg.HIF_DMA_CFG chan) F.HIF_DMA_CFG.EN = true ∧ s.fld (Reg.HIF_DMA_CFG chan) F.HIF_DMA_CFG.USE = 4; (time = some t) ∧ (s.now + 10 * microsecond ≤ t) ∧ (s.pmc.snap = none) ∧ (chanOk))) ∧
    (∃ (s : State) (by_ : Agent), (s.reaches by_ Reg.PMC_SNAP_CTL = true) ∧ (s.pmc.snap = none)) :=
  ⟨⟨up, kp, 1#64, by decide +kernel⟩,
    ⟨up.wr Reg.PMC_SNAP_TIME (9999 * 65536), kp, 9999 * 65536, by decide +kernel⟩,
    ⟨{ up.wr Reg.PMC_SNAP_TIME (10000 * 65536) with pmc := { snap := some {} } }, kp, 10000 * 65536, by decide +kernel⟩,
    ⟨up.wr Reg.PMC_SNAP_TIME (10000 * 65536), kp, 1#64, 10000 * 65536, by decide +kernel⟩,
    ⟨channed 0 4 (up.wr Reg.PMC_SNAP_TIME (10000 * 65536)), kp, 1#64, 10000 * 65536, by decide +kernel⟩,
    ⟨up, kp, by decide +kernel⟩⟩

/-- What the hypotheses of SnapshotsAndSamples ask for is met, part 2. -/
theorem wit_SnapshotsAndSamples_2 :
    (∃ (s : State) (by_ : Agent), ∃ p, (s.reaches by_ Reg.PMC_SNAP_CTL = true) ∧ (s.pmc.snap = some p) ∧ (p.frozen = none)) ∧
    (∃ (s : State) (by_ : Agent), ∃ p, (s.reaches by_ Reg.PMC_SNAP_CTL = true) ∧ (s.pmc.snap = some p) ∧ (p.frozen ≠ none)) ∧
    (∃ (s : State) (p : Snap), (s.inReset = false) ∧ (s.pmc.snap = some p) ∧ (p.frozen = none)) ∧
    (∃ (s : State) (len : Nat) (dmaError : Nat) (p : Snap), (s.inReset = false) ∧ (s.pmc.snap = some p) ∧ (p.frozen ≠ none) ∧
      (p.channel < 16) ∧
      (let c := p.channel; let may := s.chanOn c 4 = true ∧ s.descsPosted c ≠ 0 ∧ s.dmaMay c 1 = true ∧ dmaError = 0; let done := p.frozenAt + min len (snapSize p.mask) * 131072 / 25 ≤ s.now; (may) ∧ (¬ done))) ∧
    (∃ (s : State) (len : Nat) (dmaError : Nat) (p : Snap), (s.inReset = false) ∧ (s.pmc.snap = some p) ∧ (p.frozen ≠ none) ∧
      (p.channel < 16) ∧
      (let c := p.channel; let may := s.chanOn c 4 = true ∧ s.descsPosted c ≠ 0 ∧ s.dmaMay c 1 = true ∧ dmaError = 0; let done := p.frozenAt + min len (snapSize p.mask) * 131072 / 25 ≤ s.now; let paused := s.flag (Reg.HIF_DMA_STAT c) F.HIF_DMA_STAT.PAUSED = true; (¬ paused) ∧ (¬ may ∨ done))) ∧
    (∃ (s : State) (p : Snap), (s.inReset = false) ∧ (s.pmc.snap = some p) ∧ (p.frozen ≠ none) ∧ (p.channel < 16) ∧
      (let c := p.channel; let paused := s.flag (Reg.HIF_DMA_STAT c) F.HIF_DMA_STAT.PAUSED = true; (paused))) ∧
    (∃ (s : State) (len : Nat) (dmaError : Nat) (p : Snap), (s.inReset = false) ∧ (s.pmc.snap = some p) ∧ (p.frozen ≠ none) ∧
      (p.channel < 16) ∧
      (let c := p.channel; let may := s.chanOn c 4 = true ∧ s.descsPosted c ≠ 0 ∧ s.dmaMay c 1 = true ∧ dmaError = 0; let done := p.frozenAt + min len (snapSize p.mask) * 131072 / 25 ≤ s.now; let goes := may ∧ done; (goes))) :=
  ⟨⟨{ up with pmc := { snap := some {} } }, kp, {}, by decide +kernel⟩,
    ⟨{ up with pmc := { snap := some { frozen := some [] } } }, kp, { frozen := some [] }, by decide +kernel⟩,
    ⟨{ up with pmc := { snap := some { t := 0 } } }, { t := 0 }, by decide +kernel⟩,
    ⟨{ (((channed 15 4 up).wr (Reg.SEC_PROT_ACTIVE 0 0) (5 + 255 * 16)).wr (Reg.SEC_PROT_ACTIVE 0 1) 15) with pmc := { snap := some { channel := 15, frozen := some [], mask := 1 } } }, 4096, 0, { channel := 15, frozen := some [], mask := 1 }, by decide +kernel⟩,
    ⟨{ atMs 1 (((channed 15 4 up).wr (Reg.SEC_PROT_ACTIVE 0 0) (5 + 255 * 16)).wr (Reg.SEC_PROT_ACTIVE 0 1) 15) with pmc := { snap := some { channel := 15, frozen := some [], mask := 1 } } }, 4096, 0, { channel := 15, frozen := some [], mask := 1 }, by decide +kernel⟩,
    ⟨{ up.setFld (Reg.HIF_DMA_STAT 15) F.HIF_DMA_STAT.PAUSED 1 with pmc := { snap := some { channel := 15, frozen := some [] } } }, { channel := 15, frozen := some [] }, by decide +kernel⟩,
    ⟨{ atMs 1 (((channed 15 4 up).wr (Reg.SEC_PROT_ACTIVE 0 0) (5 + 255 * 16)).wr (Reg.SEC_PROT_ACTIVE 0 1) 15) with pmc := { snap := some { channel := 15, frozen := some [], mask := 1 } } }, 4096, 0, { channel := 15, frozen := some [], mask := 1 }, by decide +kernel⟩⟩

/-- What the hypotheses of SnapshotsAndSamples ask for is met, part 3. -/
theorem wit_SnapshotsAndSamples_3 :
    (∃ (s : State) (p : Snap), (s.inReset = false) ∧ (s.pmc.snap = some p) ∧ (p.frozen ≠ none) ∧ (p.channel < 16) ∧
      (let c := p.channel; let paused := s.flag (Reg.HIF_DMA_STAT c) F.HIF_DMA_STAT.PAUSED = true; (¬ paused) ∧ (s.chanOn c 4 = false))) ∧
    (∃ (s : State) (p : Snap), (s.inReset = false) ∧ (s.pmc.snap = some p) ∧ (p.frozen ≠ none) ∧ (p.channel < 16) ∧
      (let c := p.channel; (s.chanOn c 4 = true) ∧ (s.descsPosted c = 0))) ∧
    (∃ (s : State) (i : Nat), (s.inReset = false) ∧ (i < 8) ∧ (let a := mget {} s.pmc.samplers i; (a.hit = none))) ∧
    (∃ (s : State) (i : Nat), ∃ v, (s.inReset = false) ∧ (i < 8) ∧ (let a := mget {} s.pmc.samplers i; (a.hit = some v))) ∧
    (∃ (s : State) (i : Nat), (s.inReset = false) ∧ (i < 8) ∧
      (let n := s.fld (Reg.PMC_SAMPLE_CFG i) F.PMC_SAMPLE_CFG.COUNTER; let want := (mget {} s.pmc.samplers i).want; let posted := s.pmc.posted.find? (fun x => x.counter == n); let waits := want = none ∨ (n / 2 ^ 19 = 5 ∧ posted = none); (waits))) ∧
    (∃ (s : State) (i : Nat), (s.inReset = false) ∧ (i < 8) ∧
      (let n := s.fld (Reg.PMC_SAMPLE_CFG i) F.PMC_SAMPLE_CFG.COUNTER; let want := (mget {} s.pmc.samplers i).want; let posted := s.pmc.posted.find? (fun x => x.counter == n); let waits := want = none ∨ (n / 2 ^ 19 = 5 ∧ posted = none); (¬ waits))) :=
  ⟨⟨{ atMs 1000 up with pmc := { snap := some { channel := 15, frozen := some [], mask := 1 } } }, { channel := 15, frozen := some [], mask := 1 }, by decide +kernel⟩,
    ⟨{ (channed 15 4 up).setFld (Reg.HIF_DMA_TAIL 15) F.HIF_DMA_TAIL.DESC_TAIL 0 with pmc := { snap := some { channel := 15, frozen := some [] } } }, { channel := 15, frozen := some [] }, by decide +kernel⟩,
    ⟨up, 7, by decide +kernel⟩,
    ⟨{ up with pmc := { samplers := [(7, { hit := some 5 })] } }, 7, 5, by decide +kernel⟩,
    ⟨up, 7, by decide +kernel⟩,
    ⟨{ up with pmc := { samplers := [(7, { want := some 5 })] } }, 7, by decide +kernel⟩⟩

/-- What the hypotheses of SnapshotsAndSamples ask for is met, part 4. -/
theorem wit_SnapshotsAndSamples_4 :
    (∃ (s : State) (i : Nat), (s.inReset = false) ∧ (i < 8) ∧
      (let ix := Reg.PMC_SAMPLE_IDX; let tail := s.fld ix F.PMC_SAMPLE_IDX.TAIL; let room := (tail + 65536 - s.fld ix F.PMC_SAMPLE_IDX.HEAD) % 65536 < 1024; let n := s.fld (Reg.PMC_SAMPLE_CFG i) F.PMC_SAMPLE_CFG.COUNTER; let want := (mget {} s.pmc.samplers i).want; let posted := s.pmc.posted.find? (fun x => x.counter == n); let waits := want = none ∨ (n / 2 ^ 19 = 5 ∧ posted = none); (¬ waits) ∧ (room))) ∧
    (∃ (s : State) (i : Nat), ∃ x, (s.inReset = false) ∧ (i < 8) ∧
      (let ix := Reg.PMC_SAMPLE_IDX; let tail := s.fld ix F.PMC_SAMPLE_IDX.TAIL; let room := (tail + 65536 - s.fld ix F.PMC_SAMPLE_IDX.HEAD) % 65536 < 1024; let n := s.fld (Reg.PMC_SAMPLE_CFG i) F.PMC_SAMPLE_CFG.COUNTER; let want := (mget {} s.pmc.samplers i).want; let posted := s.pmc.posted.find? (fun x => x.counter == n); (want ≠ none) ∧ (n / 2 ^ 19 = 5) ∧ (posted = some x) ∧ (room))) ∧
    (∃ (s : State) (i : Nat) (id : Option Nat), ∃ v p, (s.inReset = false) ∧ (i < 8) ∧
      (let ix := Reg.PMC_SAMPLE_IDX; let tail := s.fld ix F.PMC_SAMPLE_IDX.TAIL; let room := (tail + 65536 - s.fld ix F.PMC_SAMPLE_IDX.HEAD) % 65536 < 1024; let n := s.fld (Reg.PMC_SAMPLE_CFG i) F.PMC_SAMPLE_CFG.COUNTER; let want := (mget {} s.pmc.samplers i).want; (want = some v) ∧ (n / 2 ^ 19 ≠ 5) ∧ (id.bind (mfind s.pkts) = some p) ∧ (room))) ∧
    (∃ (s : State) (i : Nat), (s.inReset = false) ∧ (i < 8) ∧
      (let ix := Reg.PMC_SAMPLE_IDX; let tail := s.fld ix F.PMC_SAMPLE_IDX.TAIL; let room := (tail + 65536 - s.fld ix F.PMC_SAMPLE_IDX.HEAD) % 65536 < 1024; let n := s.fld (Reg.PMC_SAMPLE_CFG i) F.PMC_SAMPLE_CFG.COUNTER; let want := (mget {} s.pmc.samplers i).want; let posted := s.pmc.posted.find? (fun x => x.counter == n); let waits := want = none ∨ (n / 2 ^ 19 = 5 ∧ posted = none); (¬ waits) ∧ (¬ room))) ∧
    (∃ (s : State) (by_ : Agent) (i : Nat), (i < 8) ∧ (s.reaches by_ (Reg.PMC_SAMPLE_CFG i) = true)) :=
  ⟨⟨{ up with pmc := { samplers := [(7, { want := some 5 })] } }, 7, by decide +kernel⟩,
    ⟨{ up.setFld (Reg.PMC_SAMPLE_CFG 7) F.PMC_SAMPLE_CFG.COUNTER (5 * 2 ^ 19) with pmc := { samplers := [(7, { want := some 5 })], posted := [⟨5 * 2 ^ 19, 1#64, 2#64, 0, 0, 0⟩] } }, 7, ⟨5 * 2 ^ 19, 1#64, 2#64, 0, 0, 0⟩, by decide +kernel⟩,
    ⟨packet pktNow { up with pmc := { samplers := [(7, { want := some 5 })] } }, 7, some 0, 5, pktNow, by decide +kernel⟩,
    ⟨{ up.setFld Reg.PMC_SAMPLE_IDX F.PMC_SAMPLE_IDX.TAIL 1024 with pmc := { samplers := [(7, { want := some 5 })] } }, 7, by decide +kernel⟩,
    ⟨up, kp, 7, by decide +kernel⟩⟩

/-- What the hypotheses of Applies ask for is met, part 1. -/
theorem wit_Applies_1 :
    (∃ (s : State) (by_ : Agent), (s.reaches by_ Reg.TIM_APPLY = true)) ∧
    (∃ (s : State) (by_ : Agent), (s.reaches by_ Reg.PRT_APPLY = true)) ∧
    (∃ (s : State) (by_ : Agent), (s.reaches by_ Reg.PRS_APPLY = true)) ∧
    (∃ (s : State) (by_ : Agent), (s.reaches by_ Reg.XMT_APPLY = true)) ∧
    (∃ (s : State) (by_ : Agent), (s.reaches by_ Reg.TCM_APPLY = true)) ∧
    (∃ (s : State) (by_ : Agent), (s.reaches by_ Reg.FWD_APPLY = true)) :=
  ⟨⟨ward, pf, by decide +kernel⟩,
    ⟨ward, pf, by decide +kernel⟩,
    ⟨ward, pf, by decide +kernel⟩,
    ⟨ward, pf, by decide +kernel⟩,
    ⟨ward, pf, by decide +kernel⟩,
    ⟨ward, pf, by decide +kernel⟩⟩

/-- What the hypotheses of Applies ask for is met, part 2. -/
theorem wit_Applies_2 :
    (∃ (s : State) (by_ : Agent), (s.reaches by_ Reg.MTR_APPLY = true)) ∧
    (∃ (s : State) (by_ : Agent), (s.reaches by_ Reg.QUE_APPLY = true)) ∧
    (∃ (s : State) (by_ : Agent), (s.reaches by_ Reg.SCH_APPLY = true)) ∧
    (∃ (s : State) (by_ : Agent), (s.reaches by_ Reg.LCK_APPLY = true)) ∧
    (∃ (s : State) (by_ : Agent), (s.reaches by_ Reg.WIT_APPLY = true)) ∧
    (∃ (s : State) (by_ : Agent), (s.reaches by_ Reg.TOW_APPLY = true)) :=
  ⟨⟨ward, pf, by decide +kernel⟩,
    ⟨ward, pf, by decide +kernel⟩,
    ⟨ward, pf, by decide +kernel⟩,
    ⟨ward, pf, by decide +kernel⟩,
    ⟨ward, pf, by decide +kernel⟩,
    ⟨ward, pf, by decide +kernel⟩⟩

/-- What the hypotheses of Applies ask for is met, part 3. -/
theorem wit_Applies_3 :
    (∃ (s : State) (by_ : Agent), (s.reaches by_ Reg.HBM_APPLY = true)) :=
  ⟨ward, pf, by decide +kernel⟩

/-- What the hypotheses of RegisterWrites ask for is met, part 1. -/
theorem wit_RegisterWrites_1 :
    (∃ (s : State) (by_ : Agent), (s.inReset = false) ∧ (s.mayIssue by_ = true)) ∧
    (∃ (s : State) (by_ : Agent), (s.reaches by_ Reg.PMC_SNAP_TIME = true)) ∧
    (∃ (s : State) (by_ : Agent) (e : Nat) (w : Nat), (e < 256) ∧ (w < 2) ∧ (s.reaches by_ (Reg.SEC_PROT_STAGE e w) = true) ∧
      (s.isWarden by_ = true)) ∧
    (∃ (s : State) (by_ : Agent) (e : Nat) (w : Nat), (e < 256) ∧ (w < 2) ∧ (s.reaches by_ (Reg.SEC_PROT_STAGE e w) = true) ∧
      (s.isWarden by_ = false)) ∧
    (∃ (s : State) (by_ : Agent) (c : Nat), (c < 8) ∧ (s.reaches by_ (Reg.LCK_SYS_D c) = true) ∧ (s.held 13 = true)) ∧
    (∃ (s : State) (by_ : Agent) (c : Nat), (c < 8) ∧ (s.reaches by_ (Reg.LCK_SYS_D c) = true) ∧ (s.held 13 = false)) :=
  ⟨⟨up, kp, by decide +kernel⟩,
    ⟨up, kp, by decide +kernel⟩,
    ⟨ward, pf, 255, 1, by decide +kernel⟩,
    ⟨up, kp, 255, 1, by decide +kernel⟩,
    ⟨{ up.setFld Reg.VER_STATE F.VER_STATE.ARMED 5 with ver := { armedMask := 2 ^ 13 } }, kp, 7, by decide +kernel⟩,
    ⟨up, kp, 7, by decide +kernel⟩⟩

/-- What the hypotheses of RegisterWrites ask for is met, part 2. -/
theorem wit_RegisterWrites_2 :
    (∃ (s : State) (by_ : Agent) (c : Nat), (c < 16) ∧ (s.reaches by_ (Reg.HIF_DMA_DESC_BASE c) = true) ∧
      (s.flag (Reg.HIF_DMA_STAT c) F.HIF_DMA_STAT.HALTED = true)) ∧
    (∃ (s : State) (by_ : Agent) (c : Nat), (c < 16) ∧ (s.reaches by_ (Reg.HIF_DMA_DESC_BASE c) = true) ∧
      (s.flag (Reg.HIF_DMA_STAT c) F.HIF_DMA_STAT.HALTED = false)) ∧
    (∃ (s : State) (by_ : Agent) (off : Nat) (v : Word64), (s.reaches by_ off = true) ∧
      (s.regWrite by_ off v = s.writeThen by_ off v.toNat id) ∧ ((∀ f ∈ fieldsOf off, s.forbids by_ off f = 0))) :=
  ⟨⟨up, kp, 15, by decide +kernel⟩,
    ⟨up.setFld (Reg.HIF_DMA_STAT 15) F.HIF_DMA_STAT.HALTED 0, kp, 15, by decide +kernel⟩,
    ⟨ward, pf, Reg.FWD_REASON 7, 0#64, by decide +kernel⟩⟩

/-- What the hypotheses of DeniedWrites ask for is met. -/
theorem wit_DeniedWrites :
    (∃ (s : State) (i : Instr) (fn : Nat) (off : Nat), (writeOf i = some (.host fn, off)) ∧ (Instr.wellFormed i = true) ∧
      (s.inReset = false) ∧ (s.mayIssue (.host fn) = true)) ∧
    (∃ (s : State) (i : Instr) (fn : Nat) (off : Nat), (writeOf i = some (.host fn, off)) ∧ (Instr.wellFormed i = true) ∧
      (s.inReset = false) ∧ (s.mayIssue (.host fn) = true)) :=
  ⟨⟨ward, .timApply (.host 1) 1#64, 1, Reg.TIM_APPLY, by decide +kernel⟩,
    ⟨up, .timApply pf 1#64, 0, Reg.TIM_APPLY, by decide +kernel⟩⟩

/-- What the hypotheses of UnissuedWrites ask for is met. -/
theorem wit_UnissuedWrites :
    (∃ (s : State) (i : Instr) (by_ : Agent) (off : Nat), (writeOf i = some (by_, off)) ∧ (s.mayIssue by_ = false)) :=
  ⟨State.reset, .timApply (.keeper 3) 1#64, .keeper 3, Reg.TIM_APPLY, by decide +kernel⟩

/-- What the hypotheses of IdleCycle ask for is met. -/
theorem wit_IdleCycle :
    (∃ (s : State), (s.pending = [])) :=
  ⟨State.reset, by decide +kernel⟩

/-- What the hypotheses of HeldInReset ask for is met. -/
theorem wit_HeldInReset :
    (∃ (s : State), (s.inReset = true)) :=
  ⟨{ State.reset with pins := ⟨true, false⟩ }, by decide +kernel⟩

/-- What the hypotheses of ResetInvariant ask for is met. -/
theorem wit_ResetInvariant :
    (∃ s s' : State, s.resetInv ∧ step s = .next s') :=
  ⟨{ State.reset with pins := ⟨false, false⟩ }, _, fun _ => by unfold State.cleared; and_intros <;> (intros; rfl), rfl⟩

/-- What the hypotheses of QueueInvariant ask for is met. -/
theorem wit_QueueInvariant :
    (∃ s s' : State, s.queueInv ∧ s.pending ≠ [] ∧ step s = .next s') :=
  ⟨{ State.reset with pending := [.pinReset] }, _, by simp [State.queueInv, Instr.wellFormed], by simp, rfl⟩

/-- What the hypotheses of LanternTest ask for is met. -/
theorem wit_LanternTest :
    (∃ (s : State) (fn : Nat) (v : Word64), (s.reaches (.host fn) Reg.FLT_CTL = true) ∧ (s.isWarden (.host fn) = true) ∧
      (v.toNat % 2 = 1)) ∧
    (∃ (s : State) (t : Stamp), (s.inReset = false) ∧ (s.flt.testUntil = some t) ∧ (s.now < t)) ∧
    (∃ (s : State) (t : Stamp), (s.inReset = false) ∧ (s.flt.testUntil = some t) ∧ (t ≤ s.now)) :=
  ⟨⟨ward, 0, 1#64, by decide +kernel⟩,
    ⟨{ up with flt := { testUntil := some 1 } }, 1, by decide +kernel⟩,
    ⟨{ up with flt := { testUntil := some 0 } }, 0, by decide +kernel⟩⟩

/-- What the hypotheses of JunctionTemperature ask for is met. -/
theorem wit_JunctionTemperature :
    (∃ (s : State) (i : Nat), (s.inReset = false) ∧ (i < 96)) ∧
    (∃ (s : State) (i : Nat) (temp : Nat), (s.inReset = false) ∧ (i < 96) ∧ (105 < temp) ∧ (mfind s.cnd.hot i = none)) ∧
    (∃ (s : State) (i : Nat) (temp : Nat), ∃ t, (s.inReset = false) ∧ (i < 96) ∧ (105 < temp) ∧
      (mfind s.cnd.hot i = some t) ∧ (t + second ≤ s.now)) ∧
    (∃ (s : State) (i : Nat) (temp : Nat), ∃ t, (s.inReset = false) ∧ (i < 96) ∧ (105 < temp) ∧
      (mfind s.cnd.hot i = some t) ∧ (s.now < t + second)) ∧
    (∃ (s : State) (i : Nat) (temp : Nat), (s.inReset = false) ∧ (i < 96) ∧ (temp ≤ 105)) :=
  ⟨⟨up, 95, by decide +kernel⟩,
    ⟨atMs 0 { up with cnd := { hot := [] } }, 95, 106, by decide +kernel⟩,
    ⟨atMs 1000 { up with cnd := { hot := [(95, 0)] } }, 95, 106, 0, by decide +kernel⟩,
    ⟨atMs 999 { up with cnd := { hot := [(95, 0)] } }, 95, 106, 0, by decide +kernel⟩,
    ⟨up, 95, 105, by decide +kernel⟩⟩

/-- What the hypotheses of VersionRefusals ask for is met. -/
theorem wit_VersionRefusals :
    (∃ (s : State) (by_ : Agent), (s.reaches by_ Reg.VER_CTL = true)) :=
  ⟨up, kp, by decide +kernel⟩

/-- What the hypotheses of Balls ask for is met. -/
theorem wit_Balls :
    (∃ (s : State), (s.inReset = false)) ∧
    (∃ (s : State) (n : Nat), s.inReset = false ∧ s.boot.running = true ∧ n < 1536 ∧ s.sticky n = true ∧
      bitOf (s.react n) 4 = true) :=
  ⟨⟨up, by decide +kernel⟩,
    ⟨{ (up.putBit (Reg.FLT_STICKY 23) 63 true).setFld (Reg.FLT_SRC_CFG 1535) F.FLT_SRC_CFG.REACT 16 with boot := { running := true } }, 1535, by decide +kernel⟩⟩

end Sys2Proof.Tests
end

section
/-! SUPPORT. The operations of VER_CTL where they are refused (R175, Table VER-1): VER_STATUS reports the operation and its status,
and nothing else of the device's versions, tables or registers changes. -/
namespace Sys2Proof.Machine.State

/-! ## What VER_STATUS reports -/

@[simp] theorem verStatus_ver (s : State) (op ver st : Nat) : (s.verStatus op ver st).ver = s.ver := by
  simp only [verStatus, setFld_ver]
@[simp] theorem verStatus_tab (s : State) (op ver st : Nat) : (s.verStatus op ver st).tab = s.tab := by
  simp only [verStatus, setFld_tab]
@[simp] theorem verStatus_egr (s : State) (op ver st : Nat) : (s.verStatus op ver st).egr = s.egr := by
  simp only [verStatus, setFld_egr]
@[simp] theorem verStatus_stg (s : State) (op ver st : Nat) : (s.verStatus op ver st).stg = s.stg := by
  simp only [verStatus, setFld_stg]

theorem verStatus_lastOp (s : State) (op ver st : Nat) (h : op < 16) :
    (s.verStatus op ver st).fld Reg.VER_STATUS F.VER_STATUS.LAST_OP = op := by
  unfold verStatus
  rw [fld_setFld_other _ _ _ _ _ _ (by decide) (by decide) (by decide) (by decide),
    fld_setFld_same _ _ _ _ (by decide) (by decide)]
  exact Nat.mod_eq_of_lt h

theorem verStatus_lastStatus (s : State) (op ver st : Nat) (h : st < 16) :
    (s.verStatus op ver st).fld Reg.VER_STATUS F.VER_STATUS.LAST_STATUS = st := by
  unfold verStatus
  rw [fld_setFld_same _ _ _ _ (by decide) (by decide)]
  exact Nat.mod_eq_of_lt h

theorem verStatus_rd_other (s : State) (op ver st off : Nat) (h : off ≠ Reg.VER_STATUS) :
    (s.verStatus op ver st).rd off = s.rd off := by
  unfold verStatus
  rw [rd_setFld_other _ _ _ _ _ h, rd_setFld_other _ _ _ _ _ h, rd_setFld_other _ _ _ _ _ h]

/-! ## The group's versions after a session's idle time has begun again -/

@[simp] theorem touch_openV (s : State) (by_ : Agent) : (s.touch by_).openV = s.openV := touch_fld s by_ _ _
@[simp] theorem touch_armedV (s : State) (by_ : Agent) : (s.touch by_).armedV = s.armedV := touch_fld s by_ _ _
@[simp] theorem touch_currentV (s : State) (by_ : Agent) : (s.touch by_).currentV = s.currentV := touch_fld s by_ _ _
@[simp] theorem touch_verDist (s : State) (by_ : Agent) (v : Nat) : (s.touch by_).verDist v = s.verDist v := by
  unfold verDist; rw [touch_fld]

/-! ## Refused operations -/

/-- From `s` to `u` operation `op` of VER_CTL was refused with `st`: VER_STATUS says so, and no version, table entry, multicast
group, staged value or other register has changed (R175). -/
def verRefused (s u : State) (op st : Nat) : Prop :=
  u.fld Reg.VER_STATUS F.VER_STATUS.LAST_OP = op ∧ u.fld Reg.VER_STATUS F.VER_STATUS.LAST_STATUS = st
    ∧ u.ver = s.ver ∧ u.tab = s.tab ∧ u.egr = s.egr ∧ u.stg = s.stg ∧ ∀ off, off ≠ Reg.VER_STATUS → u.rd off = s.rd off

/-- Reporting a status, and nothing more, refuses the operation. -/
theorem verRefused_verStatus (s : State) (by_ : Agent) (op ver st : Nat) (ho : op < 16) (hs : st < 16) :
    s.verRefused ((s.touch by_).verStatus op ver st) op st :=
  ⟨verStatus_lastOp _ _ _ _ ho, verStatus_lastStatus _ _ _ _ hs, by simp, by simp, by simp, by simp,
    fun off h => by rw [verStatus_rd_other _ _ _ _ _ h, touch_rd]⟩

/-- A refusal that is also counted is still a refusal: counters are no registers. -/
theorem verRefused_count {s u : State} {op st : Nat} (n k : Nat) (h : s.verRefused u op st) : s.verRefused (u.count n k) op st := h

/-- A command that writes VER_CTL completes as refused where the operation `f`, at its block, is. -/
theorem completes_verRefused {i : Instr} {s : State} {by_ : Agent} {f : State → State} {op st : Nat}
    (hx : exec i s = act (s.mayIssue by_) (fun s => s.verCtl by_ f) s) (h : s.reaches by_ Reg.VER_CTL = true)
    (hf : s.verRefused (f (s.touch by_)) op st) : completes i s (fun u => s.verRefused u op st) := by
  refine completes_act hx (reaches_live h) (reaches_mayIssue h) ?_
  unfold verCtl
  rw [accept_of_reaches h]
  exact hf

/-! ## Each operation where it is refused -/

/-- OPEN is refused with STATE while a group is open. -/
theorem verOpen_refused_of_open {s : State} {by_ : Agent} (h : s.reaches by_ Reg.VER_CTL = true) (ho : s.openV ≠ 0) :
    completes (.verOpen by_) s (fun u => s.verRefused u 1 7) := by
  refine completes_verRefused rfl h ?_
  simp only [touch_openV, if_pos ho]
  exact verRefused_verStatus s by_ _ _ _ (by decide) (by decide)

/-- OPEN is refused with WINDOW where the new version lies too far from OLDEST. -/
theorem verOpen_refused_of_window {s : State} {by_ : Agent} (h : s.reaches by_ Reg.VER_CTL = true) (ho : s.openV = 0)
    (hd : 32767 < s.verDist (nextVer (if s.armedV = 0 then s.currentV else s.armedV))) :
    completes (.verOpen by_) s (fun u => s.verRefused u 1 6) := by
  refine completes_verRefused rfl h ?_
  simp only [touch_openV, touch_armedV, touch_currentV, touch_verDist, if_neg (not_not_intro ho), if_pos hd]
  exact verRefused_verStatus s by_ _ _ _ (by decide) (by decide)

/-- ARM's first check: with no group open, or one armed already, the status is STATE (Table VER-2). -/
theorem armRefusal_state {s : State} (h : s.openV = 0 ∨ s.armedV ≠ 0) : s.armRefusal = some 7 := by
  unfold armRefusal
  exact if_pos (h.imp_right Or.inl)

/-- ARM is refused with STATE where no group is open or one is armed. -/
theorem verArm_refused {s : State} {by_ : Agent} (h : s.reaches by_ Reg.VER_CTL = true) (ha : s.openV = 0 ∨ s.armedV ≠ 0) :
    completes (.verArm by_) s (fun u => s.verRefused u 2 7) := by
  refine completes_verRefused rfl h ?_
  have hr : (s.touch by_).armRefusal = some 7 := armRefusal_state (by simpa using ha)
  simp only [hr]
  exact verRefused_count _ _ (verRefused_verStatus s by_ _ _ _ (by decide) (by decide))

/-- ABORT_ALL is refused with STATE where nothing is armed: the model's reading of Table VER-1 (log entry 21). -/
theorem verAbortAll_refused {s : State} {by_ : Agent} (h : s.reaches by_ Reg.VER_CTL = true) (ha : s.armedV = 0) :
    completes (.verAbortAll by_) s (fun u => s.verRefused u 3 7) := by
  refine completes_verRefused rfl h ?_
  simp only [touch_armedV, if_pos ha]
  exact verRefused_verStatus s by_ _ _ _ (by decide) (by decide)

/-- ABORT_OPEN is refused with STATE where no group is open. -/
theorem verAbortOpen_refused {s : State} {by_ : Agent} (h : s.reaches by_ Reg.VER_CTL = true) (ho : s.openV = 0) :
    completes (.verAbortOpen by_) s (fun u => s.verRefused u 4 7) := by
  refine completes_verRefused rfl h ?_
  simp only [touch_openV, if_pos ho]
  exact verRefused_verStatus s by_ _ _ _ (by decide) (by decide)

/-- Settles O59: each operation's refusing branch only reports its status. -/
theorem versionRefusals : Obligations.VersionRefusals := by
  unfold Obligations.VersionRefusals
  intro s by_ h
  exact ⟨verOpen_refused_of_open h, verOpen_refused_of_window h, verArm_refused h, verAbortAll_refused h, verAbortOpen_refused h⟩

end Sys2Proof.Machine.State
end

section
/-! SUPPORT. The lantern test (R450): what a Warden's write to a register of action fields alone does, and that FLT_CTL is one. -/
namespace Sys2Proof.Machine.State

/-! ## Writes to a register of action fields -/

/-- A register written with what it holds leaves every register as it was. -/
theorem rd_wr_rd (s : State) (off o : Nat) : (s.wr off (s.rd off)).rd o = s.rd o := by
  by_cases h : o = off
  · rw [h, rd_wr_same]
    exact Nat.mod_eq_of_lt (rd_lt s off)
  · exact rd_wr_other s off o _ h

/-- No action field outside the APPLY registers is forbidden to the Warden (R505). -/
theorem forbids_action {s : State} {by_ : Agent} {off : Nat} {f : FieldD} (hw : s.isWarden by_ = true) (hf : f.acc = .act)
    (ha : forbids.applyReg off = false) : s.forbids by_ off f = 0 := by
  unfold forbids
  simp [hw, hf, ha]

/-- Fields are written to no effect where each of them is an action and permitted: an action reads 0 whatever is written to it. -/
theorem writeFields_actions {s : State} {by_ : Agent} {off : Nat} (v : Nat)
    (h : ∀ f ∈ fieldsOf off, f.acc = .act ∧ s.forbids by_ off f = 0) : s.writeFields by_ off v = s.wr off (s.rd off) := by
  have hnew : (fieldsOf off).foldl (fun w f =>
      if s.forbids by_ off f = 0 && f.acc != .act then putBits w f.hi f.lo (fieldNew (s.rd off) v f) else w) (s.rd off)
        = s.rd off :=
    List.foldlRecOn _ _ (motive := (· = s.rd off)) rfl fun w hw f hf => by simp [(h f hf).1, hw]
  have hbad : ∀ k, k ≠ 0 → (fieldsOf off).any (fun f => s.forbids by_ off f == k && fieldChanges (s.shown off) v f) = false := by
    intro k hk
    simp only [List.any_eq_false]
    intro f hf
    simp [(h f hf).2, Ne.symm hk]
  unfold writeFields
  simp only [hnew, List.foldl, hbad 1 (by decide), hbad 2 (by decide), hbad 3 (by decide)]
  simp

/-- LANTERN_TEST is the one writable field of FLT_CTL, and it is an action of the Warden's. -/
theorem fieldsOf_fltCtl : fieldsOf Reg.FLT_CTL = [⟨0, 0, .act, true⟩] := by decide

/-! ## The lantern test -/

/-- The Warden's write to FLT_CTL leaves what every register holds. -/
theorem writeFields_fltCtl {s : State} {by_ : Agent} (v : Nat) (hw : s.isWarden by_ = true) :
    s.writeFields by_ Reg.FLT_CTL v = s.wr Reg.FLT_CTL (s.rd Reg.FLT_CTL) := by
  refine writeFields_actions v fun f hf => ?_
  rw [fieldsOf_fltCtl, List.mem_singleton] at hf
  subst hf
  exact ⟨rfl, forbids_action hw rfl (by decide)⟩

/-- The Warden's write of 1 to LANTERN_TEST takes effect. -/
theorem acts_lanternTest {s : State} {by_ : Agent} {v : Nat} (hw : s.isWarden by_ = true) (hv : v % 2 = 1) :
    s.acts by_ Reg.FLT_CTL F.FLT_CTL.LANTERN_TEST v = true := by
  have hb : bits v F.FLT_CTL.LANTERN_TEST.hi F.FLT_CTL.LANTERN_TEST.lo = 1 := by simpa [bits, F.FLT_CTL.LANTERN_TEST] using hv
  unfold acts
  rw [hb, fieldsOf_fltCtl]
  simp [F.FLT_CTL.LANTERN_TEST, forbids_action hw (f := ⟨0, 0, .act, true⟩) rfl (by decide : forbids.applyReg Reg.FLT_CTL = false)]

/-- The Warden's write of 1 to LANTERN_TEST starts the 100 ms. -/
theorem lanternTest_warden {s : State} {by_ : Agent} {v : Word64} (h : s.reaches by_ Reg.FLT_CTL = true)
    (hw : s.isWarden by_ = true) (hv : v.toNat % 2 = 1) :
    lanternTest by_ v s = { (s.touch by_).wr Reg.FLT_CTL (s.rd Reg.FLT_CTL) with
      flt := { s.flt with testUntil := some (s.now + 100 * millisecond) } } := by
  have hw' : (s.touch by_).isWarden by_ = true := (touch_isWarden s by_ by_).trans hw
  unfold lanternTest
  rw [accept_of_reaches h, if_pos (acts_lanternTest hw' hv), writeFields_fltCtl _ hw', touch_rd]
  simp [now]

/-- The lantern is at fault while a test runs. -/
theorem lanternFault_of_test {s : State} {t : Stamp} (h : s.flt.testUntil = some t) : s.lanternFault = true := by
  unfold lanternFault
  simp [h]

/-- A running test ends once its instant has come. -/
theorem lanternTestEnd_of_test {s : State} {t : Stamp} (h : s.flt.testUntil = some t) :
    lanternTestEnd s = if t ≤ s.now then { s with flt := { s.flt with testUntil := none } } else s := by
  unfold lanternTestEnd
  rw [h]

/-- The test a Warden starts: the lantern is at fault, and beside the session's idle time and the end of the test nothing changes. -/
theorem completes_lanternTest {s : State} {by_ : Agent} {v : Word64} (h : s.reaches by_ Reg.FLT_CTL = true)
    (hw : s.isWarden by_ = true) (hv : v.toNat % 2 = 1) :
    completes (.lanternTest by_ v) s (fun u => u.lanternFault = true
      ∧ u = { s.touch by_ with regs := u.regs, flt := { s.flt with testUntil := some (s.now + 100 * millisecond) } }
      ∧ ∀ off, u.rd off = s.rd off) := by
  refine completes_act rfl (reaches_live h) (reaches_mayIssue h) ?_
  rw [lanternTest_warden h hw hv]
  refine ⟨lanternFault_of_test rfl, rfl, fun off => ?_⟩
  calc ((s.touch by_).wr Reg.FLT_CTL (s.rd Reg.FLT_CTL)).rd off
      = (s.touch by_).rd off := by rw [← touch_rd s by_ Reg.FLT_CTL, rd_wr_rd]
    _ = s.rd off := touch_rd s by_ off

/-- The end of the test clears it when its instant has come, and changes nothing before. -/
theorem completes_lanternTestEnd {s : State} {t : Stamp} (hr : s.inReset = false) (h : s.flt.testUntil = some t) :
    completes .lanternTestEnd s (fun u =>
      (s.now < t → u = s) ∧ (t ≤ s.now → u = { s with flt := { s.flt with testUntil := none } })) := by
  refine completes_act rfl hr rfl ?_
  rw [lanternTestEnd_of_test h]
  exact ⟨fun hlt => if_neg (Nat.not_le.mpr hlt), fun hle => if_pos hle⟩

end Sys2Proof.Machine.State

namespace Sys2Proof
open Machine.State

/-- Settles O57: FLT_CTL holds one action field, so the Warden's write changes no register and starts the test. -/
theorem lanternTest : Obligations.LanternTest := by
  unfold Obligations.LanternTest
  exact ⟨fun _ _ _ h hw hv => completes_lanternTest h hw hv,
    fun _ _ hr ht => ⟨lanternFault_of_test ht, completes_lanternTestEnd hr ht⟩⟩

end Sys2Proof
end

section
/-! SUPPORT. The junction temperature (R463): what a die sensor's reading does, above 105 °C and not. -/
namespace Sys2Proof.Machine.State

/-- What never happened is due. -/
@[simp] theorem isDue_none (span now : Nat) : isDue none span now = true := rfl

/-- What happened last at `t` is due from a span later on. -/
@[simp] theorem isDue_some (t : Stamp) (span now : Nat) : isDue (some t) span now = decide (t + span ≤ now) := rfl

/-- Candle `i` has its timer started anew and raises CND_TJ_HIGH with its reading. -/
def tjRaised (s : State) (i temp : Nat) : State :=
  ({ s with cnd := { s.cnd with hot := mput s.cnd.hot i s.now } }).raise Src.CND_TJ_HIGH (i + 256 * (temp % 256))

theorem tjRaised_sticky (s : State) (i temp : Nat) : (s.tjRaised i temp).sticky Src.CND_TJ_HIGH = true :=
  raise_sticky _ _ _ (by decide)

/-- A reading of 105 °C or less stops the candle's timer. -/
theorem tjHigh_cool {s : State} {i temp : Nat} (hi : i < 96) (ht : temp ≤ 105) :
    tjHigh i temp s = { s with cnd := { s.cnd with hot := mdel s.cnd.hot i } } := by
  unfold tjHigh
  rw [if_neg (Nat.not_le.mpr hi), if_pos ht]

/-- A reading above 105 °C raises the source where the candle's own second is due. -/
theorem tjHigh_due {s : State} {i temp : Nat} (hi : i < 96) (ht : 105 < temp)
    (hd : isDue (mfind s.cnd.hot i) second s.now = true) : tjHigh i temp s = s.tjRaised i temp := by
  unfold tjHigh
  rw [if_neg (Nat.not_le.mpr hi), if_neg (Nat.not_le.mpr ht), if_pos hd]
  rfl

/-- A reading above 105 °C does nothing before the candle's own second is due. -/
theorem tjHigh_early {s : State} {i temp : Nat} (hi : i < 96) (ht : 105 < temp)
    (hd : isDue (mfind s.cnd.hot i) second s.now = false) : tjHigh i temp s = s := by
  unfold tjHigh
  rw [if_neg (Nat.not_le.mpr hi), if_neg (Nat.not_le.mpr ht), if_neg (Bool.eq_false_iff.mp hd)]

/-- Where the source is raised its sticky bit is set. -/
theorem tjHigh_raises {s : State} {i temp : Nat} (hi : i < 96) (ht : 105 < temp)
    (hd : isDue (mfind s.cnd.hot i) second s.now = true) :
    tjHigh i temp s = s.tjRaised i temp ∧ (tjHigh i temp s).sticky Src.CND_TJ_HIGH = true :=
  ⟨tjHigh_due hi ht hd, (tjHigh_due hi ht hd).symm ▸ tjRaised_sticky s i temp⟩

/-- Settles O58: whether a hot candle raises is whether its own second is due, the model's reading of R463 (log entry 37). -/
theorem junctionTemperature : Obligations.JunctionTemperature := by
  unfold Obligations.JunctionTemperature
  intro s i temp hr hi
  refine completes_act rfl hr (decide_eq_true hi) ⟨fun ht hn => ?_, fun t ht hf hle => ?_, fun t ht hf hlt => ?_, tjHigh_cool hi⟩
  · exact tjHigh_raises hi ht (by rw [hn, isDue_none])
  · exact tjHigh_raises hi ht (by rw [hf, isDue_some, decide_eq_true hle])
  · exact tjHigh_early hi ht (by rw [hf, isDue_some, decide_eq_false (Nat.not_le.mpr hlt)])

end Sys2Proof.Machine.State
end
